-- ==== Sys2Proof/Word.lean ====
section
/-! DEFINITION. The words that cross the part's edges: a byte of a port, and the two-byte numbers of its blocks. -/

namespace Sys2Proof

/-- A byte of a port, of a type code or of the character store. -/
abbrev Byte := BitVec 8

/-- A two-byte number of a command block, sent most significant byte first (section 9.8). -/
abbrev Half := BitVec 16

end Sys2Proof
end

