-- ==== Sys2Proof/Config.lean ====
section
/-! DEFINITION. The numbers the manual fixes for the part. The manual leaves no value of an operation undefined, so there is no free value here. -/

namespace Sys2Proof.Config

/-- The platen is 1560 units wide (spec/00, units). -/
def platenWidth : Nat := 1560
/-- The working line holds at most 160 cells (R19). -/
def lineCells : Nat := 160
/-- The Print Queue holds up to 4 jobs (R65). -/
def queueJobs : Nat := 4
/-- Correction Memory holds at most 8 line records (R97). -/
def memoryRecords : Nat := 8
/-- The spell queue holds up to 8 entries (R136). -/
def spellEntries : Nat := 8
/-- The suspect list holds up to 16 entries (R139). -/
def suspectEntries : Nat := 16
/-- At most two Check Word queries are outstanding (R150). -/
def querySlots : Nat := 2
/-- Four places for Keys Collected and pending Await requests together (R43). -/
def awaitSlots : Nat := 4
/-- Line Done and Line Cancelled share 4 places (R180). -/
def jobNoticePlaces : Nat := 4
/-- A command block carries at most 30 data bytes (R172). -/
def blockData : Nat := 30
/-- The carrier's change position (R85). -/
def changePosition : Nat := 780
/-- Reach of a lift, in half-lines (R114). -/
def liftReach : Int := 60
/-- The longest Feed the Lift Unit makes (R116). -/
def liftFeed : Int := 20
/-- The work memory of R190, in bytes. -/
def workMemory : Nat := 12288
/-- The character store's size (R5). -/
def storeSize : Nat := 16777216
/-- A lookup probes at most 4 buckets (R134). -/
def probeLimit : Nat := 4
/-- The blink phase toggles every 40 ticks (R157). -/
def blinkPeriod : Nat := 40

/-- A limit of n ticks expires at the (n + 1)th tick taken after it starts (R15). -/
def limitTicks (n : Nat) : Nat := n + 1
/-- R173. -/
def gapLimit : Nat := limitTicks 5
/-- R70. -/
def wheelLimit : Nat := limitTicks 15
/-- R71. -/
def carrierLimit : Nat := limitTicks 60
/-- R72. -/
def hammerLimit : Nat := limitTicks 3
/-- R117. -/
def tapeLimit : Nat := limitTicks 3
/-- R79. -/
def homingLimit : Nat := limitTicks 300
/-- R15, after the reset pair. -/
def recoveryLimit : Nat := limitTicks 5
/-- R15, after a sector erase. -/
def eraseLimit : Nat := limitTicks 50
/-- R15, after a page program. -/
def programLimit : Nat := limitTicks 1

end Sys2Proof.Config
end

