-- ==== Sys2Proof/Syntax.lean ====
section
/-! DEFINITION. The commands of the part: one constructor per row of spec/opcode_table.json. -/

namespace Sys2Proof

/-- The two ports (chapter 9). -/
inductive Port where
  | console
  | link
deriving DecidableEq, Repr

/-- A command: one step of the part, whole and indivisible (spec/95). A row that is a command block carries the
port it comes from and its data fields as section 9.8 lays them out; wrong ports and values are answered, not
excluded. -/
inductive Instr where
  -- Power and resets
  /-- POWER_ON (R193). -/
  | powerOn
  /-- RESET_LINE (R193): the reset line is released. -/
  | resetLine
  /-- PORT_RESET (R182): the reset input of port `p` is asserted. -/
  | portReset (p : Port)
  -- Port strobes
  /-- DATA_WRITE (R172): byte `b` is written to the data select of port `p`. -/
  | dataWrite (p : Port) (b : Byte)
  /-- DATA_READ (R177). -/
  | dataRead (p : Port)
  /-- STATUS_READ (R171). -/
  | statusRead (p : Port)
  /-- GAP_TIMER_EXPIRY (R173). -/
  | gapTimerExpiry (p : Port)
  -- Command blocks: `p` is the port the block comes from
  /-- READ_STATUS (R183). -/
  | readStatus (p : Port)
  /-- SET_NOTICES (R181): three bytes, least significant first. -/
  | setNotices (p : Port) (b0 b1 b2 : Byte)
  /-- SET_OPTION (R187). -/
  | setOption (p : Port) (id : Byte) (value : Half)
  /-- PARTITION (R191). -/
  | partition (p : Port) (pool words linkRing consoleRing : Half)
  /-- RESTART (R195). -/
  | restart (p : Port)
  /-- KEY_STROKE (R22): one stroke in the console encoding of R186. -/
  | keyStroke (p : Port) (b0 b1 : Byte)
  /-- TYPE_TEXT (R23). -/
  | typeText (p : Port) (text : List Byte)
  /-- RELEASE_LINE (R40). -/
  | releaseLine (p : Port)
  /-- AWAIT_KEYS (R43). -/
  | awaitKeys (p : Port) (wanted : Byte) (timeout : Half) (echo : Byte)
  /-- CANCEL_AWAIT (R45). -/
  | cancelAwait (p : Port)
  /-- SET_MARGINS (R48). -/
  | setMargins (p : Port) (left right : Half)
  /-- SET_TAB (R48). -/
  | setTab (p : Port) (position : Half)
  /-- CLEAR_TAB (R48). -/
  | clearTab (p : Port) (position : Half)
  /-- CLEAR_ALL_TABS (R48). -/
  | clearAllTabs (p : Port)
  /-- SET_SPACING (R49). -/
  | setSpacing (p : Port) (mode : Byte)
  /-- SET_LINE_SPACING (R49). -/
  | setLineSpacing (p : Port) (value : Byte)
  /-- SET_IMPRESSION (R49). -/
  | setImpression (p : Port) (value : Byte)
  /-- SET_MARGIN_ZONE (R49). -/
  | setMarginZone (p : Port) (value : Half)
  /-- SET_PAGE_LENGTH (R49). -/
  | setPageLength (p : Port) (value : Byte)
  /-- READ_FORMAT (R47). -/
  | readFormat (p : Port)
  /-- FEED (R77): a signed count of half-lines. -/
  | feed (p : Port) (count : Byte)
  /-- FORM_FEED (R76). -/
  | formFeed (p : Port)
  /-- CANCEL_PRINTING (R90). -/
  | cancelPrinting (p : Port)
  /-- REHOME (R80). -/
  | rehome (p : Port)
  /-- WHEEL_CHANGE (R85). -/
  | wheelChange (p : Port)
  /-- WHEEL_MOUNTED (R86). -/
  | wheelMounted (p : Port)
  /-- LOAD_SUPPLY (R87). -/
  | loadSupply (p : Port) (kind : Byte) (ribbon tape : Half)
  /-- LIFT_LAST (R110). -/
  | liftLast (p : Port)
  /-- LIFT_WORD (R111). -/
  | liftWord (p : Port)
  /-- LIFT_LINE (R110). -/
  | liftLine (p : Port)
  /-- LIFT_BACK (R113). -/
  | liftBack (p : Port) (offset : Byte) (position : Half)
  /-- RETRACT_LINE (R113). -/
  | retractLine (p : Port)
  /-- RELOCATE (R123). -/
  | relocate (p : Port)
  /-- READ_SUSPECT (R142). -/
  | readSuspect (p : Port) (index : Byte)
  /-- IGNORE_SUSPECT (R142). -/
  | ignoreSuspect (p : Port) (index : Byte)
  /-- ADD_WORD_BY_INDEX (R148). -/
  | addWordByIndex (p : Port) (index : Byte)
  /-- ADD_WORD (R148). -/
  | addWord (p : Port) (letters : List Byte)
  /-- REMOVE_WORD (R149). -/
  | removeWord (p : Port) (letters : List Byte)
  /-- SAVE_USER_WORDS (R13). -/
  | saveUserWords (p : Port)
  /-- CHECK_WORD (R150). -/
  | checkWord (p : Port) (letters : List Byte)
  /-- SHOW_MESSAGE (R162). -/
  | showMessage (p : Port) (duration : Byte) (text : List Byte)
  /-- CLEAR_MESSAGE (R164). -/
  | clearMessage (p : Port)
  /-- SET_TONES (R167). -/
  | setTones (p : Port) (tone divider duty : Byte)
  -- The part's own scheduling steps
  /-- COMPOSE_STROKE (R25). -/
  | composeStroke
  /-- LINE_CONVERSION (R38). -/
  | lineConversion
  /-- JOB_START (R67). -/
  | jobStart
  -- Reports of the mechanism
  /-- WHEEL_SETTLED (R70). -/
  | wheelSettled
  /-- CARRIER_ARRIVED (R71). -/
  | carrierArrived
  /-- HAMMER_PULSE_END (R72). -/
  | hammerPulseEnd
  /-- HAMMER_RETURNED (R73). -/
  | hammerReturned
  /-- TAPE_RAISED (R117). -/
  | tapeRaised
  /-- PLATEN_STOPPED (R74). -/
  | platenStopped
  /-- HOME_REACHED (R79). -/
  | homeReached
  /-- INDEX_FOUND (R79): petal 0 is at the index mark and the hub code reads `hub`. -/
  | indexFound (hub : BitVec 6)
  -- Expiries and other events
  /-- WHEEL_LIMIT_EXPIRY (R70). -/
  | wheelLimitExpiry
  /-- CARRIER_LIMIT_EXPIRY (R71). -/
  | carrierLimitExpiry
  /-- HAMMER_LIMIT_EXPIRY (R72). -/
  | hammerLimitExpiry
  /-- TAPE_LIMIT_EXPIRY (R117). -/
  | tapeLimitExpiry
  /-- HOMING_LIMIT_EXPIRY (R79). -/
  | homingLimitExpiry
  /-- REST_TIMER_EXPIRY (R83). -/
  | restTimerExpiry
  /-- HOLD_LIMIT_EXPIRY (R28). -/
  | holdLimitExpiry
  /-- AWAIT_TIMEOUT (R45): of the request at `place` in the pending list, 0 the oldest. -/
  | awaitTimeout (place : Nat)
  /-- STORE_OP_COMPLETE (R1): the operation on the Store Link ends; `bytes` are what a read returned. -/
  | storeOpComplete (bytes : List Byte)
  /-- BUSY_LIMIT_EXPIRY (R15). -/
  | busyLimitExpiry
  /-- BLINK_TOGGLE (R157). -/
  | blinkToggle
  /-- OVERLAY_EXPIRY (R163). -/
  | overlayExpiry
  /-- TONE_END (R166). -/
  | toneEnd
  /-- FRAME_TRANSFER_END (R161). -/
  | frameTransferEnd
  /-- RESET_INPUT_RELEASE (R170). -/
  | resetInputRelease (p : Port)
deriving DecidableEq, Repr

end Sys2Proof
end

