-- ==== Sys2Proof/Decode.lean ====
section
/-! DEFINITION. The command blocks: the command code list of section 9.8 (R185) as a decoder and an encoder between
a block's code and data and the command it names. -/

namespace Sys2Proof

/-- spec/opcode_table.json gives bits for no row, so a table word spells no command. -/
def decodeTableWord (_nbits _w : Nat) : Option Instr := none

/-- The most significant byte of a two-byte number (section 9.8). -/
def hi (v : Half) : Byte := v.extractLsb' 8 8
/-- The least significant byte of a two-byte number. -/
def lo (v : Half) : Byte := v.extractLsb' 0 8
/-- A two-byte number from its bytes, most significant first. -/
def half (a b : Byte) : Half := a ++ b

/-- One row of the command code list: the ports a code is permitted from and the data counts it allows. -/
structure CodeRow where
  console : Bool
  link : Bool
  least : Nat
  most : Nat
deriving DecidableEq, Repr

/-- The command code list (R185): none for a code that is not in it. -/
def codeRow (code : Byte) : Option CodeRow :=
  match code.toNat with
  | 0x01 => some ⟨true, true, 0, 0⟩
  | 0x02 => some ⟨true, true, 3, 3⟩
  | 0x03 => some ⟨true, true, 3, 3⟩
  | 0x04 => some ⟨true, false, 8, 8⟩
  | 0x05 => some ⟨true, false, 0, 0⟩
  | 0x10 => some ⟨true, false, 2, 2⟩
  | 0x11 => some ⟨false, true, 0, 30⟩
  | 0x12 => some ⟨true, true, 0, 0⟩
  | 0x13 => some ⟨false, true, 4, 4⟩
  | 0x14 => some ⟨false, true, 0, 0⟩
  | 0x20 => some ⟨true, true, 4, 4⟩
  | 0x21 => some ⟨true, true, 2, 2⟩
  | 0x22 => some ⟨true, true, 2, 2⟩
  | 0x23 => some ⟨true, true, 0, 0⟩
  | 0x24 => some ⟨true, true, 1, 1⟩
  | 0x25 => some ⟨true, true, 1, 1⟩
  | 0x26 => some ⟨true, true, 1, 1⟩
  | 0x27 => some ⟨true, true, 2, 2⟩
  | 0x28 => some ⟨true, true, 1, 1⟩
  | 0x29 => some ⟨true, true, 0, 0⟩
  | 0x30 => some ⟨true, true, 1, 1⟩
  | 0x31 => some ⟨true, true, 0, 0⟩
  | 0x32 => some ⟨true, true, 0, 0⟩
  | 0x33 => some ⟨true, false, 0, 0⟩
  | 0x34 => some ⟨true, false, 0, 0⟩
  | 0x35 => some ⟨true, false, 0, 0⟩
  | 0x36 => some ⟨true, false, 5, 5⟩
  | 0x40 => some ⟨true, false, 0, 0⟩
  | 0x41 => some ⟨true, false, 0, 0⟩
  | 0x42 => some ⟨true, false, 0, 0⟩
  | 0x43 => some ⟨true, false, 3, 3⟩
  | 0x44 => some ⟨false, true, 0, 0⟩
  | 0x45 => some ⟨true, false, 0, 0⟩
  | 0x50 => some ⟨true, true, 1, 1⟩
  | 0x51 => some ⟨true, true, 1, 1⟩
  | 0x52 => some ⟨true, true, 1, 1⟩
  | 0x53 => some ⟨true, true, 1, 30⟩
  | 0x54 => some ⟨true, true, 1, 30⟩
  | 0x55 => some ⟨true, true, 0, 0⟩
  | 0x56 => some ⟨false, true, 1, 30⟩
  | 0x60 => some ⟨true, true, 1, 29⟩
  | 0x61 => some ⟨true, true, 0, 0⟩
  | 0x62 => some ⟨true, false, 3, 3⟩
  | _ => none

/-- Is the code permitted from this port (the list's Ports column)? -/
def CodeRow.permits (r : CodeRow) : Port → Bool
  | .console => r.console
  | .link => r.link

/-- The command a block of this code and data names, for the data counts the list allows. -/
def decodeBlock (p : Port) (code : Byte) (data : List Byte) : Option Instr :=
  match code.toNat, data with
  | 0x01, [] => some (.readStatus p)
  | 0x02, [a, b, c] => some (.setNotices p a b c)
  | 0x03, [a, b, c] => some (.setOption p a (half b c))
  | 0x04, [a, b, c, d, e, f, g, h] => some (.partition p (half a b) (half c d) (half e f) (half g h))
  | 0x05, [] => some (.restart p)
  | 0x10, [a, b] => some (.keyStroke p a b)
  | 0x11, text => some (.typeText p text)
  | 0x12, [] => some (.releaseLine p)
  | 0x13, [a, b, c, d] => some (.awaitKeys p a (half b c) d)
  | 0x14, [] => some (.cancelAwait p)
  | 0x20, [a, b, c, d] => some (.setMargins p (half a b) (half c d))
  | 0x21, [a, b] => some (.setTab p (half a b))
  | 0x22, [a, b] => some (.clearTab p (half a b))
  | 0x23, [] => some (.clearAllTabs p)
  | 0x24, [a] => some (.setSpacing p a)
  | 0x25, [a] => some (.setLineSpacing p a)
  | 0x26, [a] => some (.setImpression p a)
  | 0x27, [a, b] => some (.setMarginZone p (half a b))
  | 0x28, [a] => some (.setPageLength p a)
  | 0x29, [] => some (.readFormat p)
  | 0x30, [a] => some (.feed p a)
  | 0x31, [] => some (.formFeed p)
  | 0x32, [] => some (.cancelPrinting p)
  | 0x33, [] => some (.rehome p)
  | 0x34, [] => some (.wheelChange p)
  | 0x35, [] => some (.wheelMounted p)
  | 0x36, [a, b, c, d, e] => some (.loadSupply p a (half b c) (half d e))
  | 0x40, [] => some (.liftLast p)
  | 0x41, [] => some (.liftWord p)
  | 0x42, [] => some (.liftLine p)
  | 0x43, [a, b, c] => some (.liftBack p a (half b c))
  | 0x44, [] => some (.retractLine p)
  | 0x45, [] => some (.relocate p)
  | 0x50, [a] => some (.readSuspect p a)
  | 0x51, [a] => some (.ignoreSuspect p a)
  | 0x52, [a] => some (.addWordByIndex p a)
  | 0x53, text => some (.addWord p text)
  | 0x54, text => some (.removeWord p text)
  | 0x55, [] => some (.saveUserWords p)
  | 0x56, text => some (.checkWord p text)
  | 0x60, a :: text => some (.showMessage p a text)
  | 0x61, [] => some (.clearMessage p)
  | 0x62, [a, b, c] => some (.setTones p a b c)
  | _, _ => none

/-- The port, code and data of the block that carries a command; none for a row that is no command block. -/
def encodeBlock : Instr → Option (Port × Byte × List Byte)
  | .powerOn => none
  | .resetLine => none
  | .portReset _ => none
  | .dataWrite _ _ => none
  | .dataRead _ => none
  | .statusRead _ => none
  | .gapTimerExpiry _ => none
  | .readStatus p => some (p, 0x01#8, [])
  | .setNotices p a b c => some (p, 0x02#8, [a, b, c])
  | .setOption p a b => some (p, 0x03#8, [a, hi b, lo b])
  | .partition p a b c d => some (p, 0x04#8, [hi a, lo a, hi b, lo b, hi c, lo c, hi d, lo d])
  | .restart p => some (p, 0x05#8, [])
  | .keyStroke p a b => some (p, 0x10#8, [a, b])
  | .typeText p a => some (p, 0x11#8, a)
  | .releaseLine p => some (p, 0x12#8, [])
  | .awaitKeys p a b c => some (p, 0x13#8, [a, hi b, lo b, c])
  | .cancelAwait p => some (p, 0x14#8, [])
  | .setMargins p a b => some (p, 0x20#8, [hi a, lo a, hi b, lo b])
  | .setTab p a => some (p, 0x21#8, [hi a, lo a])
  | .clearTab p a => some (p, 0x22#8, [hi a, lo a])
  | .clearAllTabs p => some (p, 0x23#8, [])
  | .setSpacing p a => some (p, 0x24#8, [a])
  | .setLineSpacing p a => some (p, 0x25#8, [a])
  | .setImpression p a => some (p, 0x26#8, [a])
  | .setMarginZone p a => some (p, 0x27#8, [hi a, lo a])
  | .setPageLength p a => some (p, 0x28#8, [a])
  | .readFormat p => some (p, 0x29#8, [])
  | .feed p a => some (p, 0x30#8, [a])
  | .formFeed p => some (p, 0x31#8, [])
  | .cancelPrinting p => some (p, 0x32#8, [])
  | .rehome p => some (p, 0x33#8, [])
  | .wheelChange p => some (p, 0x34#8, [])
  | .wheelMounted p => some (p, 0x35#8, [])
  | .loadSupply p a b c => some (p, 0x36#8, [a, hi b, lo b, hi c, lo c])
  | .liftLast p => some (p, 0x40#8, [])
  | .liftWord p => some (p, 0x41#8, [])
  | .liftLine p => some (p, 0x42#8, [])
  | .liftBack p a b => some (p, 0x43#8, [a, hi b, lo b])
  | .retractLine p => some (p, 0x44#8, [])
  | .relocate p => some (p, 0x45#8, [])
  | .readSuspect p a => some (p, 0x50#8, [a])
  | .ignoreSuspect p a => some (p, 0x51#8, [a])
  | .addWordByIndex p a => some (p, 0x52#8, [a])
  | .addWord p a => some (p, 0x53#8, a)
  | .removeWord p a => some (p, 0x54#8, a)
  | .saveUserWords p => some (p, 0x55#8, [])
  | .checkWord p a => some (p, 0x56#8, a)
  | .showMessage p a b => some (p, 0x60#8, a :: b)
  | .clearMessage p => some (p, 0x61#8, [])
  | .setTones p a b c => some (p, 0x62#8, [a, b, c])
  | .composeStroke => none
  | .lineConversion => none
  | .jobStart => none
  | .wheelSettled => none
  | .carrierArrived => none
  | .hammerPulseEnd => none
  | .hammerReturned => none
  | .tapeRaised => none
  | .platenStopped => none
  | .homeReached => none
  | .indexFound _ => none
  | .wheelLimitExpiry => none
  | .carrierLimitExpiry => none
  | .hammerLimitExpiry => none
  | .tapeLimitExpiry => none
  | .homingLimitExpiry => none
  | .restTimerExpiry => none
  | .holdLimitExpiry => none
  | .awaitTimeout _ => none
  | .storeOpComplete _ => none
  | .busyLimitExpiry => none
  | .blinkToggle => none
  | .overlayExpiry => none
  | .toneEnd => none
  | .frameTransferEnd => none
  | .resetInputRelease _ => none

/-- The bytes of a block on the wire: code, count, data, and the closing byte n + 3 (R172, R178). -/
def frameBlock (code : Byte) (data : List Byte) : List Byte :=
  code :: BitVec.ofNat 8 data.length :: data ++ [BitVec.ofNat 8 (data.length + 3)]

end Sys2Proof
end

