-- ==== Sys2Proof/Machine/State.lean ====
section
/-! DEFINITION. The state of the part, block by block, and its value after power-on (R193). -/

namespace Sys2Proof.Machine

/-- Why the part stops. It never does: its own Fault is an engine state (R89) and a store state (R15). The type has
no constructor, so no command can end in a fault. -/
inductive Fault where
deriving DecidableEq, Repr

/-- Why a command has no meaning. -/
inductive Refusal where
  /-- Raised by exec's arm for a row with no meaning; no arm raises it. Safe: a claim about it cannot be proved. -/
  | notModelled (mnemonic : String)
deriving DecidableEq, Repr

/-! ### Strokes and cells -/

/-- The stroke functions (spec/00). -/
inductive StrokeFn where
  | backspace | tab | indexDown | indexUp | carriageReturn
  | cursorLeft | cursorRight | center | marginRelease | delete
deriving DecidableEq, Repr

/-- A stroke's kind, with its type code or its function. -/
inductive StrokeKind where
  | character (code : Byte)
  | space
  | function (f : StrokeFn)
deriving DecidableEq, Repr

/-- A stroke; the port it came from is the port whose ring or request holds it. -/
structure Stroke where
  kind : StrokeKind
  underline : Bool
  bold : Bool
deriving DecidableEq, Repr

inductive CellKind where
  | character | space | tab
deriving DecidableEq, Repr

/-- A cell of the working line (R19). `position` is where it was struck (Direct) or last laid out (Line); `stamp` is
the model's own, the order of arrival that "the newest cell" of R55 needs (log entry 28). -/
structure Cell where
  kind : CellKind
  code : Byte
  underline : Bool
  bold : Bool
  width : Nat
  position : Nat
  stamp : Nat
deriving DecidableEq, Repr

/-! ### Ports -/

/-- The status codes of replies (R176); the stroke refusal record uses some of them (R24). -/
inductive Status where
  | done | started | clamped | already | busy | full | noLine | notInMode | margin | away | range | noTarget
  | framing | gap | unknown | notPermitted | length
deriving DecidableEq, Repr

/-- An outbound block: its type byte (0xF0 a reply, else the notice kind) and its data (R178). -/
structure Block where
  kind : Byte
  data : List Byte
deriving DecidableEq, Repr

/-- The block being read out and the number of its bytes already read (R177). -/
structure ReadBuffer where
  block : Block
  taken : Nat
deriving DecidableEq, Repr

/-- One port (chapter 9). `dataOut` is what the last read strobe put on the data lines. -/
structure PortState where
  assembly : List Byte
  gap : Option Nat
  inHand : Bool
  queue : List Block
  readBuffer : Option ReadBuffer
  overrun : Bool
  enable : BitVec 19
  lost : Nat
  resetAsserted : Bool
  dataOut : Byte
deriving DecidableEq, Repr

/-! ### Settings -/

inductive EntryMode where
  | direct | line
deriving DecidableEq, Repr

/-- The options of R188, but for Wrap and Justify, which the Format Record holds. -/
structure Options where
  entryMode : EntryMode
  keyboardSharing : Bool
  spelling : Bool
  spellHold : Bool
  restDelay : Nat
  holdLimit : Nat
  doneTone : Bool
  linkSpelling : Bool
deriving DecidableEq, Repr

/-- The partition (R190). -/
structure Partition where
  pool : Nat
  userWords : Nat
  linkRing : Nat
  consoleRing : Nat
deriving DecidableEq, Repr

inductive Spacing where
  | fixed10 | fixed12 | fixed15 | proportional
deriving DecidableEq, Repr

inductive Impression where
  | light | normal | heavy
deriving DecidableEq, Repr

/-- The Format Record (R47). -/
structure FormatRecord where
  left : Nat
  right : Nat
  tabs : List Nat
  spacing : Spacing
  lineSpacing : Nat
  impression : Impression
  zone : Nat
  pageLength : Nat
  consoleWrap : Bool
  consoleJustify : Bool
  linkWrap : Bool
  linkJustify : Bool
deriving DecidableEq, Repr

/-! ### The working line -/

/-- The line's phase; Ending has two sub-phases (R19). -/
inductive Phase where
  | free | composing | checking | waiting | held
deriving DecidableEq, Repr

inductive EndCause where
  | carriageReturn | wrap | forced
deriving DecidableEq, Repr

inductive WordStatus where
  | unchecked | queued | good | suspect | skipped
deriving DecidableEq, Repr

inductive WordCause where
  | long | unavailable
deriving DecidableEq, Repr

/-- A word record of the working line (R129). -/
structure WordRecord where
  first : Nat
  count : Nat
  upper : Bool
  status : WordStatus
  cause : Option WordCause
  generation : Nat
  joined : Bool
deriving DecidableEq, Repr

/-- A hyphen fragment (R143). -/
structure Fragment where
  serial : Nat
  first : Nat
  count : Nat
  letters : List Byte
deriving DecidableEq, Repr

/-- The working line (R19), with the word list that is kept beside it (R129), its unmapped mark (R131) and the
fragment joined to its first word (R144). -/
structure WorkingLine where
  phase : Phase
  holder : Option Port
  serial : Nat
  mode : EntryMode
  cells : List Cell
  cursor : Nat
  generation : Nat
  marginRelease : Bool
  center : Bool
  bell : Bool
  rise : Int
  endCause : Option EndCause
  carry : Option (List Cell)
  unmapped : Bool
  words : List WordRecord
  joined : Option Fragment
deriving DecidableEq, Repr

/-- A pending Await request (R43); `timeout` is the ticks left, none for a request with no timeout. -/
structure AwaitRequest where
  tag : Nat
  wanted : Nat
  collected : List Stroke
  echo : Bool
  timeout : Option Nat
deriving DecidableEq, Repr

/-- A stroke refusal record (R24). -/
structure RefusalRecord where
  code : Option Status
  count : Nat
deriving DecidableEq, Repr

/-- The Line Composer, but for the working line and the Format Record. `leftDue` is the model's own: the compose position
of a Free line awaits a new left margin (R50; log entry 11). -/
structure Composer where
  consoleRing : List Stroke
  linkRing : List Stroke
  nextSerial : Nat
  lastHolder : Option Port
  position : Nat
  awaits : List AwaitRequest
  awaitTag : Nat
  linkUnderline : Bool
  linkBold : Bool
  consoleRefusals : RefusalRecord
  linkRefusals : RefusalRecord
  leftDue : Bool
deriving DecidableEq, Repr

/-! ### The petal map -/

inductive PitchClass where
  | ten | twelve | fifteen | proportional
deriving DecidableEq, Repr

/-- What the petal map says of one type code that is present (R9). -/
structure Glyph where
  code : Byte
  petal : Nat
  width : Nat
  cls : Nat
deriving DecidableEq, Repr

/-- A Loaded petal map (R9): `glyphs` has at most one entry per type code; a code without one is "not present". The
underscore petal's type code and class are kept because its strikes carry them (R53, R59; log entry 35). -/
structure PetalMap where
  wheelId : Nat
  pitch : PitchClass
  spaceWidth : Nat
  underscore : Glyph
  glyphs : List Glyph
deriving DecidableEq, Repr

/-! ### Jobs -/

inductive Pass where
  | main | bold | underscore
deriving DecidableEq, Repr

/-- What a Strike order carries (R66). -/
structure Strike where
  position : Nat
  petal : Nat
  energy : Nat
  width : Nat
  code : Byte
  cell : Nat
  rise : Int
  pass : Pass
deriving DecidableEq, Repr

/-- A strike entry of Correction Memory (R93); `name` is the model's own, so that a Lift order can name it (log
entry 39). -/
structure StrikeEntry where
  name : Nat
  position : Nat
  width : Nat
  rise : Int
  wheelId : Nat
  petal : Nat
  energy : Nat
  code : Byte
  cell : Nat
  pass : Pass
  liftable : Bool
deriving DecidableEq, Repr

/-- An order (R66). A Lift names an entry of the record `record`; an entry's fields never change (R93), so the order
carries them. -/
inductive Order where
  | strike (k : Strike)
  | lift (record : Nat) (e : StrikeEntry)
  | move (x : Nat)
  | feed (n : Int)
  | eject
deriving DecidableEq, Repr

inductive LiftCommand where
  | last | word | line | back | retract
deriving DecidableEq, Repr

/-- What a Correction job carries besides its orders (R111, R113, R119): `target` is the target record once the job has
been resolved. -/
structure Correction where
  command : LiftCommand
  offset : Nat
  position : Nat
  reference : Option Nat
  target : Option Nat
  lifted : Nat
  leftmost : Option Nat
deriving DecidableEq, Repr

inductive JobKind where
  | line | stroke | correction | motion
deriving DecidableEq, Repr

/-- A job (R65). `started` and `cancelled` are where R87 and R90 leave the head job; `relocate` marks the Motion job of
Relocate (R123). -/
structure Job where
  kind : JobKind
  source : Port
  serial : Option Nat
  orders : List Order
  next : Nat
  struck : Nat
  dropped : Nat
  lineEnding : Bool
  started : Bool
  cancelled : Bool
  relocate : Bool
  correction : Option Correction
deriving DecidableEq, Repr

/-! ### The Strike Engine -/

inductive EngineState where
  | homing | ready | working | resting | wheelChange | wheelFault | supplyOut | fault
deriving DecidableEq, Repr

/-- Where a homing stands: the carrier seeking home, the wheel seeking its index, or the wait for the table. -/
inductive HomingStage where
  | carrier | wheel | table
deriving DecidableEq, Repr

/-- A homing in progress (R79, R81); `wake` when it ends a rest and compares hub ids. -/
structure Homing where
  full : Bool
  wake : Bool
  stage : HomingStage
deriving DecidableEq, Repr

/-- A wheel rotation in flight (R70). -/
structure WheelMove where
  target : Nat
  forward : Bool
  petals : Nat
  limit : Nat
deriving DecidableEq, Repr

/-- A carrier move in flight (R71). -/
structure CarrierMove where
  target : Nat
  limit : Nat
deriving DecidableEq, Repr

/-- The hammer (R72): idle, in its pulse of a given energy, or awaiting Hammer Returned under its limit. -/
inductive Hammer where
  | idle
  | pulse (energy : Nat)
  | returning (limit : Nat)
deriving DecidableEq, Repr

/-- The lift tape guide (R117). -/
inductive TapeGuide where
  | down
  | rising (limit : Nat)
  | up
deriving DecidableEq, Repr

/-- The platen stepper's motion in flight: a Feed of n, or an Eject (R74, R76). -/
inductive PlatenMove where
  | feed (n : Int)
  | eject
deriving DecidableEq, Repr

inductive RibbonKind where
  | correctable | fabric
deriving DecidableEq, Repr

/-- The Direct tally (R68); serial 0 for none. -/
structure Tally where
  serial : Nat
  struck : Nat
  dropped : Nat
deriving DecidableEq, Repr

/-- The Strike Engine (chapter 4). -/
structure Engine where
  queue : List Job
  state : EngineState
  homing : Option Homing
  homingLimit : Option Nat
  carrier : Nat
  petal : Nat
  platen : Int
  pageLines : Int
  pageEnd : Bool
  petalMap : Option PetalMap
  ribbonKind : RibbonKind
  ribbon : Nat
  tape : Nat
  tally : Tally
  wheelMove : Option WheelMove
  carrierMove : Option CarrierMove
  hammer : Hammer
  tapeGuide : TapeGuide
  platenMove : Option PlatenMove
deriving DecidableEq, Repr

/-! ### Correction Memory and the Lift Unit -/

/-- A line record (R92); `name` is the model's own (log entry 39). The Incomplete flag is set exactly while
`unrecorded` is present. -/
structure LineRecord where
  name : Nat
  serial : Nat
  source : Port
  vertical : Int
  unrecorded : Option (Nat × Nat)
  entries : List StrikeEntry
deriving DecidableEq, Repr

/-- Correction Memory (chapter 5): the records oldest first, and the references by name. -/
structure CorrectionMemory where
  records : List LineRecord
  openRecord : Option Nat
  resumeRecord : Option Nat
  returnRecord : Option Nat
  nextRecord : Nat
  nextEntry : Nat
deriving DecidableEq, Repr

/-- The Lift Unit (chapter 6). `point` is the Relocate Point: compose position and platen position. -/
structure LiftUnit where
  point : Option (Nat × Int)
  strikeSeen : Bool
  away : Bool
  owed : Bool
  target : Option Nat
deriving DecidableEq, Repr

/-! ### Spelling -/

inductive SpellOrigin where
  | line (p : Port)
  | query
deriving DecidableEq, Repr

/-- An entry of the spell queue (R136). `count` and `continued` are carried to the suspect it may make (log entry
36); `inFlight` while its read is on the Store Link. -/
structure SpellEntry where
  origin : SpellOrigin
  serial : Nat
  first : Nat
  count : Nat
  continued : Bool
  generation : Nat
  letters : List Byte
  length : Nat
  primary : Nat
  fingerprint : Nat
  tag : Nat
  bucket : Nat
  probes : Nat
  stale : Bool
  inFlight : Bool
deriving DecidableEq, Repr

inductive Place where
  | working | record
deriving DecidableEq, Repr

/-- An entry of the suspect list or the print-wait list (R139, R140). -/
structure Suspect where
  serial : Nat
  place : Place
  first : Nat
  count : Nat
  letters : List Byte
  fingerprint : Nat
  length : Nat
  continued : Bool
deriving DecidableEq, Repr

/-- A user word (R147). -/
structure UserWord where
  fingerprint : Nat
  length : Nat
  primary : Nat
  capital : Bool
deriving DecidableEq, Repr

/-- An outstanding Check Word query (R150); `queued` once it has joined the spell queue. -/
structure Query where
  tag : Nat
  letters : List Byte
  queued : Bool
deriving DecidableEq, Repr

/-- The Spelling Unit (chapter 7), but for the word list. -/
structure Spelling where
  queue : List SpellEntry
  suspects : List Suspect
  printWait : List Suspect
  printing : List Nat
  userWords : List UserWord
  consoleFragment : Option Fragment
  linkFragment : Option Fragment
  queries : List Query
  queryTag : Nat
deriving DecidableEq, Repr

/-! ### The Store Interface -/

inductive StoreState where
  | starting | present | absent | faulted
deriving DecidableEq, Repr

/-- The store flags (R2). -/
structure StoreFlags where
  noLexicon : Bool
  noWheelSet : Bool
  noUserArea : Bool
  discarded : Bool
  truncated : Bool
deriving DecidableEq, Repr

/-- An accepted section, as the directory copy keeps it (R5). -/
structure StoreSection where
  param : Nat
  base : Nat
  length : Nat
deriving DecidableEq, Repr

/-- A section entry as read from the directory (R185). -/
structure RawEntry where
  kind : Nat
  param : Nat
  base : Nat
  length : Nat
deriving DecidableEq, Repr

/-- What the examination of the section entries has found so far (R5): the sections accepted, and the kinds already
decided. -/
structure Examination where
  lexicon : Option StoreSection
  wheelSet : Option StoreSection
  userArea : Option StoreSection
  lexiconSeen : Bool
  wheelSeen : Bool
  userSeen : Bool
  tables : Nat
deriving DecidableEq, Repr

/-- The step of a store start-up in progress (R3). -/
inductive StartStep where
  | resetPair
  | recovery
  | setWrap
  | readHeader
  | readEntries
  | wheelHeader (entry : RawEntry) (rest : List RawEntry) (found : Examination)
  | wheelIds (table : Nat) (tables : Nat)
  | userHeader
  | userRecords (count : Nat) (check : Nat) (magic : Bool)
deriving DecidableEq, Repr

/-- The Store Link operations (R1). A page program carries its bytes. -/
inductive StoreOp where
  | resetPair
  | setWrap
  | statusRead
  | straightRead (address : Nat) (count : Nat)
  | wrappedRead (address : Nat)
  | sectorErase (address : Nat)
  | pageProgram (address : Nat) (bytes : List Byte)
deriving DecidableEq, Repr

inductive LinkOwner where
  | startUp | wheel | save | lookup
deriving DecidableEq, Repr

/-- The operation on the Store Link, with what is left of its busy limit (R15). -/
structure LinkOp where
  owner : LinkOwner
  op : StoreOp
  limit : Option Nat
deriving DecidableEq, Repr

/-- A save in progress (R13): its issuer and the steps not yet ended. -/
structure Save where
  issuer : Port
  steps : List StoreOp
deriving DecidableEq, Repr

/-- The Store Interface (chapter 1). -/
structure Store where
  state : StoreState
  flags : StoreFlags
  lexicon : Option StoreSection
  wheelSet : Option StoreSection
  userArea : Option StoreSection
  wheelIndex : List (Nat × Nat)
  startUp : Option StartStep
  link : Option LinkOp
  wheelRequest : Option Nat
  save : Option Save
deriving DecidableEq, Repr

/-! ### Display and tones -/

/-- A cell of the display image (R153). -/
structure DisplayCell where
  code : Option Byte
  blink : Bool
  mark : Bool
  cursor : Bool
deriving DecidableEq, Repr

inductive Lamp where
  | out | lit | blinking
deriving DecidableEq, Repr

/-- The annunciators (R160). -/
structure Annunciators where
  line : Lamp
  just : Lamp
  spell : Lamp
  link : Lamp
  hold : Lamp
  rest : Lamp
  wheel : Lamp
  away : Lamp
deriving DecidableEq, Repr

/-- The display image (R153): 40 cells, the annunciators, and the number in the column digits. -/
structure Image where
  cells : List DisplayCell
  lamps : Annunciators
  digits : Option Nat
deriving DecidableEq, Repr

/-- What a frame sends for a cell's glyph (R158). -/
inductive Shape where
  | blank
  | glyph (code : Byte)
  | box
deriving DecidableEq, Repr

/-- A cell as a frame sends it (R161). -/
structure FrameCell where
  shape : Shape
  mark : Bool
  cursor : Bool
deriving DecidableEq, Repr

/-- A frame (R161): the cells, the eight annunciators lit or out in the order of R153, and three digit positions, each
a digit or blank. -/
structure Frame where
  cells : List FrameCell
  lamps : List Bool
  digits : List (Option Nat)
deriving DecidableEq, Repr

/-- The overlay record (R162); remaining 0 stays until cleared. -/
structure Overlay where
  text : List Byte
  owner : Port
  remaining : Nat
deriving DecidableEq, Repr

/-- The Display Unit (chapter 8). `live` once the start-up has ended (R165, R193). `window`, 0..160 by R153, may stand
higher while Away (DESIGN CHOICE, log entry 77). -/
structure Display where
  column : Nat
  image : Image
  window : Nat
  blinkOn : Bool
  blinkTicks : Nat
  overlay : Option Overlay
  dirty : Bool
  transfer : Option Frame
  shown : Frame
  live : Bool
deriving DecidableEq, Repr

inductive ToneName where
  | refuse | suspect | bell | done
deriving DecidableEq, Repr

inductive Duty where
  | quarter | third | half | whole
deriving DecidableEq, Repr

structure Voice where
  divider : Nat
  duty : Duty
deriving DecidableEq, Repr

/-- The sounding tone, with the voice it started with (R166, R167). -/
structure Sounding where
  tone : ToneName
  remaining : Nat
  voice : Voice
deriving DecidableEq, Repr

/-- The Tone Unit (R166). -/
structure ToneUnit where
  sounding : Option Sounding
  refuse : Voice
  suspect : Voice
  bell : Voice
  done : Voice
deriving DecidableEq, Repr

/-! ### The whole part -/

/-- The state of the part: its two ports, its settings, its blocks, the two timers that follow several blocks, and the
queue of waiting commands, oldest first (the model's own). -/
structure State where
  console : PortState
  link : PortState
  options : Options
  partition : Partition
  format : FormatRecord
  line : WorkingLine
  composer : Composer
  engine : Engine
  memory : CorrectionMemory
  lift : LiftUnit
  spelling : Spelling
  store : Store
  display : Display
  tones : ToneUnit
  holdTimer : Option Nat
  restTimer : Option Nat
  pending : List Instr
deriving DecidableEq, Repr

/-! ### After power-on -/

/-- R184. The reset input is taken as not asserted (log entry 7). -/
def PortState.reset : PortState where
  assembly := []
  gap := none
  inHand := false
  queue := []
  readBuffer := none
  overrun := false
  enable := 0x7FFFF#19
  lost := 0
  resetAsserted := false
  dataOut := 0

/-- R188, R189. -/
def Options.reset : Options where
  entryMode := .direct
  keyboardSharing := false
  spelling := true
  spellHold := false
  restDelay := 5
  holdLimit := 10
  doneTone := false
  linkSpelling := false

/-- R190. -/
def Partition.reset : Partition where
  pool := 960
  userWords := 256
  linkRing := 1024
  consoleRing := 256

/-- R47. -/
def FormatRecord.reset : FormatRecord where
  left := 120
  right := 1020
  tabs := []
  spacing := .fixed12
  lineSpacing := 2
  impression := .normal
  zone := 84
  pageLength := 132
  consoleWrap := true
  consoleJustify := false
  linkWrap := true
  linkJustify := false

/-- The Free line (R19). The entry mode of a Free line has no meaning (log entry 33). -/
def WorkingLine.free : WorkingLine where
  phase := .free
  holder := none
  serial := 0
  mode := .direct
  cells := []
  cursor := 0
  generation := 0
  marginRelease := false
  center := false
  bell := false
  rise := 0
  endCause := none
  carry := none
  unmapped := false
  words := []
  joined := none

/-- R24: cleared. -/
def RefusalRecord.clear : RefusalRecord where
  code := none
  count := 0

/-- R46. -/
def Composer.reset : Composer where
  consoleRing := []
  linkRing := []
  nextSerial := 1
  lastHolder := none
  position := 120
  awaits := []
  awaitTag := 0
  linkUnderline := false
  linkBold := false
  consoleRefusals := .clear
  linkRefusals := .clear
  leftDue := false

/-- R68: no serial, both counts 0. -/
def Tally.clear : Tally where
  serial := 0
  struck := 0
  dropped := 0

/-- R91: a full homing begun, the map Unloaded, the queue empty, the supplies at 0. The positions that the homing sets
are 0 until it does (log entry 6). -/
def Engine.reset : Engine where
  queue := []
  state := .homing
  homing := some { full := true, wake := false, stage := .carrier }
  homingLimit := some Config.homingLimit
  carrier := 0
  petal := 0
  platen := 0
  pageLines := 0
  pageEnd := false
  petalMap := none
  ribbonKind := .correctable
  ribbon := 0
  tape := 0
  tally := .clear
  wheelMove := none
  carrierMove := none
  hammer := .idle
  tapeGuide := .down
  platenMove := none

/-- R109. -/
def CorrectionMemory.reset : CorrectionMemory where
  records := []
  openRecord := none
  resumeRecord := none
  returnRecord := none
  nextRecord := 0
  nextEntry := 0

/-- R127. -/
def LiftUnit.reset : LiftUnit where
  point := none
  strikeSeen := false
  away := false
  owed := false
  target := none

/-- R152. -/
def Spelling.reset : Spelling where
  queue := []
  suspects := []
  printWait := []
  printing := []
  userWords := []
  consoleFragment := none
  linkFragment := none
  queries := []
  queryTag := 0

/-- R2, R3: the flags a start-up clears. -/
def StoreFlags.clear : StoreFlags where
  noLexicon := false
  noWheelSet := false
  noUserArea := false
  discarded := false
  truncated := false

/-- R18, R193: a store start-up begun, the reset pair on the link. -/
def Store.reset : Store where
  state := .starting
  flags := .clear
  lexicon := none
  wheelSet := none
  userArea := none
  wheelIndex := []
  startUp := some .resetPair
  link := some { owner := .startUp, op := .resetPair, limit := none }
  wheelRequest := none
  save := none

/-- A display cell that shows nothing. -/
def DisplayCell.blank : DisplayCell where
  code := none
  blink := false
  mark := false
  cursor := false

/-- R165: all annunciators out. -/
def Annunciators.out : Annunciators where
  line := .out
  just := .out
  spell := .out
  link := .out
  hold := .out
  rest := .out
  wheel := .out
  away := .out

/-- R165: the blank image. -/
def Image.blank : Image where
  cells := List.replicate 40 .blank
  lamps := .out
  digits := none

/-- The frame of the blank image (R165). -/
def Frame.blank : Frame where
  cells := List.replicate 40 { shape := .blank, mark := false, cursor := false }
  lamps := List.replicate 8 false
  digits := [none, none, none]

/-- R165: a blank frame is transferred at once. The column indicator and the module's picture have no stated value
(log entry 6). -/
def Display.reset : Display where
  column := 13
  image := .blank
  window := 0
  blinkOn := true
  blinkTicks := 40
  overlay := none
  dirty := false
  transfer := some .blank
  shown := .blank
  live := false

/-- R166, R169. -/
def ToneUnit.reset : ToneUnit where
  sounding := none
  refuse := { divider := 40, duty := .half }
  suspect := { divider := 60, duty := .third }
  bell := { divider := 25, duty := .half }
  done := { divider := 80, duty := .quarter }

/-- R193: the part right after power-on or the reset line. -/
def State.reset : State where
  console := .reset
  link := .reset
  options := .reset
  partition := .reset
  format := .reset
  line := .free
  composer := .reset
  engine := .reset
  memory := .reset
  lift := .reset
  spelling := .reset
  store := .reset
  display := .reset
  tones := .reset
  holdTimer := none
  restTimer := none
  pending := []

end Sys2Proof.Machine
end

