-- ==== Sys2Proof/Machine/Formats.lean ====
section
/-! DEFINITION. The byte layouts the part sends: numbers, status codes, notices (section 9.8, R178, R185). -/

namespace Sys2Proof.Machine

/-- One byte of a number, modulo 256. -/
def byte (n : Nat) : Byte := BitVec.ofNat 8 n

/-- Two bytes of a number, most significant first (section 9.8). -/
def two (n : Nat) : List Byte := [byte (n / 256), byte n]

/-- Two bytes of a signed number, two's complement (section 9.8). -/
def twoSigned (n : Int) : List Byte :=
  let v : Half := BitVec.ofInt 16 n
  [hi v, lo v]

/-- A number from its bytes, most significant first (section 9.8). -/
def number (bytes : List Byte) : Nat := bytes.foldl (fun n b => n * 256 + b.toNat) 0

/-- A bit of a byte. -/
def flagBit (b : Bool) (k : Nat) : Nat := if b then 2 ^ k else 0

/-- The status codes of section 9.8. -/
def Status.code : Status → Byte
  | .done => 0x00 | .started => 0x01 | .clamped => 0x02 | .already => 0x03
  | .busy => 0x10 | .full => 0x11 | .noLine => 0x12 | .notInMode => 0x13
  | .margin => 0x14 | .away => 0x15 | .range => 0x16 | .noTarget => 0x17
  | .framing => 0x20 | .gap => 0x21 | .unknown => 0x22 | .notPermitted => 0x23 | .length => 0x24

/-- The type byte of a reply (R178). -/
def replyKind : Byte := 0xF0

/-- A reply: its status and its result data (R176). -/
structure Reply where
  status : Status
  data : List Byte
deriving DecidableEq, Repr

/-- A reply with no result data. -/
def Reply.plain (st : Status) : Reply where
  status := st
  data := []

/-- The block of a reply (R178): the command code it answers, its status code, its result data. -/
def Reply.block (r : Reply) (code : Byte) : Block where
  kind := replyKind
  data := code :: r.status.code :: r.data

/-- The bytes of a block on the wire (R178). -/
def Block.wire (b : Block) : List Byte := frameBlock b.kind b.data

/-! ### The notices (R178; their data in section 9.8) -/

/-- The counts are sent modulo 256 (log entry 52). -/
def Notice.lineDone (serial struck dropped : Nat) : Block :=
  ⟨0xA0, two serial ++ [byte struck, byte dropped]⟩
def Notice.lineCancelled (serial struck : Nat) : Block := ⟨0xA1, two serial ++ [byte struck]⟩
def Notice.missingCharacter (code : Byte) (serial : Nat) : Block := ⟨0xA2, code :: two serial⟩
def Notice.justifySkipped (serial : Nat) : Block := ⟨0xA3, two serial⟩
def Notice.lineHeld (serial suspects : Nat) : Block := ⟨0xA4, two serial ++ [byte suspects]⟩
def Notice.lineForced (serial : Nat) : Block := ⟨0xA5, two serial⟩
def Notice.suspectFound (serial first count : Nat) (letters : List Byte) : Block :=
  ⟨0xA6, two serial ++ byte first :: byte count :: letters⟩
/-- Cause: Count 0, TimedOut 1, Cancelled 2; the strokes already encoded. -/
def Notice.keysCollected (tag cause count : Nat) (strokes : List Byte) : Block :=
  ⟨0xA7, byte tag :: byte cause :: byte count :: strokes⟩
/-- Result: Good 0, Suspect 1, Unchecked 2. -/
def Notice.checkResult (tag result : Nat) : Block := ⟨0xA8, [byte tag, byte result]⟩
/-- Reason: NoTarget 0, LineHeld 1, WrongWheel 2, Unliftable 3, TapeOut 4. -/
def Notice.liftRefused (command : Byte) (reason : Nat) : Block := ⟨0xA9, [command, byte reason]⟩
/-- Outcome: Complete 0, Cancelled 1, Fault 2. -/
def Notice.liftDone (command : Byte) (outcome lifted leftmost : Nat) : Block :=
  ⟨0xAA, command :: byte outcome :: two lifted ++ two leftmost⟩
/-- Cause: Carrier 0, Wheel 1, Homing 2. -/
def Notice.mechanismFault (cause : Nat) : Block := ⟨0xAB, [byte cause]⟩
def Notice.wheelLoaded (id pitch : Nat) : Block := ⟨0xAC, [byte id, byte pitch]⟩
/-- Reason: NoTable 0, BadTable 1, NoHub 2. -/
def Notice.wheelFault (hub reason : Nat) : Block := ⟨0xAD, [byte hub, byte reason]⟩
def Notice.supplyLow (ribbon tape : Nat) : Block := ⟨0xAE, two ribbon ++ two tape⟩
def Notice.pageEnd (serial : Nat) (lines : Int) : Block := ⟨0xAF, two serial ++ twoSigned lines⟩
def Notice.messageWithdrawn : Block := ⟨0xB0, []⟩
/-- Succeeded 0, Failed 1. -/
def Notice.saveDone (result : Nat) : Block := ⟨0xB1, [byte result]⟩
def Notice.storeState (state flags : Byte) : Block := ⟨0xB2, [state, flags]⟩

/-! ### Codes of named values (section 9.8) -/

def PitchClass.code : PitchClass → Nat
  | .ten => 10 | .twelve => 12 | .fifteen => 15 | .proportional => 0

def LiftCommand.code : LiftCommand → Byte
  | .last => 0x40 | .word => 0x41 | .line => 0x42 | .back => 0x43 | .retract => 0x44

def EngineState.code : EngineState → Nat
  | .homing => 0 | .ready => 1 | .working => 2 | .resting => 3
  | .wheelChange => 4 | .wheelFault => 5 | .supplyOut => 6 | .fault => 7

def StoreState.code : StoreState → Nat
  | .starting => 0 | .present => 1 | .absent => 2 | .faulted => 3

/-- Read Status: none 0, Console 1, Link 2. -/
def holderCode : Option Port → Nat
  | none => 0
  | some .console => 1
  | some .link => 2

/-- Read Status: Free 0, Composing 1, Ending 2, Held 3. -/
def Phase.code : Phase → Nat
  | .free => 0 | .composing => 1 | .checking => 2 | .waiting => 2 | .held => 3

def Spacing.code : Spacing → Nat
  | .fixed10 => 0 | .fixed12 => 1 | .fixed15 => 2 | .proportional => 3

def Impression.code : Impression → Nat
  | .light => 0 | .normal => 1 | .heavy => 2

def RibbonKind.code : RibbonKind → Nat
  | .correctable => 0 | .fabric => 1

def Place.code : Place → Nat
  | .working => 0 | .record => 1

end Sys2Proof.Machine
end

