-- ==== Sys2Proof/Machine/Operands.lean ====
section
/-! DEFINITION. What the operand bytes of commands mean: strokes (R186), link text (R23), type codes and the fold table
(spec/00), the hash of a word (R133), and the values of Set Spacing, Set Impression, Load Supply and Set Tones. -/

namespace Sys2Proof.Machine

/-- A type code of a Character: 0x21..0x7E or 0xC0..0xFE. -/
def isTypeCode (b : Byte) : Bool :=
  (0x21 ≤ b.toNat && b.toNat ≤ 0x7E) || (0xC0 ≤ b.toNat && b.toNat ≤ 0xFE)

/-! ### Strokes -/

/-- The function codes of spec/00. -/
def StrokeFn.code : StrokeFn → Byte
  | .backspace => 0x08 | .tab => 0x09 | .indexDown => 0x0A | .indexUp => 0x0B | .carriageReturn => 0x0D
  | .cursorLeft => 0x1C | .cursorRight => 0x1D | .center => 0x1E | .marginRelease => 0x1F | .delete => 0x7F

/-- The function a code names, if any (spec/00). -/
def strokeFn (b : Byte) : Option StrokeFn :=
  match b.toNat with
  | 0x08 => some .backspace
  | 0x09 => some .tab
  | 0x0A => some .indexDown
  | 0x0B => some .indexUp
  | 0x0D => some .carriageReturn
  | 0x1C => some .cursorLeft
  | 0x1D => some .cursorRight
  | 0x1E => some .center
  | 0x1F => some .marginRelease
  | 0x7F => some .delete
  | _ => none

/-- R186: the stroke a console encoding names, if any. A Function's attributes are ignored (log entry 9). -/
def decodeStroke (b0 b1 : Byte) : Option Stroke :=
  if b0.toNat ≥ 16 then none
  else
    let underline := b0.getLsbD 2
    let bold := b0.getLsbD 3
    match b0.toNat % 4 with
    | 0 => if isTypeCode b1 then some ⟨.character b1, underline, bold⟩ else none
    | 1 => if b1 = 0x20 then some ⟨.space, underline, bold⟩ else none
    | 2 => (strokeFn b1).map fun f => ⟨.function f, false, false⟩
    | _ => none

/-- R186: the two bytes of a stroke. -/
def Stroke.encode (k : Stroke) : List Byte :=
  let attributes := flagBit k.underline 2 + flagBit k.bold 3
  match k.kind with
  | .character c => [byte attributes, c]
  | .space => [byte (1 + attributes), 0x20]
  | .function f => [byte (2 + attributes), f.code]

/-- The attribute state of the link while its text is read (R23). -/
structure TextState where
  underline : Bool
  bold : Bool
deriving DecidableEq, Repr

/-- R23: what one text byte does: the attribute state after it, and the stroke it makes, if any; `none` for a byte that
is dropped. -/
def readTextByte (a : TextState) (b : Byte) : Option (TextState × Option Stroke) :=
  match b.toNat with
  | 0x0E => some ({ a with underline := true }, none)
  | 0x0F => some ({ a with underline := false }, none)
  | 0x02 => some ({ a with bold := true }, none)
  | 0x03 => some ({ a with bold := false }, none)
  | 0x20 => some (a, some ⟨.space, a.underline, a.bold⟩)
  | 0x08 => some (a, some ⟨.function .backspace, false, false⟩)
  | 0x09 => some (a, some ⟨.function .tab, false, false⟩)
  | 0x0A => some (a, some ⟨.function .indexDown, false, false⟩)
  | 0x0B => some (a, some ⟨.function .indexUp, false, false⟩)
  | 0x0D => some (a, some ⟨.function .carriageReturn, false, false⟩)
  | 0x1E => some (a, some ⟨.function .center, false, false⟩)
  | _ => if isTypeCode b then some (a, some ⟨.character b, a.underline, a.bold⟩) else none

/-- What a Type Text comes to (R23): the attribute state after it, its strokes in byte order, its dropped bytes. -/
structure TextRead where
  state : TextState
  strokes : List Stroke
  dropped : Nat
deriving DecidableEq, Repr

/-- R23: the text bytes read in order. -/
def readText (a : TextState) : List Byte → TextRead
  | [] => ⟨a, [], 0⟩
  | b :: rest =>
    match readTextByte a b with
    | none => let r := readText a rest; { r with dropped := r.dropped + 1 }
    | some (a', none) => readText a' rest
    | some (a', some k) => let r := readText a' rest; { r with strokes := k :: r.strokes }

/-! ### The fold table -/

/-- The fold table of spec/00: the base letter of a type code, none for non-letter. -/
def fold (b : Byte) : Option Byte :=
  let n := b.toNat
  if (0x41 ≤ n && n ≤ 0x5A) || (0x61 ≤ n && n ≤ 0x7A) then some b
  else if 0xC0 ≤ n && n ≤ 0xC5 then some 0x41
  else if n = 0xC7 then some 0x43
  else if 0xC8 ≤ n && n ≤ 0xCB then some 0x45
  else if 0xCC ≤ n && n ≤ 0xCF then some 0x49
  else if n = 0xD1 then some 0x4E
  else if (0xD2 ≤ n && n ≤ 0xD6) || n = 0xD8 then some 0x4F
  else if 0xD9 ≤ n && n ≤ 0xDC then some 0x55
  else if n = 0xDD then some 0x59
  else if 0xE0 ≤ n && n ≤ 0xE5 then some 0x61
  else if n = 0xE7 then some 0x63
  else if 0xE8 ≤ n && n ≤ 0xEB then some 0x65
  else if 0xEC ≤ n && n ≤ 0xEF then some 0x69
  else if n = 0xF1 then some 0x6E
  else if (0xF2 ≤ n && n ≤ 0xF6) || n = 0xF8 then some 0x6F
  else if 0xF9 ≤ n && n ≤ 0xFC then some 0x75
  else if n = 0xFD then some 0x79
  else none

/-- The code folds to a letter. -/
def isLetter (b : Byte) : Bool := (fold b).isSome

def apostrophe : Byte := 0x27
def hyphen : Byte := 0x2D

/-- R128: a code that may stand inside a word. -/
def isWordCode (b : Byte) : Bool := isLetter b || b == apostrophe

/-- The code folds to a capital letter (R128, first-upper). -/
def isCapital (b : Byte) : Bool :=
  match fold b with
  | some c => 0x41 ≤ c.toNat && c.toNat ≤ 0x5A
  | none => false

/-- A word's letters are first-upper (R128). -/
def firstUpper (letters : List Byte) : Bool :=
  match letters with
  | [] => false
  | c :: _ => isCapital c

/-! ### The hash (R133) -/

/-- The lexicon value of a letter, 1..26, or of the apostrophe, 27. -/
def lexValue (b : Byte) : Nat :=
  match fold b with
  | some c => if c.toNat ≤ 0x5A then c.toNat - 0x40 else c.toNat - 0x60
  | none => 27

/-- R133: the primary value P. -/
def primaryValue (letters : List Byte) : Nat :=
  letters.foldl (fun p b => (p * 32 + lexValue b) % 65521) 0

/-- R133: the fingerprint F. -/
def fingerprint (letters : List Byte) : Nat :=
  let f := letters.foldl (fun f b => (f * 41 + lexValue b) % 16777216) letters.length
  if f = 0 then 1 else f

/-- R148, R150: the letters are in the form of a word: only letters and apostrophes, none of these first or last, and
at least two codes. -/
def wordForm (letters : List Byte) : Bool :=
  2 ≤ letters.length && letters.all isWordCode
    && letters.head? != some apostrophe && letters.getLast? != some apostrophe

/-! ### Other values -/

def spacingOf (b : Byte) : Option Spacing :=
  match b.toNat with
  | 0 => some .fixed10
  | 1 => some .fixed12
  | 2 => some .fixed15
  | 3 => some .proportional
  | _ => none

def impressionOf (b : Byte) : Option Impression :=
  match b.toNat with
  | 0 => some .light
  | 1 => some .normal
  | 2 => some .heavy
  | _ => none

def ribbonKindOf (b : Byte) : Option RibbonKind :=
  match b.toNat with
  | 0 => some .correctable
  | 1 => some .fabric
  | _ => none

def toneOf (b : Byte) : Option ToneName :=
  match b.toNat with
  | 0 => some .refuse
  | 1 => some .suspect
  | 2 => some .bell
  | 3 => some .done
  | _ => none

def dutyOf (b : Byte) : Option Duty :=
  match b.toNat with
  | 1 => some .quarter
  | 2 => some .third
  | 3 => some .half
  | 4 => some .whole
  | _ => none

/-- An on/off value (R188). -/
def onOff (v : Half) : Option Bool :=
  match v.toNat with
  | 0 => some false
  | 1 => some true
  | _ => none

/-- A value clamped to a range (spec/00). -/
def clamp (least most n : Nat) : Nat := max least (min most n)

/-- A whole number clamped to a range (spec/00). -/
def clampInt (least most n : Int) : Int := max least (min most n)

end Sys2Proof.Machine
end

