-- ==== Sys2Proof/Machine/Flags.lean ====
section
/-! DEFINITION. The flags the part computes rather than keeps: the fields of the status byte and the attention output
(R170, R171), the byte of the store flags (section 9.8), and the availability of the lexicon (R2). -/

namespace Sys2Proof.Machine

/-- R171: InFree. -/
def PortState.inFree (p : PortState) : Bool := !p.inHand && !p.resetAsserted

/-- R171: OutReady, and R170: the attention output; a block in the read buffer has a byte unread. -/
def PortState.outReady (p : PortState) : Bool := p.readBuffer.isSome || !p.queue.isEmpty

/-- R170: the attention output. -/
def PortState.attention (p : PortState) : Bool := p.outReady

/-- R171: ReplyPending. -/
def PortState.replyPending (p : PortState) : Bool :=
  p.queue.any (·.kind == replyKind) || (p.readBuffer.map (·.block.kind == replyKind)).getD false

/-- R171: Assembling. -/
def PortState.assembling (p : PortState) : Bool := !p.assembly.isEmpty

/-- The status byte (R171, section 9.8). -/
def PortState.statusByte (p : PortState) : Byte :=
  byte (flagBit p.inFree 0 + flagBit p.outReady 1 + flagBit p.replyPending 2
    + flagBit p.overrun 3 + flagBit p.assembling 4)

/-- The store flags as Read Status and Store State carry them (section 9.8). -/
def StoreFlags.byte (f : StoreFlags) : Byte :=
  Machine.byte (flagBit f.noLexicon 0 + flagBit f.noWheelSet 1 + flagBit f.noUserArea 2
    + flagBit f.discarded 3 + flagBit f.truncated 4)

/-- R2: the lexicon is available while the store is Present and NoLexicon is clear. -/
def Store.lexiconAvailable (st : Store) : Bool :=
  st.state == .present && !st.flags.noLexicon

/-- R133: the bucket count B = 2^k of the accepted lexicon. -/
def Store.buckets (st : Store) : Nat :=
  match st.lexicon with
  | some l => 2 ^ l.param
  | none => 1

end Sys2Proof.Machine
end

