-- ==== Sys2Proof/Machine/Escapement.lean ====
section
/-! DEFINITION. The Escapement Unit (chapter 3): widths, layout, centering, justification, strikes, the margin zone and
the column indicator. It keeps no state: every answer is a function of the Format Record, the petal map and the cells. -/

namespace Sys2Proof.Machine

/-! ### Widths (R51, R52) -/

/-- R51: the pitch width of a fixed-pitch wheel. -/
def PitchClass.fixedWidth : PitchClass → Option Nat
  | .ten => some 12
  | .twelve => some 10
  | .fifteen => some 8
  | .proportional => none

/-- R51: the pitch width of a Fixed mode. -/
def Spacing.fixedWidth : Spacing → Option Nat
  | .fixed10 => some 12
  | .fixed12 => some 10
  | .fixed15 => some 8
  | .proportional => none

/-- What the petal map says of a type code; none when it is not present. -/
def PetalMap.find (m : PetalMap) (code : Byte) : Option Glyph := m.glyphs.find? (·.code == code)

/-- R51: the advance, the strike offset and the strike width of a Character that is present. -/
structure Metrics where
  advance : Nat
  offset : Int
  strikeWidth : Nat
deriving DecidableEq, Repr

def metrics (f : FormatRecord) (m : PetalMap) (g : Glyph) : Metrics :=
  match m.pitch.fixedWidth with
  | some w => ⟨w, 0, w⟩
  | none =>
    match f.spacing.fixedWidth with
    | some w => ⟨w, ((w : Int) - g.width) / 2, g.width⟩
    | none => ⟨g.width, 0, g.width⟩

/-- R51: the space width. -/
def spaceWidth (f : FormatRecord) (m : PetalMap) : Nat :=
  match m.pitch.fixedWidth with
  | some w => w
  | none =>
    match f.spacing.fixedWidth with
    | some w => w
    | none => m.spaceWidth

/-- R51: the underscore width u. -/
def underscoreWidth (m : PetalMap) : Nat :=
  match m.pitch.fixedWidth with
  | some w => w
  | none => m.underscore.width

/-- R51, R52: the advance of a Character; a missing character advances by the space width. -/
def advanceOf (f : FormatRecord) (m : PetalMap) (code : Byte) : Nat :=
  match m.find code with
  | some g => (metrics f m g).advance
  | none => spaceWidth f m

/-- R53: the impression offset. -/
def Impression.offset : Impression → Nat
  | .light => 0
  | .normal => 3
  | .heavy => 6

/-- R53: the energy of a strike. -/
def energyOf (f : FormatRecord) (g : Glyph) : Nat := g.cls + f.impression.offset

/-! ### Layout (R54) -/

/-- The first tab stop greater than a position. -/
def nextTab (f : FormatRecord) (x : Nat) : Option Nat := f.tabs.find? (x < ·)

/-- R54: the width of a cell at running position x, with its justification addition. -/
def cellWidth (f : FormatRecord) (m : PetalMap) (x : Nat) (c : Cell) (addition : Nat) : Nat :=
  match c.kind with
  | .character => advanceOf f m c.code
  | .space => spaceWidth f m + addition
  | .tab =>
    match nextTab f x with
    | some t => t - x
    | none => 0

/-- R54: the walk over the cells from a running position, each cell with its justification addition. -/
def layWith (f : FormatRecord) (m : PetalMap) : Nat → List (Cell × Nat) → List Cell
  | _, [] => []
  | x, (c, a) :: rest =>
    let w := cellWidth f m x c a
    { c with position := x, width := w } :: layWith f m (x + w) rest

/-- R54: the layout without additions. -/
def layFrom (f : FormatRecord) (m : PetalMap) (x : Nat) (cells : List Cell) : List Cell :=
  layWith f m x (cells.map fun c => (c, 0))

/-- A cell's right edge. -/
def Cell.rightEdge (c : Cell) : Nat := c.position + c.width

/-- R33, R54: the line extent of laid-out cells. -/
def extentOf (start : Nat) (laid : List Cell) : Nat :=
  match laid.getLast? with
  | some c => c.rightEdge
  | none => start

/-- R33: the position at which a cell inserted at the cursor would start. -/
def positionAt (start : Nat) (laid : List Cell) (cursor : Nat) : Nat := extentOf start (laid.take cursor)

/-! ### Centering and justification (R56 to R58) -/

/-- The number of cells up to and including the last Tab cell. -/
def afterLastTab (cells : List Cell) : Nat :=
  cells.length - (cells.reverse.takeWhile (·.kind != .tab)).length

/-- R56: where the layout of a centered line starts. -/
def centeredStart (f : FormatRecord) (laid : List Cell) : Nat :=
  let total := (laid.map (·.width)).sum
  if total ≤ f.right - f.left then f.left + (f.right - f.left - total) / 2 else f.left

/-- R57: the word gaps of the justified segment: the index of the first Space of each run that has a Character before it
and after it in the segment. -/
def gapStarts (cells : List Cell) : List Nat :=
  let start := afterLastTab cells
  (List.range cells.length).filter fun i =>
    start < i
      && ((cells[i]?).map (·.kind == .space)).getD false
      && ((cells[i - 1]?).map (·.kind == .character)).getD false
      && (cells.drop (i + 1)).any (·.kind == .character)

/-- R57: the right edge of the last Character cell. -/
def lastCharacterEdge (laid : List Cell) : Nat :=
  match laid.reverse.find? (·.kind == .character) with
  | some c => c.rightEdge
  | none => 0

/-- R58: the addition of each cell: nothing but for the first Space of each gap, a there and a + 1 in the rightmost r
gaps. -/
def additions (n : Nat) (gaps : List Nat) (a r : Nat) : List Nat :=
  (List.range n).map fun i =>
    match gaps.idxOf? i with
    | some j => if gaps.length - r ≤ j then a + 1 else a
    | none => 0

/-- The layout of a line at conversion, and whether its justification was skipped (R58). -/
structure Layout where
  cells : List Cell
  skipped : Bool
deriving DecidableEq, Repr

/-- R57, R58: the layout of a line that qualifies for justification. -/
def justify (f : FormatRecord) (m : PetalMap) (cells : List Cell) : Layout :=
  let laid := layFrom f m f.left cells
  let gaps := gapStarts laid
  let edge := lastCharacterEdge laid
  let short := f.right - edge
  if gaps.length = 0 || f.right ≤ edge then ⟨laid, false⟩
  else
    let a := short / gaps.length
    let r := short % gaps.length
    let largest := if r = 0 then a else a + 1
    if 3 * spaceWidth f m < largest then ⟨laid, true⟩
    else ⟨layWith f m f.left (cells.zip (additions cells.length gaps a r)), false⟩

/-- R54, R56, R57: the layout of a Line-mode line at its conversion. -/
def layoutAtConversion (f : FormatRecord) (m : PetalMap) (line : WorkingLine) (justifyOn : Bool) : Layout :=
  if line.center then
    if line.cells.any (·.kind == .tab) then ⟨layFrom f m f.left line.cells, false⟩
    else
      let laid := layFrom f m f.left line.cells
      ⟨layFrom f m (centeredStart f laid) line.cells, false⟩
  else if line.endCause = some .wrap && justifyOn then justify f m line.cells
  else ⟨layFrom f m f.left line.cells, false⟩

/-! ### Strikes (R59 to R62) -/

/-- R59: the positions of the underscores of a cell at p of width w, for an underscore of width u. -/
def underscorePositions (p w u : Nat) : List Nat :=
  if w ≤ u then [p]
  else
    let n := w / u
    (List.range n).map (fun i => p + i * u) ++ (if n * u < w then [p + w - u] else [])

/-- R59: the underscore strikes of a cell. -/
def underscoreStrikes (f : FormatRecord) (m : PetalMap) (rise : Int) (index p w : Nat) : List Strike :=
  (underscorePositions p w (underscoreWidth m)).map fun q =>
    { position := q, petal := m.underscore.petal, energy := energyOf f m.underscore, width := underscoreWidth m,
      code := m.underscore.code, cell := index, rise := rise, pass := .underscore }

/-- R51, R55, R60: the main strike of a Character that is present, clamped at 0, and its bold strike. -/
def characterStrikes (f : FormatRecord) (m : PetalMap) (rise : Int) (index p : Nat) (g : Glyph) (bold : Bool) :
    List Strike :=
  let k := metrics f m g
  let q := (p + k.offset).toNat
  let main : Strike :=
    { position := q, petal := g.petal, energy := energyOf f g, width := k.strikeWidth, code := g.code, cell := index,
      rise := rise, pass := .main }
  main :: (if bold && q + 1 + k.strikeWidth ≤ Config.platenWidth
    then [{ main with position := q + 1, pass := .bold }] else [])

/-- R61: the strikes of one laid-out cell, before R62 drops any. -/
def cellStrikes (f : FormatRecord) (m : PetalMap) (rise : Int) (index : Nat) (c : Cell) : List Strike :=
  match c.kind with
  | .tab => []
  | .space => if c.underline then underscoreStrikes f m rise index c.position c.width else []
  | .character =>
    (match m.find c.code with
      | some g => characterStrikes f m rise index c.position g c.bold
      | none => [])
    ++ (if c.underline then underscoreStrikes f m rise index c.position c.width else [])

/-- R62: a strike lies wholly on the platen. -/
def Strike.onPlaten (k : Strike) : Bool := k.position + k.width ≤ Config.platenWidth

/-- R61, R62: the strikes of a line that are kept, in cell order, and the number of cells that lost one. -/
def lineStrikes (f : FormatRecord) (m : PetalMap) : Nat → List Cell → List Strike × Nat
  | _, [] => ([], 0)
  | i, c :: rest =>
    let mine := cellStrikes f m 0 i c
    let (others, dropped) := lineStrikes f m (i + 1) rest
    (mine.filter (·.onPlaten) ++ others, if mine.all (·.onPlaten) then dropped else dropped + 1)

/-- R52: the type codes of the missing characters of a line, in cell order. -/
def missingCodes (m : PetalMap) (cells : List Cell) : List Byte :=
  (cells.filter fun c => c.kind == .character && (m.find c.code).isNone).map (·.code)

/-! ### The margin zone and the column indicator (R63, R64) -/

/-- R63: a right edge lies in the margin zone. -/
def inZone (f : FormatRecord) (edge : Nat) : Bool := f.right - f.zone ≤ edge && edge < f.right

/-- R64: the column scale. -/
def columnScale (f : FormatRecord) (m : PetalMap) : Nat :=
  match m.pitch.fixedWidth with
  | some w => w
  | none => (f.spacing.fixedWidth).getD 10

/-- R64: the column indicator of a compose position. -/
def columnOf (f : FormatRecord) (m : PetalMap) (position : Nat) : Nat :=
  min 156 (position / columnScale f m + 1)

end Sys2Proof.Machine
end

