-- ==== Sys2Proof/Machine/Display.lean ====
section
/-! DEFINITION. The Display Unit (chapter 8): the elements and the cursor index, the window, the image, the frames, and
the recomposition made at the end of every step. -/

namespace Sys2Proof.Machine

/-- A display element (R154, R155): a code or blank, whether it is marked and blinks, and the end of its span (used
only while Away). -/
structure Element where
  code : Option Byte
  mark : Bool
  blink : Bool
  stop : Nat
deriving DecidableEq, Repr

/-- The elements and the cursor index (section 8.2). -/
structure Source where
  elements : List Element
  cursor : Nat
deriving DecidableEq, Repr

/-- A suspect names a cell (R157). -/
def Suspect.covers (x : Suspect) (serial : Nat) (cell : Nat) : Bool :=
  x.serial == serial && x.first ≤ cell && cell < x.first + x.count

/-! ### Outside Away (R154) -/

def lineElement (suspects : List Suspect) (serial i : Nat) (c : Cell) : Element where
  code := match c.kind with
    | .character => some c.code
    | _ => none
  mark := c.underline && c.kind != .tab
  blink := suspects.any fun x => x.place == .working && x.covers serial i
  stop := 0

def lineElements (suspects : List Suspect) (serial : Nat) : Nat → List Cell → List Element
  | _, [] => []
  | i, c :: rest => lineElement suspects serial i c :: lineElements suspects serial (i + 1) rest

/-- R154: what the working line shows. -/
def lineSource (s : State) : Source :=
  if s.line.phase = .free then ⟨[], 0⟩
  else ⟨lineElements s.spelling.suspects s.line.serial 0 s.line.cells, s.line.cursor⟩

/-! ### During Away (R155) -/

/-- The record shown while Away: the target of the Lift Back, or the newest record of its serial (log entry 29). -/
def awayRecord (s : State) : Option LineRecord :=
  match s.memory.records.find? (fun r => some r.name == s.lift.target) with
  | some r => some r
  | none => s.memory.records.reverse.find? (·.serial == s.line.serial)

/-- R155: keep, for each position, the newest Main entry, in ascending order of position. -/
def placeMain (e : StrikeEntry) : List StrikeEntry → List StrikeEntry
  | [] => [e]
  | x :: rest =>
    if e.position < x.position then e :: x :: rest
    else if e.position = x.position then e :: rest
    else x :: placeMain e rest

/-- R155: the entries of the entry elements of a record. -/
def mainEntries (r : LineRecord) : List StrikeEntry :=
  (r.entries.filter (·.pass == .main)).foldl (fun acc e => placeMain e acc) []

/-- Two ranges share at least one unit (R102, R155). -/
def overlap (a1 a2 b1 b2 : Nat) : Nat := min a2 b2 - max a1 b1

def entryElement (suspects : List Suspect) (r : LineRecord) (e : StrikeEntry) : Element where
  code := some e.code
  mark := r.entries.any fun u =>
    u.pass == .underscore && 0 < overlap u.position (u.position + u.width) e.position (e.position + e.width)
  blink := suspects.any fun x => x.place == .record && x.covers r.serial e.cell
  stop := e.position + e.width

/-- R155: the entry elements with the blank elements between them. -/
def awayElements (suspects : List Suspect) (r : LineRecord) : List StrikeEntry → List Element
  | [] => []
  | [e] => [entryElement suspects r e]
  | e :: e' :: rest =>
    let here := entryElement suspects r e
    let more := awayElements suspects r (e' :: rest)
    if e.position + e.width < e'.position then
      here :: { code := none, mark := false, blink := false, stop := e'.position } :: more
    else here :: more

/-- R155: what the reopened record shows. -/
def awaySource (s : State) : Source :=
  match awayRecord s with
  | none => ⟨[], 0⟩
  | some r =>
    let elements := awayElements s.spelling.suspects r (mainEntries r)
    ⟨elements, (elements.takeWhile fun x => x.stop ≤ s.composer.position).length⟩

/-- Section 8.2: the elements and the cursor index. -/
def displaySource (s : State) : Source := if s.lift.away then awaySource s else lineSource s

/-! ### Window, overlay, annunciators -/

/-- R156: the window start after its adjustment for a cursor index. R153 gives it the range 0..160, which the `cursor - 35`
of R156 passes for a cursor index above 195, as a record shown while Away can have (R155). R156 is followed without a
bound (DESIGN CHOICE, log entry 77). -/
def adjustWindow (start cursor : Nat) : Nat :=
  if start + 35 < cursor then cursor - 35
  else if cursor < start + 4 then cursor - 4
  else start

/-- R156: display cell k of the window. -/
def windowCell (src : Source) (start k : Nat) : DisplayCell :=
  let cursor := start + k == src.cursor
  match src.elements[start + k]? with
  | some e => { code := e.code, blink := e.blink, mark := e.mark, cursor := cursor }
  | none => { code := none, blink := false, mark := false, cursor := cursor }

/-- R162: an overlay's cell k. -/
def overlayCell (o : Overlay) (k : Nat) : DisplayCell where
  code := match o.text[k]? with
    | some c => if c = 0x20 then none else some c
    | none => none
  blink := false
  mark := false
  cursor := false

/-- R156, R162: the 40 cells. -/
def imageCells (src : Source) (start : Nat) (overlay : Option Overlay) : List DisplayCell :=
  (List.range 40).map fun k =>
    match overlay with
    | some o => if k < 28 then overlayCell o k else windowCell src start k
    | none => windowCell src start k

/-- Lit while a condition holds. -/
def lampWhile (b : Bool) : Lamp := if b then .lit else .out

/-- R160: the annunciators, each lit exactly while the condition of the table holds: so WHEEL goes out as the homing after
Wheel Mounted or Rehome begins, not when it ends (DESIGN CHOICE, log entry 75). -/
def annunciators (s : State) : Annunciators :=
  let free := s.line.phase == .free
  let spelling := if s.line.holder = some .link then s.options.linkSpelling else s.options.spelling
  { line := lampWhile (if free then s.options.entryMode == .line else s.line.mode == .line)
    just := lampWhile (if s.line.holder = some .link then s.format.linkJustify else s.format.consoleJustify)
    spell := if spelling then (if s.store.lexiconAvailable then .lit else .blinking) else .out
    link := lampWhile (s.line.holder == some .link)
    hold := lampWhile (s.line.phase == .held)
    rest := lampWhile (s.engine.state == .resting)
    wheel := lampWhile (s.engine.state == .wheelChange || s.engine.state == .wheelFault)
    away := lampWhile s.lift.away }

/-- R64: the column indicator after a step; it keeps its last value while the petal map is Unloaded (R50). -/
def columnNow (s : State) : Nat :=
  match s.engine.petalMap with
  | some m => columnOf s.format m s.composer.position
  | none => s.display.column

/-- R64: the column indicator is recomputed now, before the map becomes Unloaded (log entry 58). -/
def keepColumn (s : State) : State := { s with display := { s.display with column := columnNow s } }

/-- R153: the image composed from its sources; blank until the start-up ends (R165), a Restart during it included (log
entry 62). -/
def imageNow (s : State) : Image :=
  if s.display.live then
    let src := displaySource s
    { cells := imageCells src (adjustWindow s.display.window src.cursor) s.display.overlay
      lamps := annunciators s
      digits := some (columnNow s) }
  else .blank

/-! ### Frames (R158, R161) -/

/-- R158: what is sent for a type code. -/
def shapeOf (code : Byte) : Shape :=
  if code.toNat ≤ 0x7E then .glyph code
  else match fold code with
    | some c => .glyph c
    | none => .box

/-- R161: a cell as sent, the blink phase applied. -/
def frameCell (blinkOn : Bool) (c : DisplayCell) : FrameCell where
  shape := match c.code with
    | some code => if c.blink && !blinkOn then .blank else shapeOf code
    | none => .blank
  mark := c.mark
  cursor := c.cursor

/-- R160, R161: an annunciator as sent. -/
def Lamp.sent (l : Lamp) (blinkOn : Bool) : Bool :=
  match l with
  | .out => false
  | .lit => true
  | .blinking => blinkOn

/-- The annunciators in the order of R153. -/
def Annunciators.all (a : Annunciators) : List Lamp :=
  [a.line, a.just, a.spell, a.link, a.hold, a.rest, a.wheel, a.away]

/-- R159: the column digits, right-aligned with leading blanks. -/
def digitCells : Option Nat → List (Option Nat)
  | none => [none, none, none]
  | some n =>
    [if 100 ≤ n then some (n / 100) else none, if 10 ≤ n then some (n / 10 % 10) else none, some (n % 10)]

/-- R161: the snapshot of an image. -/
def frameOf (img : Image) (blinkOn : Bool) : Frame where
  cells := img.cells.map (frameCell blinkOn)
  lamps := img.lamps.all.map (·.sent blinkOn)
  digits := digitCells img.digits

/-- R157: some cell or annunciator blinks. -/
def Image.anyBlink (img : Image) : Bool :=
  img.cells.any (·.blink) || img.lamps.all.any (· == .blinking)

/-- R161: the image has changed: a transfer begins, or the dirty flag is set while one is in flight. -/
def Display.change (d : Display) : Display :=
  match d.transfer with
  | some _ => { d with dirty := true }
  | none => { d with transfer := some (frameOf d.image d.blinkOn) }

/-- R153, R156, R161: the Display Unit after a recomposition. -/
def displayNow (s : State) : Display :=
  let img := imageNow s
  let d : Display := { s.display with
    column := columnNow s
    window := adjustWindow s.display.window (displaySource s).cursor
    image := img }
  if img = s.display.image then d else d.change

/-- The recomposition made at the end of every step (log entry 27). -/
def refresh (s : State) : State := { s with display := displayNow s }

end Sys2Proof.Machine
end

