-- ==== Sys2Proof/Machine/Ops.lean ====
section
/-! DEFINITION. The shared operations: ports and their queues (R177 to R181), tones (R166), timers (R27, R83), the Print
Queue's arrivals (R65, R81), and taking a command block (R174, R175). -/

namespace Sys2Proof.Machine

/-! ### Ports -/

def Port.other : Port → Port
  | .console => .link
  | .link => .console

/-- The state of one port. -/
def State.port (s : State) : Port → PortState
  | .console => s.console
  | .link => s.link

/-- The state with one port replaced. -/
def State.setPort (s : State) (p : Port) (v : PortState) : State :=
  match p with
  | .console => { s with console := v }
  | .link => { s with link := v }

/-- R179: the notice kinds that coalesce: all but Line Done, Line Cancelled, Keys Collected and Check Result. -/
def coalesces (kind : Byte) : Bool := kind != 0xA0 && kind != 0xA1 && kind != 0xA7 && kind != 0xA8

/-- R180: the job notices. -/
def isJobNotice (b : Block) : Bool := b.kind == 0xA0 || b.kind == 0xA1

/-- R181: the enable set holds a notice kind. -/
def enabled (set : BitVec 19) (kind : Byte) : Bool := set.getLsbD (kind.toNat - 0xA0)

/-- R179: a queued instance of the kind takes the new data in its place; without one the notice joins at the tail. -/
def coalesceInto (b : Block) : List Block → List Block
  | [] => [b]
  | x :: rest => if x.kind = b.kind then b :: rest else x :: coalesceInto b rest

/-- R180: the queue without its oldest job notice. -/
def dropOldestJobNotice : List Block → List Block
  | [] => []
  | x :: rest => if isJobNotice x then rest else x :: dropOldestJobNotice rest

/-- R180: a job notice joins; a fifth removes the oldest and is counted as lost. -/
def PortState.joinJobNotice (p : PortState) (b : Block) : PortState :=
  let queue := p.queue ++ [b]
  if Config.jobNoticePlaces < (queue.filter isJobNotice).length then
    { p with queue := dropOldestJobNotice queue, lost := min 255 (p.lost + 1) }
  else { p with queue := queue }

/-- R179 to R181: a notice produced for a port. -/
def PortState.notice (p : PortState) (b : Block) : PortState :=
  if !enabled p.enable b.kind then p
  else if coalesces b.kind then { p with queue := coalesceInto b p.queue }
  else if isJobNotice b then p.joinJobNotice b
  else { p with queue := p.queue ++ [b] }

/-- A notice produced for port `p`. -/
def State.notice (s : State) (p : Port) (b : Block) : State := s.setPort p ((s.port p).notice b)

/-- A notice produced for both ports. -/
def State.noticeBoth (s : State) (b : Block) : State := (s.notice .console b).notice .link b

/-- R175: a reply joins the outbound queue; the notice enable set does not concern it. -/
def State.reply (s : State) (p : Port) (code : Byte) (r : Reply) : State :=
  let v := s.port p
  s.setPort p { v with queue := v.queue ++ [r.block code] }

/-! ### Tones (R166) -/

def ToneName.priority : ToneName → Nat
  | .refuse => 3
  | .suspect => 2
  | .bell => 1
  | .done => 0

def ToneName.length : ToneName → Nat
  | .refuse => 15
  | .suspect => 10
  | .bell => 20
  | .done => 5

def ToneUnit.voice (t : ToneUnit) : ToneName → Voice
  | .refuse => t.refuse
  | .suspect => t.suspect
  | .bell => t.bell
  | .done => t.done

/-- R166: a tone request. -/
def ToneUnit.request (t : ToneUnit) (name : ToneName) : ToneUnit :=
  let fresh : Sounding := { tone := name, remaining := name.length, voice := t.voice name }
  match t.sounding with
  | none => { t with sounding := some fresh }
  | some x => if x.tone.priority < name.priority then { t with sounding := some fresh } else t

/-- A tone request from a block. -/
def State.tone (s : State) (name : ToneName) : State := { s with tones := s.tones.request name }

/-! ### Timers -/

/-- R83: the Rest timer from its full length; none for a Rest Delay of 0. -/
def restLength (o : Options) : Option Nat := if o.restDelay = 0 then none else some (o.restDelay * 6000)

/-- R83: a command taken restarts the Rest timer while the engine is Ready. -/
def restartRest (s : State) : State :=
  if s.engine.state = .ready then { s with restTimer := restLength s.options } else s

/-- The ring of a port. -/
def Composer.ring (c : Composer) : Port → List Stroke
  | .console => c.consoleRing
  | .link => c.linkRing

/-- The composer with a port's ring replaced. -/
def Composer.setRing (c : Composer) (p : Port) (ring : List Stroke) : Composer :=
  match p with
  | .console => { c with consoleRing := ring }
  | .link => { c with linkRing := ring }

/-- R21: the capacity of a port's ring. -/
def Partition.ring (q : Partition) : Port → Nat
  | .console => q.consoleRing
  | .link => q.linkRing

/-- R27: the hold limit timer runs. -/
def holdRuns (s : State) : Bool :=
  (s.line.phase == .composing || s.line.phase == .held) && !s.lift.away
    && (match s.line.holder with
      | some p => !(s.composer.ring (Port.other p)).isEmpty
      | none => false)

/-- R27: the hold limit timer after a step: it starts from full when it begins to run, and stops when it ceases to. -/
def holdNow (s : State) : Option Nat :=
  if holdRuns s then
    (match s.holdTimer with
      | some n => some n
      | none => some (s.options.holdLimit * 100))
  else none

/-- The end of a step: the hold limit timer follows its conditions and the image its sources. -/
def finish (s : State) : State := refresh { s with holdTimer := holdNow s }

/-! ### The Print Queue's arrivals -/

/-- A job with nothing in it yet. -/
def Job.empty (kind : JobKind) (source : Port) : Job where
  kind := kind
  source := source
  serial := none
  orders := []
  next := 0
  struck := 0
  dropped := 0
  lineEnding := false
  started := false
  cancelled := false
  relocate := false
  correction := none

/-- R81: the start of a wheel homing. -/
def startWheelHoming (wake : Bool) (s : State) : State :=
  { s with
    engine := { s.engine with
      state := .homing
      homing := some { full := false, wake := wake, stage := .wheel }
      homingLimit := some Config.homingLimit }
    restTimer := none }

/-- R65, R81, R84: a job joins the queue at its tail; in Resting its arrival starts a wheel homing. -/
def appendJob (j : Job) (s : State) : State :=
  let s1 := { s with engine := { s.engine with queue := s.engine.queue ++ [j] } }
  if s.engine.state = .resting then startWheelHoming true s1 else s1

/-- R79: the start of a full homing: whatever motion there was has stopped. -/
def startFullHoming (s : State) : State :=
  { s with
    engine := { s.engine with
      state := .homing
      homing := some { full := true, wake := false, stage := .carrier }
      homingLimit := some Config.homingLimit
      petalMap := none
      wheelMove := none
      carrierMove := none
      hammer := .idle
      tapeGuide := .down
      platenMove := none }
    restTimer := none }

/-- The Print Queue has room for one job (R65). -/
def Engine.room (e : Engine) : Bool := e.queue.length < Config.queueJobs

/-! ### Taking a command block (R172 to R176) -/

/-- R172, R174: the assembly ends and the port has a command in hand. -/
def takeInHand (p : Port) (s : State) : State :=
  let v := s.port p
  s.setPort p { v with assembly := [], gap := none, inHand := true }

/-- R172, R173: a block refused by the port itself, with Framing or Gap. -/
def refuseBlock (p : Port) (code : Byte) (st : Status) (s : State) : State :=
  (takeInHand p s).reply p code (.plain st)

/-- R174: the checks of a complete block, in order; none when it passes. -/
def checkBlock (p : Port) (code : Byte) (count : Nat) : Option Status :=
  match codeRow code with
  | none => some .unknown
  | some r =>
    if !r.permits p then some .notPermitted
    else if count < r.least || r.most < count then some .length
    else none

/-- R174, R175: a complete block: it counts as taken for the Rest timer, is checked, and is handed to its owner, whose
notices join the queue before its reply. -/
def takeBlock (p : Port) (code : Byte) (count : Nat) (owner : State → State × Reply) (s : State) : State :=
  let s1 := restartRest (takeInHand p s)
  match checkBlock p code count with
  | some st => finish (s1.reply p code (.plain st))
  | none => finish ((owner s1).1.reply p code (owner s1).2)

/-- R171: a byte written with InFree 0 is lost. -/
def loseByte (p : Port) (s : State) : State :=
  let v := s.port p
  s.setPort p { v with overrun := true }

/-- A whole block written to a port at once (log entry 4): ignored while the reset input is asserted (R170), lost while
a command is in hand (R171), refused with Framing for a count above 30 (R172), and otherwise complete. -/
def offer (p : Port) (code : Byte) (count : Nat) (owner : State → State × Reply) (s : State) : State :=
  if (s.port p).resetAsserted then s
  else if (s.port p).inHand then loseByte p s
  else if Config.blockData < count then finish (refuseBlock p code .framing s)
  else takeBlock p code count owner s

end Sys2Proof.Machine
end

