-- ==== Sys2Proof/Machine/Memory.lean ====
section
/-! DEFINITION. Correction Memory (chapter 5): records and the entry pool, where a strike is recorded, the words on the
paper, and Reopen and Restore. -/

namespace Sys2Proof.Machine

/-! ### Records and the pool -/

/-- A held record by its name. -/
def CorrectionMemory.record (m : CorrectionMemory) (name : Nat) : Option LineRecord :=
  m.records.find? (·.name == name)

/-- R94: the entries held in all records together. -/
def CorrectionMemory.held (m : CorrectionMemory) : Nat := (m.records.map (·.entries.length)).sum

/-- R94: the pool's free count. -/
def State.freeEntries (s : State) : Nat := s.partition.pool - s.memory.held

/-- Replace a held record by a function of it. -/
def CorrectionMemory.update (m : CorrectionMemory) (name : Nat) (g : LineRecord → LineRecord) : CorrectionMemory :=
  { m with records := m.records.map fun r => if r.name = name then g r else r }

/-- A reference to a record that is dropped becomes absent (R92). -/
def forget (name : Nat) (ref : Option Nat) : Option Nat := if ref = some name then none else ref

/-- R98: a record is removed, its references become absent, and the Spelling Unit withdraws the suspects of place Record
of its serial (R141). -/
def dropRecord (name : Nat) (s : State) : State :=
  match s.memory.record name with
  | none => s
  | some r =>
    { s with
      memory := { s.memory with
        records := s.memory.records.filter (·.name != name)
        openRecord := forget name s.memory.openRecord
        resumeRecord := forget name s.memory.resumeRecord
        returnRecord := forget name s.memory.returnRecord }
      spelling := { s.spelling with
        suspects := s.spelling.suspects.filter fun x => !(x.place == .record && x.serial == r.serial) } }

/-- R99: the oldest closed record. -/
def CorrectionMemory.oldestClosed (m : CorrectionMemory) : Option LineRecord :=
  m.records.find? fun r => some r.name != m.openRecord

/-- R99: drop closed records, oldest first, until an entry is free or none remains; `fuel` is the number of records. -/
def makeRoom : Nat → State → State
  | 0, s => s
  | fuel + 1, s =>
    if 0 < s.freeEntries then s
    else match s.memory.oldestClosed with
      | none => s
      | some r => makeRoom fuel (dropRecord r.name s)

/-- R108, R120: Correction Memory is emptied, and with it the Relocate Point is cleared. -/
def emptyMemory (s : State) : State :=
  let s1 := s.memory.records.foldl (fun t r => dropRecord r.name t) s
  { s1 with
    memory := { s1.memory with records := [], openRecord := none, resumeRecord := none, returnRecord := none }
    lift := { s1.lift with point := none } }

/-! ### Where a strike is recorded (R95 to R97) -/

/-- R97: a new record opens; the oldest is dropped when eight are held. -/
def openNewRecord (serial : Nat) (source : Port) (baseline : Int) (s : State) : State :=
  let s1 :=
    if s.memory.records.length < Config.memoryRecords then s
    else match s.memory.records with
      | r :: _ => dropRecord r.name s
      | [] => s
  { s1 with memory := { s1.memory with
      records := s1.memory.records ++
        [{ name := s1.memory.nextRecord, serial := serial, source := source, vertical := baseline,
           unrecorded := none, entries := [] }]
      openRecord := some s1.memory.nextRecord
      resumeRecord := none
      nextRecord := s1.memory.nextRecord + 1 } }

/-- A reference names a held record of this serial and baseline. -/
def CorrectionMemory.fits (m : CorrectionMemory) (ref : Option Nat) (serial : Nat) (baseline : Int) : Bool :=
  match ref with
  | none => false
  | some name =>
    match m.record name with
    | some r => r.serial == serial && r.vertical == baseline
    | none => false

/-- R95: the record a strike goes to is made the open record. -/
def placeStrike (serial : Nat) (source : Port) (baseline : Int) (s : State) : State :=
  let m := s.memory
  if m.fits m.openRecord serial baseline then s
  else if m.fits m.resumeRecord serial baseline then
    { s with memory := { m with openRecord := m.resumeRecord, resumeRecord := none } }
  else openNewRecord serial source baseline { s with memory := { m with openRecord := none } }

/-- R100: a range widened by a strike's extent. -/
def widen (range : Option (Nat × Nat)) (a b : Nat) : Option (Nat × Nat) :=
  match range with
  | none => some (a, b)
  | some (x, y) => some (min x a, max y b)

/-- R95, R99, R100: a strike is recorded in the open record, or is left unrecorded there when no entry is free. -/
def recordStrike (serial : Nat) (source : Port) (platen : Int) (e : StrikeEntry) (s : State) : State :=
  let s1 := placeStrike serial source (platen + e.rise) s
  let s2 := makeRoom s1.memory.records.length s1
  match s2.memory.openRecord with
  | none => s2
  | some name =>
    if 0 < s2.freeEntries then
      let m := s2.memory.update name fun r =>
        { r with entries := r.entries ++ [{ e with name := s2.memory.nextEntry }] }
      { s2 with memory := { m with nextEntry := m.nextEntry + 1 } }
    else
      { s2 with memory := s2.memory.update name fun r =>
          { r with unrecorded := widen r.unrecorded e.position (e.position + e.width) } }

/-- R96: a completed Feed closes the open record, which becomes the resume record. -/
def closeByFeed (s : State) : State :=
  match s.memory.openRecord with
  | none => s
  | some name => { s with memory := { s.memory with openRecord := none, resumeRecord := some name } }

/-- R105: an entry is removed from its record. -/
def removeEntry (record entry : Nat) (s : State) : State :=
  { s with memory := s.memory.update record fun r => { r with entries := r.entries.filter (·.name != entry) } }

/-! ### Words on the paper (R101 to R104) -/

/-- A word of a record: its visible and Underscore entries and its extent (R101, R102). -/
structure PaperWord where
  entries : List StrikeEntry
  left : Nat
  right : Nat
deriving DecidableEq, Repr

/-- R101: the visible entries. -/
def LineRecord.visible (r : LineRecord) : List StrikeEntry := r.entries.filter (·.pass != .underscore)

/-- Insertion by position, at equal position after what is already there (strike order). -/
def insertByPosition (e : StrikeEntry) : List StrikeEntry → List StrikeEntry
  | [] => [e]
  | x :: rest => if e.position < x.position then e :: x :: rest else x :: insertByPosition e rest

/-- R101: in order of position, at equal position in strike order. -/
def sortByPosition (entries : List StrikeEntry) : List StrikeEntry :=
  entries.foldl (fun acc e => insertByPosition e acc) []

/-- R101: the words of sorted visible entries, left to right; `w` is the current word. -/
def groupWords (w : Option PaperWord) : List StrikeEntry → List PaperWord
  | [] => w.toList
  | e :: rest =>
    match w with
    | none => groupWords (some ⟨[e], e.position, e.position + e.width⟩) rest
    | some c =>
      if e.position ≤ c.right then
        groupWords (some ⟨c.entries ++ [e], c.left, max c.right (e.position + e.width)⟩) rest
      else c :: groupWords (some ⟨[e], e.position, e.position + e.width⟩) rest

/-- R101: the words by their visible entries. -/
def LineRecord.visibleWords (r : LineRecord) : List PaperWord := groupWords none (sortByPosition r.visible)

/-- R102: the word an underscore belongs to: the one it overlaps most, the further left on a tie. -/
def wordOfUnderscore (words : List PaperWord) (u : StrikeEntry) : Option PaperWord :=
  words.foldl (fun best w =>
    let here := overlap u.position (u.position + u.width) w.left w.right
    let there := match best with
      | some b => overlap u.position (u.position + u.width) b.left b.right
      | none => 0
    if there < here then some w else best) none

/-- R102, R103: the words of a record with their underscores. -/
def LineRecord.words (r : LineRecord) : List PaperWord :=
  let words := r.visibleWords
  words.map fun w =>
    { w with entries := w.entries ++ r.entries.filter fun e =>
        e.pass == .underscore && (wordOfUnderscore words e).map (·.left) == some w.left }

/-- R103: the word at a position. -/
def LineRecord.wordAt (r : LineRecord) (x : Nat) : Option PaperWord :=
  r.words.find? fun w => w.left ≤ x && x < w.right

/-- R103: the word of a visible entry. -/
def LineRecord.wordOf (r : LineRecord) (e : StrikeEntry) : Option PaperWord :=
  r.words.find? (·.entries.contains e)

/-- R100: a word overlaps or touches the unrecorded range. -/
def LineRecord.incompleteWord (r : LineRecord) (w : PaperWord) : Bool :=
  match r.unrecorded with
  | none => false
  | some (a, b) => w.left ≤ b && a ≤ w.right

/-- R103: the current record: the open record, failing that the resume record. -/
def CorrectionMemory.current (m : CorrectionMemory) : Option LineRecord :=
  match m.openRecord with
  | some name => m.record name
  | none =>
    match m.resumeRecord with
    | some name => m.record name
    | none => none

/-- R103: the record n back from the current record, or from the newest when there is none. -/
def CorrectionMemory.back (m : CorrectionMemory) (n : Nat) : Option LineRecord :=
  let newestFirst := m.records.reverse
  match m.current with
  | some c =>
    match newestFirst.findIdx? (·.name == c.name) with
    | some i => newestFirst[i + n]?
    | none => none
  | none => newestFirst[n]?

/-- R104: the entries of a cell of a line, in age order of the records and strike order within each; none when no record
of the serial is held, which is not an empty list. -/
def CorrectionMemory.entriesOf (m : CorrectionMemory) (serial cell : Nat) : Option (List StrikeEntry) :=
  match m.records.filter (·.serial == serial) with
  | [] => none
  | held => some (held.flatMap fun r => r.entries.filter (·.cell == cell))

/-- R140: a record of the serial is held and some of the cells maps to an entry (R104). -/
def CorrectionMemory.onPaper (m : CorrectionMemory) (serial first count : Nat) : Bool :=
  (List.range count).any fun i =>
    match m.entriesOf serial (first + i) with
    | some entries => !entries.isEmpty
    | none => false

/-! ### Reopen and Restore (R106, R107) -/

/-- R106: the target of a Lift Back becomes the open record, if it is still held. -/
def reopen (name : Nat) (s : State) : State :=
  match s.memory.record name with
  | none => s
  | some _ =>
    { s with memory := { s.memory with
        openRecord := some name
        returnRecord := match s.memory.openRecord with
          | some o => some o
          | none => s.memory.resumeRecord
        resumeRecord := none } }

/-- R107: the return record becomes the open record, if it is still held. -/
def restore (s : State) : State :=
  { s with memory := { s.memory with
      openRecord := s.memory.returnRecord
      returnRecord := none
      resumeRecord := none } }

end Sys2Proof.Machine
end

