-- ==== Sys2Proof/Machine/Spelling.lean ====
section
/-! DEFINITION. The Spelling Unit (chapter 7): words and the word list, the spell queue, the probe and its result,
suspects, hyphen fragments, Spell Hold, the user word list and queries. -/

namespace Sys2Proof.Machine

/-! ### Words of a line (R128) -/

/-- R128: a boundary cell. -/
def Cell.boundary (c : Cell) : Bool := c.kind != .character || c.code == hyphen

/-- A token's cells [start, stop), and whether a boundary cell stands after it (R128). -/
structure Token where
  start : Nat
  stop : Nat
  complete : Bool
deriving DecidableEq, Repr

/-- R128: the tokens of a line from cell i on; `cur` is where the current token starts. -/
def tokensFrom : Nat → Option Nat → List Cell → List Token
  | _, none, [] => []
  | i, some a, [] => [⟨a, i, false⟩]
  | i, cur, c :: rest =>
    if c.boundary then
      (match cur with
        | some a => ⟨a, i, true⟩ :: tokensFrom (i + 1) none rest
        | none => tokensFrom (i + 1) none rest)
    else tokensFrom (i + 1) (some (cur.getD i)) rest

/-- A word of a line: its cells and whether its token is complete. -/
structure RawWord where
  first : Nat
  count : Nat
  complete : Bool
deriving DecidableEq, Repr

/-- The type codes of cells [first, first + count). -/
def codesOf (cells : List Cell) (first count : Nat) : List Byte := ((cells.drop first).take count).map (·.code)

/-- R128: a token trimmed to its word, if a letter is left. -/
def Token.trim (cells : List Cell) (t : Token) : Option RawWord :=
  let codes := codesOf cells t.start (t.stop - t.start)
  let lead := (codes.takeWhile fun c => !isLetter c).length
  let tail := (codes.reverse.takeWhile fun c => !isLetter c).length
  if lead = codes.length then none
  else some ⟨t.start + lead, codes.length - lead - tail, t.complete⟩

/-- R128: the words of a line, left to right. -/
def wordsOf (cells : List Cell) : List RawWord := (tokensFrom 0 none cells).filterMap (·.trim cells)

/-- R128: a word of these codes is Skipped. -/
def skippedWord (codes : List Byte) : Bool := codes.length ≤ 1 || !codes.all isWordCode

/-- R129, R144: the record a word is made with; `f` is the fragment joined to the line's first word. -/
def makeRecord (line : WorkingLine) (w : RawWord) : WordRecord :=
  let codes := codesOf line.cells w.first w.count
  let fragment := if w.first = 0 then line.joined else none
  let letters := (match fragment with | some f => f.letters | none => []) ++ codes
  let skipped := line.unmapped || skippedWord codes
  let long := 24 < letters.length
  { first := w.first
    count := w.count
    upper := firstUpper letters
    status := if skipped then .skipped else .unchecked
    cause := if !skipped && long then some .long else none
    generation := line.generation
    joined := fragment.isSome }

/-- R133, R144: the letters of a word for hashing and checking. -/
def WorkingLine.letters (line : WorkingLine) (w : WordRecord) : List Byte :=
  let codes := codesOf line.cells w.first w.count
  match w.joined, line.joined with
  | true, some f => f.letters ++ codes
  | _, _ => codes

/-! ### Settings and the lexicon -/

/-- R132: the spelling setting of a port. -/
def Options.spellingOf (o : Options) : Port → Bool
  | .console => o.spelling
  | .link => o.linkSpelling

/-- R129, R132: the working line has a word list: its holder's setting is on and the Lift Unit is not Away. -/
def wordListKept (s : State) : Bool :=
  match s.line.holder with
  | some p => s.options.spellingOf p && !s.lift.away
  | none => false

/-- R135, step 1: the user word list makes a word Good. -/
def userGood (users : List UserWord) (letters : List Byte) : Bool :=
  users.any fun u =>
    u.fingerprint == fingerprint letters && u.length == letters.length && (!u.capital || firstUpper letters)

/-! ### The working line's records -/

/-- Replace the records of a first cell. -/
def setWord (first : Nat) (g : WordRecord → WordRecord) (s : State) : State :=
  { s with line := { s.line with words := s.line.words.map fun w => if w.first = first then g w else w } }

/-- R129: settled. -/
def WordRecord.settled (w : WordRecord) : Bool :=
  match w.status with
  | .good => true
  | .suspect => true
  | .skipped => true
  | .unchecked => w.cause.isSome
  | .queued => false

/-! ### The spell queue (R136) -/

/-- R136: a fresh entry for these letters. -/
def spellEntry (buckets : Nat) (letters : List Byte) : SpellEntry where
  origin := .query
  serial := 0
  first := 0
  count := 0
  continued := false
  generation := 0
  letters := letters
  length := letters.length
  primary := primaryValue letters
  fingerprint := fingerprint letters
  tag := 0
  bucket := primaryValue letters % buckets
  probes := 0
  stale := false
  inFlight := false

/-- R136: an entry joins the queue. -/
def joinSpellQueue (e : SpellEntry) (s : State) : State :=
  { s with spelling := { s.spelling with queue := s.spelling.queue ++ [e] } }

/-- R136: the queue has room. -/
def Spelling.room (u : Spelling) : Bool := u.queue.length < Config.spellEntries

/-- R130, R135, R138: the attempt to start the lookup of a word that is Unchecked without a cause. -/
def attemptWord (first : Nat) (s : State) : State :=
  match s.line.holder, s.line.words.find? (·.first == first) with
  | some p, some w =>
    if w.status = .unchecked && w.cause.isNone then
      let letters := s.line.letters w
      if userGood s.spelling.userWords letters then setWord first (fun r => { r with status := .good }) s
      else if !s.spelling.room then s
      else if !s.store.lexiconAvailable then setWord first (fun r => { r with cause := some .unavailable }) s
      else
        setWord first (fun r => { r with status := .queued })
          (joinSpellQueue { spellEntry s.store.buckets letters with
            origin := .line p, serial := s.line.serial, first := w.first, count := w.count,
            continued := w.joined, generation := w.generation } s)
    else s
  | _, _ => s

/-- The attempt for each of these words, in the order given: that of the first cells at every moment of R130, which R145
states for a line in Checking only (DESIGN CHOICE, log entry 70). -/
def attemptWords (firsts : List Nat) (s : State) : State := firsts.foldl (fun t f => attemptWord f t) s

/-- R131, R132, R141: an entry in flight is marked stale, any other is removed. -/
def discardLookups (gone : SpellEntry → Bool) (queue : List SpellEntry) : List SpellEntry :=
  queue.filterMap fun e =>
    if gone e then (if e.inFlight then some { e with stale := true } else none) else some e

/-- The lookups of a line of this serial. -/
def ofLine (serial : Nat) (e : SpellEntry) : Bool := e.origin != .query && e.serial == serial

/-- R131 steps 1 and 2, R132, R141: the line's lookups go and its Working suspects are withdrawn. -/
def dropLineSpelling (serial : Nat) (s : State) : State :=
  { s with spelling := { s.spelling with
      queue := discardLookups (ofLine serial) s.spelling.queue
      suspects := s.spelling.suspects.filter (·.place != .working) } }

/-! ### Fragments (R143, R144) -/

def Spelling.fragment (u : Spelling) : Port → Option Fragment
  | .console => u.consoleFragment
  | .link => u.linkFragment

def setFragment (p : Port) (f : Option Fragment) (s : State) : State :=
  match p with
  | .console => { s with spelling := { s.spelling with consoleFragment := f } }
  | .link => { s with spelling := { s.spelling with linkFragment := f } }

/-- R144: a fragment is checked alone, as a word of its own line, and queued at once; it has no record to wait in
(log entry 25). -/
def checkAlone (p : Port) (f : Fragment) (s : State) : State :=
  if s.options.spellingOf p && f.letters.length ≤ 24 && !userGood s.spelling.userWords f.letters
      && s.spelling.room && s.store.lexiconAvailable then
    joinSpellQueue { spellEntry s.store.buckets f.letters with
      origin := .line p, serial := f.serial, first := f.first, count := f.count } s
  else s

/-- R144: the joined fragment is checked alone when cell 0 begins no word; `edited` when an edit made the change. The result
of the joined word does not end the join: the fragment stays with the line until this, a discard or the line's end
(DESIGN CHOICE, log entry 74). -/
def checkJoined (edited : Bool) (s : State) : State :=
  match s.line.holder, s.line.joined with
  | some p, some f =>
    if wordListKept s && (edited || !s.line.cells.isEmpty) && !s.line.words.any (·.first == 0) then
      checkAlone p f { s with line := { s.line with joined := none } }
    else s
  | _, _ => s

/-- R144: the line is discarded: a joined fragment whose first word is not settled is checked alone. Called where a line
goes without its end: Release Line, a Cancel Printing or Fault release, and Lift Back; a line that ends by Return or is
converted takes its fragment with it (DESIGN CHOICE, log entry 66). -/
def releaseJoined (s : State) : State :=
  match s.line.holder, s.line.joined with
  | some p, some f =>
    if s.line.words.any fun w => w.first == 0 && w.settled then s
    else checkAlone p f { s with line := { s.line with joined := none } }
  | _, _ => s

/-- R144: at a claim by port `p` its own fragment is joined to the new line, and the other port's is checked alone. -/
def resolveFragments (p : Port) (s : State) : State :=
  let q := Port.other p
  let s1 := match s.spelling.fragment q with
    | some f => checkAlone q f (setFragment q none s)
    | none => s
  match s1.spelling.fragment p with
  | some f => setFragment p none { s1 with line := { s1.line with joined := some f } }
  | none => s1

/-! ### Changes of the line (R129 to R131) -/

/-- R129: the word list of the cells as they stand, every record fresh. -/
def freshRecords (s : State) : List WordRecord :=
  if wordListKept s then (wordsOf s.line.cells).map (makeRecord s.line) else []

/-- R128, R131 step 4: the first cells of the complete words: those with a boundary cell after their token, and from line
end on the last one too (log entry 22). -/
def completeFirsts (s : State) : List Nat :=
  ((wordsOf s.line.cells).filter fun w =>
    w.complete || s.line.phase == .checking || s.line.phase == .waiting || s.line.phase == .held).map (·.first)

/-- R131 steps 3 and 4: the list is rebuilt and the complete words are queued. A joined fragment that is to be checked alone
(R144) joins the spell queue ahead of them (DESIGN CHOICE, log entry 73). -/
def rebuildWords (edited : Bool) (s : State) : State :=
  let s1 := checkJoined edited { s with line := { s.line with words := freshRecords s } }
  attemptWords (completeFirsts s1) s1

/-- R131: what the Spelling Unit does at an edit. Room that step 1 makes in the spell queue goes to the rebuilt line's
words first, and to waiting queries after them (DESIGN CHOICE, log entry 63). -/
def editSpelling (s : State) : State := rebuildWords true (dropLineSpelling s.line.serial s)

/-- R131: the line becomes unmapped: steps 1 and 2, and every word Skipped. -/
def unmapLine (s : State) : State :=
  let s1 := dropLineSpelling s.line.serial { s with line := { s.line with unmapped := true } }
  checkJoined true { s1 with line := { s1.line with words := freshRecords s1 } }

/-- R129: a fresh record keeps what was found of the same word before the cells grew at the end. -/
def keepOld (old : List WordRecord) (w : WordRecord) : WordRecord :=
  match old.find? fun o => o.first == w.first && o.count == w.count && o.joined == w.joined with
  | some o => o
  | none => w

/-- R130: the words whose token the boundary cell just added at the end completes. -/
def justCompleted (cells : List Cell) : List Nat :=
  let last := cells.length - 1
  match cells.getLast? with
  | some c =>
    if c.boundary then
      ((tokensFrom 0 none cells).filter fun t => t.complete && t.stop == last).filterMap fun t =>
        (t.trim cells).map (·.first)
    else []
  | none => []

/-- R129, R130: a cell has been added at the end of the line. -/
def extendSpelling (s : State) : State :=
  let s1 := { s with line := { s.line with words := (freshRecords s).map (keepOld s.line.words) } }
  let s2 := checkJoined false s1
  attemptWords (justCompleted s2.line.cells) s2

/-- R129: the cells have been cut at a wrap: the records of words that are still whole stay, and the lookups of the others
run on (log entry 23). -/
def cutWords (s : State) : State :=
  { s with line := { s.line with
      words := s.line.words.filter fun w => w.first + w.count ≤ s.line.cells.length } }

/-! ### Line end (R130, R143) -/

/-- R143: the word that a closing hyphen leaves as a fragment: a checkable or Long word directly before it. Its letters
are those of its own cells, with a fragment joined to it or not (log entry 55). -/
def closingFragment (line : WorkingLine) : Option Fragment :=
  match line.cells.getLast? with
  | some c =>
    if c.kind == .character && c.code == hyphen then
      match line.words.find? fun w => w.first + w.count + 1 == line.cells.length with
      | some w =>
        if skippedWord (codesOf line.cells w.first w.count) || line.unmapped then none
        else some { serial := line.serial, first := w.first, count := w.count,
                    letters := codesOf line.cells w.first w.count }
      | none => none
    else none
  | none => none

/-- R143: a fragment that an earlier end of this same line left is not kept (log entry 24). -/
def dropOwnFragment (p : Port) (s : State) : State :=
  match s.spelling.fragment p with
  | some f => if f.serial = s.line.serial then setFragment p none s else s
  | none => s

/-- R130, R143: line end. A line ended by Return may leave a fragment, which is not queued; every other word that is
Unchecked without a cause is tried. -/
def lineEndSpelling (byReturn : Bool) (s0 : State) : State :=
  match s0.line.holder with
  | none => s0
  | some p =>
    let s := dropOwnFragment p s0
    if wordListKept s then
      match (if byReturn then closingFragment s.line else none) with
      | some f => attemptWords ((s.line.words.map (·.first)).filter (· != f.first)) (setFragment p (some f) s)
      | none => attemptWords (s.line.words.map (·.first)) s
    else s

/-! ### Suspects (R139, R140) -/

/-- The word an entry names (R139). -/
def Suspect.sameWord (x y : Suspect) : Bool := x.serial == y.serial && x.place == y.place && x.first == y.first

/-- R139, R140: an entry joins a list of suspects at its newest end; the oldest is dropped when 16 are held. -/
def addSuspect (x : Suspect) (list : List Suspect) : List Suspect :=
  let others := list.filter fun y => !x.sameWord y
  (if others.length < Config.suspectEntries then others else others.drop 1) ++ [x]

/-- R140: a suspect of a printed line goes to the suspect list with place Record when it is on the paper. -/
def placeOnPaper (x : Suspect) (s : State) : State :=
  if s.memory.onPaper x.serial x.first x.count then
    { s with spelling := { s.spelling with
        suspects := addSuspect { x with place := .record } s.spelling.suspects } }
  else s

/-- R140: at conversion or release the serial joins the printing set and the Working suspects the print-wait list. -/
def startPrinting (serial : Nat) (s : State) : State :=
  { s with spelling := { s.spelling with
      printing := s.spelling.printing.filter (· != serial) ++ [serial]
      printWait := (s.spelling.suspects.filter (·.place == .working)).foldl (fun list x => addSuspect x list)
        s.spelling.printWait
      suspects := s.spelling.suspects.filter (·.place != .working) } }

/-- R140: at the first Line Done or Line Cancelled of a printing serial its print-wait entries are examined. -/
def examinePrinting (serial : Nat) (s : State) : State :=
  if s.spelling.printing.contains serial then
    let mine := s.spelling.printWait.filter (·.serial == serial)
    let s1 := { s with spelling := { s.spelling with
      printing := s.spelling.printing.filter (· != serial)
      printWait := s.spelling.printWait.filter (·.serial != serial) } }
    mine.foldl (fun t x => placeOnPaper x t) s1
  else s

/-- R139, R140: a Suspect result of a line word that has been decided. While Away the serial of the reopened line is that
of a printed line (log entry 30). -/
def suspectResult (p : Port) (e : SpellEntry) (s : State) : State :=
  let x : Suspect :=
    { serial := e.serial, place := .working, first := e.first, count := e.count, letters := e.letters,
      fingerprint := e.fingerprint, length := e.length, continued := e.continued }
  let s1 := (s.tone .suspect).notice p (Notice.suspectFound e.serial e.first e.count e.letters)
  if s.line.phase != .free && s.line.serial == e.serial && !s.lift.away then
    { s1 with spelling := { s1.spelling with suspects := addSuspect x s1.spelling.suspects } }
  else if s.spelling.printing.contains e.serial then
    { s1 with spelling := { s1.spelling with printWait := addSuspect x s1.spelling.printWait } }
  else placeOnPaper x s1

/-! ### Results (R134, R135, R137) -/

/-- A bucket slot (section 9.8). -/
structure Slot where
  fingerprint : Nat
  length : Nat
  capital : Bool
  continued : Bool
deriving DecidableEq, Repr

/-- The slots of the bytes of a bucket read, in probe order. -/
def slotsOf : List Byte → List Slot
  | a :: b :: c :: d :: rest =>
    { fingerprint := number [a, b, c], length := d.toNat % 32, capital := d.getLsbD 5, continued := d.getLsbD 6 }
      :: slotsOf rest
  | _ => []

/-- What a probe comes to (R134): Found with its Capital flag, NotFound, or full. -/
inductive Probe where
  | found (capital : Bool)
  | notFound
  | full
deriving DecidableEq, Repr

/-- R134: the slots examined in probe order. -/
def probeSlots (f l : Nat) : List Slot → Probe
  | [] => .full
  | x :: rest =>
    if x.fingerprint = f && x.length = l then .found x.capital
    else if x.fingerprint = 0 then .notFound
    else probeSlots f l rest

/-- R17, R134: the slot a probe starts from: the first slot in the first bucket, slot 0 later. -/
def SpellEntry.firstSlot (e : SpellEntry) : Nat := if e.probes = 0 then e.fingerprint % 8 else 0

/-- R134: the Continued flag of slot 0, wherever it fell in the probe order. -/
def continuedFlag (e : SpellEntry) (slots : List Slot) : Bool :=
  ((slots[(8 - e.firstSlot) % 8]?).map (·.continued)).getD false

/-- What a bucket read decides for an entry (R134, R135). -/
inductive Verdict where
  | good
  | suspect
  | goOn
deriving DecidableEq, Repr

def verdict (e : SpellEntry) (bytes : List Byte) : Verdict :=
  let slots := slotsOf bytes
  match probeSlots e.fingerprint e.length slots with
  | .found capital => if !capital || firstUpper e.letters then .good else .suspect
  | .notFound => .suspect
  | .full => if continuedFlag e slots && e.probes + 1 < Config.probeLimit then .goOn else .suspect

/-- R151: a query's Check Result goes to the link and the query is outstanding no more. -/
def answerQuery (tag result : Nat) (s : State) : State :=
  let s1 := { s with spelling := { s.spelling with queries := s.spelling.queries.eraseP (·.tag == tag) } }
  s1.notice .link (Notice.checkResult tag result)

/-- R137: the word record of an entry, when the working line has it, takes the result. -/
def recordResult (e : SpellEntry) (good : Bool) (s : State) : State :=
  if s.line.phase != .free && s.line.serial == e.serial && !s.lift.away then
    { s with line := { s.line with words := s.line.words.map fun w =>
        if w.first == e.first && w.generation == e.generation then
          { w with status := if good then .good else .suspect }
        else w } }
  else s

/-- R137, R139: a decided result is delivered by origin. A Suspect result of a line word is one with a record or without
(at a Wrap its record may have gone with the carry: log entry 23). -/
def deliver (e : SpellEntry) (good : Bool) (s : State) : State :=
  match e.origin with
  | .query => answerQuery e.tag (if good then 0 else 1) s
  | .line p =>
    let s1 := recordResult e good s
    if good then s1 else suspectResult p e s1

/-- R137: the read of the entry in flight has ended with these bytes. A word that has joined the user word list since it
was queued is found there (R148; for a query log entry 59). -/
def lookupRead (bytes : List Byte) (s : State) : State :=
  match s.spelling.queue.find? (·.inFlight) with
  | none => s
  | some e =>
    let without := { s with spelling := { s.spelling with queue := s.spelling.queue.filter (!·.inFlight) } }
    if e.stale then without
    else match verdict e bytes with
      | .good => deliver e true without
      | .suspect => deliver e (userGood s.spelling.userWords e.letters) without
      | .goOn =>
        { s with spelling := { s.spelling with queue := s.spelling.queue.map fun x =>
            if x.inFlight then
              { x with inFlight := false, probes := x.probes + 1, bucket := (x.bucket + 1) % s.store.buckets }
            else x } }

/-- R138: the lexicon has become unavailable: every entry leaves the queue, and the queries that wait are answered after
those in it (log entry 37). -/
def lexiconLost (s : State) : State :=
  let s1 := s.spelling.queue.foldl (fun t e =>
    if e.stale then t
    else match e.origin with
      | .query => answerQuery e.tag 2 t
      | .line _ =>
        if t.line.serial == e.serial then
          { t with line := { t.line with words := t.line.words.map fun w =>
              if w.first == e.first && w.generation == e.generation && w.status == .queued then
                { w with status := .unchecked, cause := some .unavailable }
              else w } }
        else t) { s with spelling := { s.spelling with queue := [] } }
  s1.spelling.queries.foldl (fun t q => answerQuery q.tag 2 t) s1

/-! ### Spell Hold (R145, R146) -/

/-- R143, R145: the words a line in Checking waits for: all but the fragment it has left. -/
def awaitedWords (s : State) : List WordRecord :=
  s.line.words.filter fun w =>
    match s.spelling.consoleFragment with
    | some f => !(f.serial == s.line.serial && f.first == w.first)
    | none => true

/-- R145: room in the spell queue goes first to the Checking line's Unchecked words; a Held line gets none (log entry 76). -/
def fillFromChecking (s : State) : State :=
  if s.line.phase = .checking && s.spelling.room then attemptWords ((awaitedWords s).map (·.first)) s else s

/-- R145, R150: the waiting queries join as far as the room reaches; `done` are those already looked at. -/
def fillQueries (done : List Query) : List Query → State → State
  | [], s => { s with spelling := { s.spelling with queries := done } }
  | q :: rest, s =>
    if !q.queued && s.spelling.room then
      fillQueries (done ++ [{ q with queued := true }]) rest
        (joinSpellQueue { spellEntry s.store.buckets q.letters with tag := q.tag } s)
    else fillQueries (done ++ [q]) rest s

/-- R145, R150: then room goes to the waiting queries in posting order. -/
def fillFromQueries (s : State) : State := fillQueries [] s.spelling.queries s

/-- R145, R146: the Spell Hold test. -/
def holdTest (s : State) : State :=
  if s.line.phase = .checking && (awaitedWords s).all (·.settled) then
    if (awaitedWords s).any (·.status == .suspect) then
      let suspects := (s.line.words.filter (·.status == .suspect)).length
      (({ s with line := { s.line with phase := .held } } : State).notice .console
        (Notice.lineHeld s.line.serial suspects)).tone .refuse
    else { s with line := { s.line with phase := .waiting } }
  else s

/-- What the Spelling Unit does at the end of a step that may have settled a word or made room. -/
def settleSpelling (s : State) : State := holdTest (fillFromQueries (fillFromChecking s))

/-! ### The user word list (R147 to R149) -/

/-- R147: the order of the list. -/
def UserWord.before (a b : UserWord) : Bool :=
  a.fingerprint < b.fingerprint || (a.fingerprint == b.fingerprint && a.length < b.length)

/-- R148: a record inserted at its place in ascending order. -/
def insertUser (u : UserWord) : List UserWord → List UserWord
  | [] => [u]
  | x :: rest => if u.before x then u :: x :: rest else x :: insertUser u rest

/-- R147: a record with a word's F and L. -/
def UserWord.matches (u : UserWord) (letters : List Byte) : Bool :=
  u.fingerprint == Machine.fingerprint letters && u.length == letters.length

/-- R141, R148: every suspect of the word is withdrawn, and the working line's Suspect records of it become Good. -/
def withdrawWord (letters : List Byte) (s : State) : State :=
  let f := fingerprint letters
  let gone (x : Suspect) : Bool := x.fingerprint == f && x.length == letters.length
  { s with
    spelling := { s.spelling with
      suspects := s.spelling.suspects.filter (!gone ·)
      printWait := s.spelling.printWait.filter (!gone ·) }
    line := { s.line with words := s.line.words.map fun w =>
      let mine := s.line.letters w
      if w.status == .suspect && fingerprint mine == f && mine.length == letters.length then
        { w with status := .good } else w } }

/-- R118, R141: the lift of an entry withdraws the suspects of its serial that include its cell. -/
def withdrawLifted (serial cell : Nat) (s : State) : State :=
  { s with spelling := { s.spelling with
      suspects := s.spelling.suspects.filter (!·.covers serial cell)
      printWait := s.spelling.printWait.filter (!·.covers serial cell) } }

end Sys2Proof.Machine
end

