-- ==== Sys2Proof/Machine/Line.lean ====
section
/-! DEFINITION. The working line and the compose position as every block uses them (R19, R33, R40, R89, R90): the
recomputation of a Line-mode line, the cursor of a Direct-mode line, release and discard. -/

namespace Sys2Proof.Machine

/-- R42: port `p` may change the Format Record: the line is Free or held by `p`. -/
def ownsFormat (p : Port) (s : State) : Bool := s.line.holder.isNone || s.line.holder == some p

/-- R30: the cursor of a Direct-mode line. -/
def directCursor (cells : List Cell) (position : Nat) : Nat := (cells.filter (·.position < position)).length

/-- The working line is held in Direct mode. -/
def WorkingLine.isDirect (l : WorkingLine) : Bool := l.holder.isSome && l.mode == .direct

/-- The compose position is set; a Direct-mode line's cursor follows it (R30). -/
def setPosition (x : Nat) (s : State) : State :=
  { s with
    composer := { s.composer with position := x }
    line := if s.line.isDirect then { s.line with cursor := directCursor s.line.cells x } else s.line }

/-- R33, R50: the widths and the compose position of a Line-mode line are recomputed, and the compose position of a Free
line whose left margin has changed becomes the new L; with the petal map Unloaded all keep the values last computed. A
Free line's compose position that stands elsewhere (R90) is kept (log entry 51). -/
def relayLine (s : State) : State :=
  match s.engine.petalMap with
  | none => s
  | some m =>
    if s.line.holder.isSome && s.line.mode == .line then
      let laid := layFrom s.format m s.format.left s.line.cells
      { s with
        line := { s.line with cells := laid }
        composer := { s.composer with position := positionAt s.format.left laid s.line.cursor } }
    else if s.composer.leftDue && s.line.phase == .free then
      { s with composer := { s.composer with position := s.format.left, leftDue := false } }
    else s

/-- R19, R20, R156: the line becomes Free; its holder is the last holder, and the window starts at 0. -/
def freeLine (last : Port) (s : State) : State :=
  { s with
    line := .free
    composer := { s.composer with lastHolder := some last }
    display := { s.display with window := 0 } }

/-- R40, R141: the working line is discarded or released without a job: its lookups go, its Working suspects are
withdrawn, and for a Line-mode line the compose position becomes L. -/
def discardLine (s : State) : State :=
  match s.line.holder with
  | none => s
  | some p =>
    let s1 := freeLine p (releaseJoined (dropLineSpelling s.line.serial s))
    if s.line.mode = .line then setPosition s.format.left s1 else s1

/-- R121: the line that the composer holds for the console while Away: the reopened record's serial, no cells. -/
def awayLine (serial : Nat) : WorkingLine :=
  { WorkingLine.free with phase := .composing, holder := some .console, serial := serial, mode := .direct }

/-- R111: the console is composing in Direct mode. -/
def consoleDirect (s : State) : Bool :=
  (s.line.holder == some .console && s.line.mode == .direct)
    || (s.line.phase == .free && s.options.entryMode == .direct)

/-- R20: the serial after a serial. -/
def serialAfter (n : Nat) : Nat := if 65535 ≤ n then 1 else n + 1

end Sys2Proof.Machine
end

