-- ==== Sys2Proof/Machine/Lift.lean ====
section
/-! DEFINITION. The Lift Unit (chapter 6): the resolution of a Correction job and its checks, the orders it builds, the
Relocate Point, Away, and how correction and Relocate jobs end. -/

namespace Sys2Proof.Machine

/-! ### Targets (R112 to R114) -/

/-- R114: the platen position at which an entry was struck. -/
def liftHeight (r : LineRecord) (e : StrikeEntry) : Int := r.vertical - e.rise

/-- Two heights lie within reach of each other (R114). -/
def near (a b : Int) : Bool := a - b ≤ Config.liftReach && b - a ≤ Config.liftReach

/-- R114: a record is within reach of a platen position. -/
def withinReach (platen : Int) (r : LineRecord) : Bool :=
  if r.entries.isEmpty then near r.vertical platen else r.entries.all fun e => near (liftHeight r e) platen

/-- R112: going back from the newest entry, the entries of its cell up to the Main entry that started the group. -/
def groupBack (cell : Nat) : List StrikeEntry → List StrikeEntry
  | [] => []
  | e :: rest =>
    if e.cell = cell then (if e.pass = .main then [e] else e :: groupBack cell rest) else []

/-- R112: the newest stroke group of a record, in strike order. -/
def newestGroup (r : LineRecord) : List StrikeEntry :=
  match r.entries.reverse with
  | [] => []
  | e :: rest => (groupBack e.cell (e :: rest)).reverse

/-- R112: the anchor of Lift Word. -/
def anchorOf (r : LineRecord) (reference : Option Nat) : Option StrikeEntry :=
  match reference with
  | none => r.visible.getLast?
  | some x =>
    (r.visible.filter (·.position < x)).foldl (fun best e =>
      match best with
      | none => some e
      | some b => if b.position ≤ e.position then some e else best) none

/-- A target record with the target entries in strike order, and the word they are, for the commands that lift a word. -/
structure Target where
  record : LineRecord
  entries : List StrikeEntry
  word : Option PaperWord
deriving DecidableEq, Repr

/-- The entries of a word in the record's strike order. -/
def entriesOfWord (r : LineRecord) (w : PaperWord) : List StrikeEntry :=
  r.entries.filter (w.entries.contains ·)

def wordTarget (r : LineRecord) (w : Option PaperWord) : Option Target :=
  w.map fun x => ⟨r, entriesOfWord r x, some x⟩

/-- R112, R113: the target record and entries; none is NoTarget. -/
def findTarget (c : Correction) (s : State) : Option Target :=
  match c.command with
  | .last => s.memory.current.map fun r => ⟨r, newestGroup r, none⟩
  | .line => s.memory.current.map fun r => ⟨r, r.entries, none⟩
  | .word =>
    match s.memory.current with
    | none => none
    | some r =>
      match anchorOf r c.reference with
      | none => none
      | some e => wordTarget r (r.wordOf e)
  | .back =>
    match s.memory.back c.offset with
    | none => none
    | some r => wordTarget r (r.wordAt c.position)
  | .retract =>
    (s.memory.records.reverse.find? fun r => r.source == .link && withinReach s.engine.platen r).map fun r =>
      ⟨r, r.entries, none⟩

/-! ### The checks (R115) -/

/-- Why a Correction job is refused at resolution (R115; coded as section 9.8). -/
inductive LiftReason where
  | noTarget | lineHeld | wrongWheel | unliftable | tapeOut
deriving DecidableEq, Repr

def LiftReason.code : LiftReason → Nat
  | .noTarget => 0
  | .lineHeld => 1
  | .wrongWheel => 2
  | .unliftable => 3
  | .tapeOut => 4

/-- R115: the target word, or the target record, is incomplete. -/
def targetIncomplete (c : LiftCommand) (t : Target) : Bool :=
  match c with
  | .last => false
  | .word => (t.word.map t.record.incompleteWord).getD false
  | .back => (t.word.map t.record.incompleteWord).getD false
  | .line => t.record.unrecorded.isSome
  | .retract => t.record.unrecorded.isSome

/-- A Stroke Job of the console. -/
def Job.consoleStroke (j : Job) : Bool := j.kind == .stroke && j.source == .console

/-- R115: the working line can be handed to the console at an earlier line. -/
def lineCanBeHanded (s : State) (behind : List Job) : Bool :=
  (s.line.phase == .free
    || (s.line.holder == some .console && s.line.mode == .direct && s.line.phase == .composing))
  && !behind.any (·.consoleStroke)

/-- R115: the first check that fails, in the order of the table; `behind` are the jobs behind this one. -/
def liftCheck (c : LiftCommand) (t : Target) (behind : List Job) (s : State) : Option LiftReason :=
  if t.entries.isEmpty then some .noTarget
  else if c != .retract && !withinReach s.engine.platen t.record then some .noTarget
  else if targetIncomplete c t then some .noTarget
  else if c == .back && !lineCanBeHanded s behind then some .lineHeld
  else if !t.entries.all fun e => (s.engine.petalMap.map (·.wheelId)) == some e.wheelId then some .wrongWheel
  else if !t.entries.all (·.liftable) then some .unliftable
  else if s.engine.tape < t.entries.length then some .tapeOut
  else none

/-! ### Orders (R116, R123) -/

/-- R116: the Feeds of a vertical distance. -/
def feedsOf (d : Int) : List Order :=
  if d.natAbs ≤ 20 then [.feed d]
  else
    let step : Int := if 0 ≤ d then Config.liftFeed else -Config.liftFeed
    let rest : Int := if 0 ≤ d then (d.natAbs % 20 : Nat) else -((d.natAbs % 20 : Nat) : Int)
    List.replicate (d.natAbs / 20) (.feed step) ++ (if d.natAbs % 20 = 0 then [] else [.feed rest])

/-- R116, step 2: the lifts, with the Feeds between targets of different lift heights, and the height they end at. -/
def liftOrders (r : LineRecord) : Int → List StrikeEntry → List Order × Int
  | h, [] => ([], h)
  | h, e :: rest =>
    let mine := liftHeight r e
    let (more, last) := liftOrders r mine rest
    ((if mine = h then [] else feedsOf (mine - h)) ++ .lift r.name e :: more, last)

/-- R116: the orders of a Correction job from the platen position at its resolution: right to left by position, newest
first at equal position. -/
def correctionOrders (c : LiftCommand) (t : Target) (platen : Int) : List Order :=
  let targets := (sortByPosition t.entries).reverse
  match targets with
  | [] => []
  | e :: _ =>
    let first := liftHeight t.record e
    let (middle, last) := liftOrders t.record first targets
    let home := if c = .back then t.record.vertical else platen
    feedsOf (first - platen) ++ middle ++ feedsOf (home - last)

/-- The least position of entries. -/
def leastPosition : List StrikeEntry → Nat
  | [] => 0
  | [e] => e.position
  | e :: rest => min e.position (leastPosition rest)

/-! ### The Relocate Point and Away (R120, R121) -/

/-- R120: the Relocate Point at the resolution of a Correction job. -/
def setRelocatePoint (s : State) : State :=
  if !s.lift.away && (s.lift.point.isNone || s.lift.strikeSeen) then
    { s with lift := { s.lift with point := some (s.composer.position, s.engine.platen), strikeSeen := false } }
  else s

/-- R121: Away begins: a Direct-mode line of the console ends without a job, and the composer holds the line for the
console at the target record. -/
def beginAway (t : Target) (s : State) : State :=
  let s1 := discardLine s
  let s2 := { s1 with
    lift := { s1.lift with away := true, target := some t.record.name }
    line := awayLine t.record.serial
    display := { s1.display with window := 0 } }
  setPosition (leastPosition t.entries) s2

/-! ### How jobs of the Lift Unit end -/

/-- R119: the compose position after a lift: set when the console is composing in Direct mode and no Stroke Job of the
console stands in the queue behind the job, which has left it. -/
def positionAfterLift (c : Correction) (s : State) : State :=
  match c.leftmost with
  | none => s
  | some x =>
    if (c.command == .last || c.command == .word || c.command == .line) && consoleDirect s
        && !s.engine.queue.any (·.consoleStroke) then setPosition x s
    else s

/-- Lift Done to a job's source port: Complete 0, Cancelled 1, Fault 2. With nothing lifted the position is 0, after Fault
too (R125; log entry 54). -/
def liftDone (source : Port) (c : Correction) (outcome : Nat) (s : State) : State :=
  s.notice source (Notice.liftDone c.command.code outcome c.lifted (c.leftmost.getD 0))

/-- R122: a resolved Lift Back leaves the queue: its target is reopened. -/
def reopenAfter (c : Correction) (s : State) : State :=
  match c.command, c.target with
  | .back, some name => reopen name s
  | _, _ => s

/-- R119, R122, R125: a Correction job has left the queue, complete or cancelled. -/
def endCorrection (source : Port) (c : Correction) (outcome : Nat) (s : State) : State :=
  reopenAfter c (positionAfterLift c (liftDone source c outcome s))

/-- R123: a Relocate job, with the Move target it has until it starts. -/
def relocateJob (target : Nat) : Job :=
  { Job.empty .motion .console with orders := [.move target], relocate := true }

/-- The Move target a Relocate job is given when it is queued: the point's compose position (with no point, the compose
position: log entry 20). -/
def relocateTarget (s : State) : Nat :=
  match s.lift.point with
  | some (x, _) => x
  | none => s.composer.position

/-- R126: the owed Relocate job is appended as soon as the queue has room. -/
def appendOwed (s : State) : State :=
  if s.lift.owed && s.engine.room then
    appendJob (relocateJob (relocateTarget s)) { s with lift := { s.lift with owed := false } }
  else s

/-- R124, step 3: Away ends: the line becomes Free with the console as last holder. -/
def endAway (s : State) : State :=
  let s1 := freeLine .console s
  { s1 with lift := { s1.lift with away := false, target := none } }

end Sys2Proof.Machine
end

