-- ==== Sys2Proof/Machine/Engine.lean ====
section
/-! DEFINITION. The Strike Engine (chapter 4): reports of jobs, orders and motions, completion, the run of the Print
Queue, Cancel Printing, Fault, and the end of a homing. -/

namespace Sys2Proof.Machine

/-! ### Reports (R67, R68, R89, R90, R140, R168) -/

/-- A Line Done notice is produced: the printing set is examined and a console line asks for the Done tone. -/
def lineDone (source : Port) (serial struck dropped : Nat) (s : State) : State :=
  let s1 := examinePrinting serial (s.notice source (Notice.lineDone serial struck dropped))
  if source == .console && serial != 0 && s1.options.doneTone then s1.tone .done else s1

/-- A Line Cancelled notice is produced. -/
def lineCancelled (source : Port) (serial struck : Nat) (s : State) : State :=
  examinePrinting serial (s.notice source (Notice.lineCancelled serial struck))

/-- R89, R90, R125: a removed job is reported as cancelled. -/
def reportCancelled (j : Job) (s : State) : State :=
  match j.correction with
  | some c => endCorrection j.source c 1 s
  | none => lineCancelled j.source (j.serial.getD 0) j.struck s

/-- R89, R126: a job discarded on entering Fault is reported. -/
def reportFaulted (j : Job) (s : State) : State :=
  match j.correction with
  | some c => liftDone j.source c 2 s
  | none => lineCancelled j.source (j.serial.getD 0) j.struck s

/-- R68: a completed Stroke Job is summed into the Direct tally, and a line-ending one reports it. -/
def tallyStroke (j : Job) (s : State) : State :=
  let serial := j.serial.getD 0
  let t0 := if s.engine.tally.serial = serial then s.engine.tally else { serial := serial, struck := 0, dropped := 0 }
  let t : Tally := { t0 with struck := t0.struck + j.struck, dropped := t0.dropped + j.dropped }
  if j.lineEnding then
    lineDone j.source t.serial t.struck t.dropped { s with engine := { s.engine with tally := .clear } }
  else { s with engine := { s.engine with tally := t } }

/-- R87, R88: Supply Low to both ports. -/
def supplyLow (s : State) : State := s.noticeBoth (Notice.supplyLow s.engine.ribbon s.engine.tape)

/-! ### The head job -/

/-- The head job is replaced by a function of it. -/
def setHead (g : Job → Job) (s : State) : State :=
  match s.engine.queue with
  | [] => s
  | j :: rest => { s with engine := { s.engine with queue := g j :: rest } }

/-- The order in flight or next to begin: the head job's next order (R65). -/
def currentOrder (s : State) : Option Order :=
  match s.engine.queue with
  | [] => none
  | j :: _ => j.orders[j.next]?

/-! ### Motions (R69 to R72, R117) -/

/-- R70: a wheel rotation to a petal, the shorter way round, when the wheel is not there. -/
def startWheel (t : Nat) (e : Engine) : Engine :=
  if e.petal = t then e
  else
    let d := (t + 96 - e.petal % 96) % 96
    let move : WheelMove :=
      { target := t, forward := d ≤ 48, petals := if d ≤ 48 then d else 96 - d, limit := Config.wheelLimit }
    { e with wheelMove := some move }

/-- R71: a carrier move to a position, when the carrier is not there. -/
def startCarrier (x : Nat) (e : Engine) : Engine :=
  if e.carrier = x then e
  else { e with carrierMove := some { target := x, limit := Config.carrierLimit } }

/-- R69: both motions have ended. -/
def Engine.still (e : Engine) : Bool := e.wheelMove.isNone && e.carrierMove.isNone

/-- R69, R117: with both motions ended the hammer fires for a Strike, and the tape guide is raised for a Lift. -/
def fireOrRaise (o : Order) (e : Engine) : Engine :=
  if !e.still then e
  else match o with
    | .strike k => { e with hammer := .pulse k.energy }
    | .lift _ _ => { e with tapeGuide := .rising Config.tapeLimit }
    | _ => e

/-- R72: the length of a hammer pulse in microseconds. -/
def pulseLength (energy : Nat) : Nat := 400 + 50 * energy

/-- R117: the energy of a lift. -/
def liftEnergy (e : StrikeEntry) : Nat := min 12 (e.energy + 2)

/-! ### Completion of orders (R73 to R76, R118) -/

/-- R73: Hammer Returned is taken for a Strike order. -/
def completeStrike (k : Strike) (s : State) : State :=
  match s.engine.queue with
  | [] => s
  | j :: _ =>
    let ribbon := s.engine.ribbon - 1
    let s1 := { s with
      engine := { s.engine with ribbon := ribbon }
      lift := { s.lift with strikeSeen := true } }
    let s2 := if s.engine.ribbon = 501 then supplyLow s1 else s1
    let entry : StrikeEntry :=
      { name := 0, position := k.position, width := k.width, rise := k.rise,
        wheelId := (s.engine.petalMap.map (·.wheelId)).getD 0, petal := k.petal, energy := k.energy, code := k.code,
        cell := k.cell, pass := k.pass, liftable := s.engine.ribbonKind == .correctable }
    let s3 := recordStrike (j.serial.getD 0) j.source s.engine.platen entry s2
    setHead (fun x => if k.pass = .main then { x with struck := x.struck + 1 } else x) s3

/-- R118, step 5: the cell of a lifted Main entry: the first in position order, should two match (log entry 53). -/
def liftedCell (e : StrikeEntry) (cells : List Cell) : Option Nat :=
  let x := e.position + e.width / 2
  cells.findIdx? fun c => c.kind == .character && c.code == e.code && c.position ≤ x && x < c.rightEdge

/-- R118, step 5, R131: the composer removes the cell of a lifted Main entry from a Direct-mode line. -/
def removeLiftedCell (serial : Nat) (e : StrikeEntry) (s : State) : State :=
  if s.line.isDirect && s.line.serial == serial && e.pass == .main then
    match liftedCell e s.line.cells with
    | none => s
    | some i =>
      let cells := s.line.cells.eraseIdx i
      let s1 := { s with line := { s.line with
        cells := cells
        cursor := directCursor cells s.composer.position
        generation := (s.line.generation + 1) % 65536 } }
      if i + 1 = s.line.cells.length then editSpelling s1 else unmapLine s1
  else s

/-- R118: Hammer Returned is taken for a Lift order. -/
def completeLift (record : Nat) (e : StrikeEntry) (s : State) : State :=
  let serial := match s.engine.queue with
    | j :: _ => j.serial.getD 0
    | [] => 0
  let s1 := { s with engine := { s.engine with tape := s.engine.tape - 1, tapeGuide := .down } }
  let s2 := if s.engine.tape = 101 then supplyLow s1 else s1
  let s3 := setHead (fun x => { x with correction := x.correction.map fun c =>
      { c with lifted := c.lifted + 1
               leftmost := some (match c.leftmost with | none => e.position | some y => min y e.position) } })
    (removeEntry record e.name s2)
  removeLiftedCell serial e (withdrawLifted serial e.cell s3)

/-- R74, R75, R96: a Feed order completes. -/
def completeFeed (n : Int) (s : State) : State :=
  let platen := clampInt (-64) 8191 (s.engine.platen + n)
  let raised := s.engine.pageLines < platen
  let lines := if raised then platen else s.engine.pageLines
  let ends := raised && (s.format.pageLength : Int) ≤ lines && !s.engine.pageEnd
  let s1 := closeByFeed { s with engine := { s.engine with
    platen := platen, pageLines := lines, pageEnd := s.engine.pageEnd || ends } }
  match ends, s.engine.queue with
  | true, j :: _ => s1.notice j.source (Notice.pageEnd (j.serial.getD 0) lines)
  | _, _ => s1

/-- R76: an Eject order completes. -/
def completeEject (s : State) : State :=
  emptyMemory { s with engine := { s.engine with platen := 0, pageLines := 0, pageEnd := false } }

/-! ### Beginning an order -/

/-- What beginning an order comes to: it is in flight, or it has completed as it began. -/
structure Begun where
  state : State
  complete : Bool

/-- R69 to R76, R117: an order begins. -/
def beginOrder (o : Order) (s : State) : Begun :=
  match o with
  | .strike k =>
    ⟨{ s with engine := fireOrRaise o (startCarrier k.position (startWheel k.petal s.engine)) }, false⟩
  | .lift _ e =>
    ⟨{ s with engine := fireOrRaise o (startCarrier e.position (startWheel e.petal s.engine)) }, false⟩
  | .move x =>
    if s.engine.carrier = x then ⟨s, true⟩ else ⟨{ s with engine := startCarrier x s.engine }, false⟩
  | .feed n =>
    if n = 0 then ⟨completeFeed 0 s, true⟩
    else ⟨{ s with engine := { s.engine with platenMove := some (.feed n) } }, false⟩
  | .eject =>
    if (s.format.pageLength : Int) ≤ s.engine.platen then ⟨completeEject s, true⟩
    else ⟨{ s with engine := { s.engine with platenMove := some .eject } }, false⟩

/-! ### Starting and completing jobs (R67) -/

/-- The engine is about to start an order with the ribbon count 0 (R88). -/
def enterSupplyOut (s : State) : State :=
  { s with engine := { s.engine with state := .supplyOut }, restTimer := none }

/-- R67, R83: Ready; with nothing queued the Rest timer starts. -/
def enterReady (s : State) : State :=
  { s with
    engine := { s.engine with state := .ready }
    restTimer := if s.engine.queue.isEmpty then restLength s.options else none }

/-- The head job leaves the queue. -/
def popHead (s : State) : State := { s with engine := { s.engine with queue := s.engine.queue.drop 1 } }

/-- R115: a Correction job refused at resolution leaves the queue with Lift Refused. -/
def refuseLift (source : Port) (command : LiftCommand) (reason : LiftReason) (s : State) : State :=
  let s1 := (popHead s).notice source (Notice.liftRefused command.code reason.code)
  appendOwed (if source = .console then s1.tone .refuse else s1)

/-- The head job starts with these orders, and the engine is Working (R67). -/
def startWith (g : Job → Job) (s : State) : State :=
  let s1 := setHead (fun j => { g j with started := true }) s
  { s1 with engine := { s1.engine with state := .working }, restTimer := none }

/-- R112 to R116, R120, R121: a Correction job is resolved against Correction Memory as it stands. -/
def resolveCorrection (j : Job) (c : Correction) (behind : List Job) (s : State) : State :=
  match findTarget c s with
  | none => refuseLift j.source c.command .noTarget s
  | some t =>
    match liftCheck c.command t behind s with
    | some reason => refuseLift j.source c.command reason s
    | none =>
      let s1 := startWith (fun x =>
        { x with serial := some t.record.serial, orders := correctionOrders c.command t s.engine.platen,
                 correction := some { c with target := some t.record.name } }) (setRelocatePoint s)
      if c.command = .back then beginAway t s1 else s1

/-- R67, R123: the head job starts; a Relocate job reads the Relocate Point as it then stands. -/
def startHead (j : Job) (behind : List Job) (s : State) : State :=
  match j.correction with
  | some c => resolveCorrection j c behind s
  | none =>
    if j.relocate then
      match s.lift.point with
      | some (x, y) => startWith (fun i => { i with orders := .move x :: feedsOf (y - s.engine.platen) }) s
      | none => startWith id s
    else startWith id s

/-- R124: a Relocate job has completed. Where step 4 sets no compose position, it stays (log entry 46). After a console
reset while Away the lookups that still run for the reopened serial run on (DESIGN CHOICE, log entry 72). -/
def endRelocate (target : Nat) (s : State) : State :=
  let s1 := restore s
  let stale (j : Job) : Bool := j.kind == .stroke && j.serial == some s1.line.serial
  let s2 :=
    if s1.lift.away then
      let gone := s1.engine.queue.filter stale
      let t := { s1 with engine := { s1.engine with
        queue := s1.engine.queue.filter (!stale ·)
        tally := if gone.isEmpty then s1.engine.tally else .clear } }
      endAway (gone.foldl (fun u j => reportCancelled j u) t)
    else s1
  let s3 := if consoleDirect s2 then setPosition target s2 else s2
  { s3 with lift := { s3.lift with point := none, owed := false } }

/-- The Move target of a Relocate job. -/
def moveTarget (j : Job) : Nat :=
  match j.orders with
  | .move x :: _ => x
  | _ => 0

/-- R67, R68, R119, R124: the head job's last order has completed: it leaves the queue and reports. -/
def completeHead (j : Job) (s : State) : State :=
  let s1 := popHead s
  appendOwed (match j.kind with
    | .line => lineDone j.source (j.serial.getD 0) j.struck j.dropped s1
    | .stroke => tallyStroke j s1
    | .motion =>
      let s2 := lineDone j.source 0 0 0 s1
      if j.relocate then endRelocate (moveTarget j) s2 else s2
    | .correction =>
      match j.correction with
      | some c => endCorrection j.source c 0 s1
      | none => s1)

/-- R67, R88: the engine goes on with the head job: it starts it, begins its next order, or completes it, until an order
is in flight, the ribbon is out, or the queue is empty. A Correction job is resolved whatever the ribbon count; another
job with no ribbon does not start (log entry 15). -/
def runQueue : Nat → State → State
  | 0, s => s
  | fuel + 1, s =>
    match s.engine.queue with
    | [] => enterReady s
    | j :: rest =>
      if j.started then
        match j.orders[j.next]? with
        | none => runQueue fuel (completeHead j s)
        | some o =>
          if s.engine.ribbon = 0 then enterSupplyOut s
          else
            let b := beginOrder o s
            if b.complete then runQueue fuel (setHead (fun x => { x with next := x.next + 1 }) b.state)
            else b.state
      else if j.correction.isNone && s.engine.ribbon = 0 then enterSupplyOut s
      else runQueue fuel (startHead j rest s)

/-- Enough for every start, completion and order that can complete as it begins in the jobs of the queue. -/
def runFuel (s : State) : Nat :=
  (s.engine.queue.map fun j => j.orders.length + 16).sum + 64

def goOn (s : State) : State := runQueue (runFuel s) s

/-- R90: the cancelled head job, whose order in flight has completed, is removed. -/
def removeCancelledHead (s : State) : State :=
  match s.engine.queue with
  | [] => s
  | j :: _ => appendOwed (reportCancelled j (popHead s))

/-- The order in flight has completed: the head job goes on, or leaves if Cancel Printing has taken it (R90). -/
def orderDone (s : State) : State :=
  match s.engine.queue with
  | [] => s
  | j :: _ =>
    if j.cancelled then goOn (removeCancelledHead s)
    else goOn (setHead (fun x => { x with next := x.next + 1 }) s)

/-- R67: the head job starts when the engine is Ready and the petal map is Loaded. -/
def startJob (s : State) : State :=
  if s.engine.state = .ready && s.engine.petalMap.isSome && !s.engine.queue.isEmpty then goOn s else s

/-! ### Cancel Printing (R90) -/

/-- The carrier position that stands once the order in flight has completed. -/
def Engine.standing (e : Engine) : Nat :=
  match e.carrierMove with
  | some m => m.target
  | none => e.carrier

/-- R90, R125: what the composer does when a removed job was a Stroke Job of the working line: the tally is cleared, the
console's Direct-mode line is released, and the compose position is where the carrier will stand. While Away the line
is taken again at once. -/
def releaseCancelled (removed : List Job) (s : State) : State :=
  let s1 :=
    if removed.any (·.kind == .stroke) then { s with engine := { s.engine with tally := .clear } } else s
  if removed.any (fun j => j.kind == .stroke && j.serial == some s.line.serial)
      && s.line.holder == some .console && s.line.mode == .direct then
    let s2 := discardLine s1
    let s3 := if s.lift.away then { s2 with line := awayLine s.line.serial } else s2
    setPosition s.engine.standing s3
  else s1

/-- R90: what Cancel Printing from a port removes, and how many jobs. A head job whose order is in flight is marked and
leaves when that order completes (log entry 14). All are removed before any is reported, so a removed Stroke Job no
longer stands behind a removed lift for R119 (DESIGN CHOICE, log entry 65). -/
def cancelJobs (p : Port) (s : State) : State × Nat :=
  let mine (j : Job) : Bool := (p == .console || j.source == .link) && !j.cancelled
  let removed := s.engine.queue.filter mine
  let keepHead (j : Job) : Job := if mine j then { j with cancelled := true } else j
  let (queue, gone) : List Job × List Job :=
    match s.engine.state, s.engine.queue with
    | .working, j :: rest => (keepHead j :: rest.filter (!mine ·), rest.filter mine)
    | _, all => (all.filter (!mine ·), all.filter mine)
  let s1 := { s with engine := { s.engine with queue := queue } }
  let s2 := gone.foldl (fun t j => reportCancelled j t) s1
  (appendOwed (releaseCancelled removed s2), removed.length)

/-! ### Fault (R89, R126) -/

/-- The cause of a Mechanism Fault (section 9.8). -/
inductive FaultCause where
  | carrier | wheel | homing
deriving DecidableEq, Repr

def FaultCause.code : FaultCause → Nat
  | .carrier => 0
  | .wheel => 1
  | .homing => 2

/-- R89, R126, R193: the engine enters Fault; the discarded jobs are reported oldest first (log entry 56). -/
def enterFault (cause : FaultCause) (s : State) : State :=
  let jobs := s.engine.queue
  let s1 := { s with
    engine := { s.engine with
      queue := []
      state := .fault
      homing := none
      homingLimit := none
      wheelMove := none
      carrierMove := none
      hammer := .idle
      tapeGuide := .down
      platenMove := none }
    restTimer := none }
  let s2 := jobs.foldl (fun t j => reportFaulted j t) s1
  let s3 := ({ s2 with engine := { s2.engine with tally := .clear } } : State).noticeBoth
    (Notice.mechanismFault cause.code)
  let s4 :=
    if s3.line.holder == some .console && s3.line.mode == .direct then
      setPosition s3.format.left (discardLine s3)
    else s3
  let s5 := { s4 with display := { s4.display with live := true } }
  if s5.lift.away then
    let s6 := restore s5
    { s6 with lift := { s6.lift with away := false, target := none, point := none, owed := false } }
  else s5

/-! ### Homing (R79, R81, R82) -/

/-- R82: the homing ends with a Loaded answer; a wake that kept its map announces nothing. -/
def homingLoaded (m : PetalMap) (announce : Bool) (s : State) : State :=
  let s1 := { s with
    engine := { s.engine with petalMap := some m, homing := none, homingLimit := none }
    display := { s.display with live := true } }
  let s2 := if s1.engine.ribbon = 0 then enterSupplyOut s1 else enterReady s1
  let s3 := if announce then s2.noticeBoth (Notice.wheelLoaded m.wheelId m.pitch.code) else s2
  relayLine s3

/-- R82: the homing ends in WheelFault: NoTable 0, BadTable 1, NoHub 2. -/
def homingRefused (hub reason : Nat) (s : State) : State :=
  ({ s with
    engine := { s.engine with petalMap := none, homing := none, homingLimit := none, state := .wheelFault }
    display := { s.display with live := true }
    restTimer := none } : State).noticeBoth (Notice.wheelFault hub reason)

/-- R79, step 3, R108: a new top of page. -/
def newPage (s : State) : State :=
  emptyMemory { s with engine := { s.engine with platen := 0, pageLines := 0, pageEnd := false } }

end Sys2Proof.Machine
end

