-- ==== Sys2Proof/Machine/Store.lean ====
section
/-! DEFINITION. The Store Interface (chapter 1): petal maps, wheel table requests, the store start-up, saves, the busy
limit and the Store Link arbiter. -/

namespace Sys2Proof.Machine

/-! ### Petal maps (R8 to R10) -/

/-- R10: the impression class of a fallback code. -/
def fallbackClass (code : Nat) : Nat :=
  if [0x2E, 0x2C, 0x27, 0x60, 0x2D].contains code then 1
  else if [0x4D, 0x57, 0x6D, 0x77, 0x40, 0x23].contains code then 3
  else 2

/-- R10: petal k of the fallback wheel. -/
def fallbackGlyph (k : Nat) : Glyph where
  code := byte (0x21 + k)
  petal := k
  width := 10
  cls := fallbackClass (0x21 + k)

/-- R10: the fallback petal map for hub id h. -/
def fallbackMap (h : Nat) : PetalMap where
  wheelId := h
  pitch := .twelve
  spaceWidth := 10
  underscore := fallbackGlyph 62
  glyphs := (List.range 94).map fallbackGlyph

def pitchOf (b : Byte) : Option PitchClass :=
  match b.toNat with
  | 10 => some .ten
  | 12 => some .twelve
  | 15 => some .fifteen
  | 0 => some .proportional
  | _ => none

/-- R9: the petal of a petal record, none when it is empty. -/
def petalOf (k : Nat) (code width cls flags : Byte) : Option Glyph :=
  if 0x21 ≤ code.toNat && code.toNat ≤ 0xFE && flags = 0 then
    some { code := code, petal := k, width := clamp 4 24 width.toNat, cls := clamp 1 4 cls.toNat }
  else none

/-- R9: the non-empty petals of the petal records, petal k first. -/
def petalsFrom : Nat → List Byte → List Glyph
  | k, a :: b :: c :: d :: rest => (petalOf k a b c d).toList ++ petalsFrom (k + 1) rest
  | _, _ => []

/-- R9: each type code maps to the lowest-numbered petal that carries it. -/
def firstOfCode : List Glyph → List Glyph
  | [] => []
  | g :: rest => g :: (firstOfCode rest).filter (·.code != g.code)

/-- The sum of bytes, modulo 2^32 (section 9.8). -/
def byteSum (bytes : List Byte) : Nat := (bytes.foldl (fun n b => n + b.toNat) 0) % 4294967296

/-- R8, R9: the petal map of a table read for hub id h; none is BadTable. -/
def mapOfTable (h : Nat) (table : List Byte) : Option PetalMap :=
  match table with
  | id :: pitch :: space :: under :: rest =>
    let petals := petalsFrom 0 (rest.take 384)
    if number (table.drop 388) != byteSum (table.take 388) || id.toNat != h then none
    else match pitchOf pitch, petals.find? (·.petal == under.toNat) with
      | some c, some u =>
        some { wheelId := h, pitch := c, spaceWidth := clamp 4 24 space.toNat, underscore := u,
               glyphs := firstOfCode petals }
      | _, _ => none
  | _ => none

/-! ### Wheel table requests (R8) -/

/-- The table number of a hub id in the wheel index. -/
def Store.table (st : Store) (h : Nat) : Option Nat := (st.wheelIndex.find? (·.1 == h)).map (·.2)

/-- R8: a request is taken, or taken again when the start-up ends or the store faults. -/
def requestTable (h : Nat) (s : State) : State :=
  if h = 0 then homingRefused h 0 s
  else match s.store.state with
    | .starting => { s with store := { s.store with wheelRequest := some h } }
    | .absent => homingLoaded (fallbackMap h) true s
    | .faulted => homingLoaded (fallbackMap h) true s
    | .present =>
      if s.store.flags.noWheelSet then homingLoaded (fallbackMap h) true s
      else match s.store.table h with
        | none => homingRefused h 0 s
        | some _ => { s with store := { s.store with wheelRequest := some h } }

/-- A waiting request is taken again (R3, R8). -/
def retakeRequest (s : State) : State :=
  match s.store.wheelRequest with
  | none => s
  | some h => requestTable h { s with store := { s.store with wheelRequest := none } }

/-- R8: the table read for the request in flight has ended. -/
def wheelRead (bytes : List Byte) (s : State) : State :=
  match s.store.wheelRequest with
  | none => s
  | some h =>
    let s1 := { s with store := { s.store with wheelRequest := none } }
    match mapOfTable h bytes with
    | some m => homingLoaded m true s1
    | none => homingRefused h 1 s1

/-! ### The arbiter (R16, R17) -/

/-- R15: the limit of the polls that close an operation. -/
def StoreOp.limit : StoreOp → Option Nat
  | .statusRead => some Config.recoveryLimit
  | .sectorErase _ => some Config.eraseLimit
  | .pageProgram _ _ => some Config.programLimit
  | _ => none

/-- R1: how many bytes an operation brings back. -/
def StoreOp.answer : StoreOp → Nat
  | .straightRead _ n => n
  | .wrappedRead _ => 32
  | _ => 0

/-- An operation is put on the Store Link. -/
def putOnLink (owner : LinkOwner) (op : StoreOp) (s : State) : State :=
  { s with store := { s.store with link := some { owner := owner, op := op, limit := op.limit } } }

/-- R16, 1: the operation a waiting wheel load asks for. -/
def Store.wheelOp (st : Store) : Option StoreOp :=
  match st.wheelRequest, st.wheelSet with
  | some h, some w => (st.table h).map fun t => .straightRead (w.base + 4 + 392 * t) 392
  | _, _ => none

/-- R16, 2: the next step of a save in progress. -/
def Store.saveOp (st : Store) : Option StoreOp :=
  match st.save with
  | some v => v.steps.head?
  | none => none

/-- R17: the address of a lookup's wrapped read. -/
def lookupAddress (base : Nat) (e : SpellEntry) : Nat := base + e.bucket * 32 + e.firstSlot * 4

/-- R16, 3: the oldest lookup, while no save is in progress and the lexicon is available. -/
def lookupOp (s : State) : Option StoreOp :=
  if s.store.save.isNone && s.store.lexiconAvailable then
    match s.store.lexicon, s.spelling.queue with
    | some l, e :: _ => some (.wrappedRead (lookupAddress l.base e))
    | _, _ => none
  else none

/-- The oldest entry of the spell queue is in flight. -/
def markInFlight : List SpellEntry → List SpellEntry
  | [] => []
  | e :: rest => { e with inFlight := true } :: rest

/-- R16: the free link is granted to the first that applies. -/
def arbitrate (s : State) : State :=
  if s.store.link.isNone && s.store.state == .present then
    match s.store.wheelOp, s.store.saveOp, lookupOp s with
    | some op, _, _ => putOnLink .wheel op s
    | none, some op, _ => putOnLink .save op s
    | none, none, some op =>
      putOnLink .lookup op { s with spelling := { s.spelling with queue := markInFlight s.spelling.queue } }
    | none, none, none => s
  else s

/-- The end of a step that may concern words or the Store Link: the Spelling Unit fills its queue and tests Spell Hold,
and the arbiter decides. -/
def settle (s : State) : State := arbitrate (settleSpelling s)

/-- The end of a step of the composer, the engine or a timer. -/
def endStep (s : State) : State := finish (settle s)

/-! ### Start-up (R3 to R7, R11, R12) -/

/-- R2: Store State to both ports, with the state and the flags. -/
def storeNotice (s : State) : State :=
  s.noticeBoth (Notice.storeState (byte s.store.state.code) s.store.flags.byte)

/-- R3, R15, R138: the store enters a state, with nothing on the link; words and requests follow from it. -/
def enterStore (state : StoreState) (s : State) : State :=
  let s1 := storeNotice
    { s with store := { s.store with state := state, startUp := none, link := none } }
  retakeRequest (if s1.store.lexiconAvailable then s1 else lexiconLost s1)

/-- R3: a store start-up begins, the reset pair first. -/
def startStartUp (s : State) : State :=
  { s with store := .reset, spelling := { s.spelling with userWords := [] } }

/-- The start-up goes on with a step that runs an operation. -/
def startUpWith (step : StartStep) (op : StoreOp) (s : State) : State :=
  putOnLink .startUp op { s with store := { s.store with startUp := some step } }

/-- R4: the directory header passes, and its section count. -/
def headerCount (bytes : List Byte) : Option Nat :=
  match bytes with
  | [0x4F, 0x48, 0x4C, 0x53, 0x01, _, n, _] => if 1 ≤ n.toNat && n.toNat ≤ 8 then some n.toNat else none
  | _ => none

/-- The section entries of the bytes read (section 9.8). -/
def rawEntries : List Byte → List RawEntry
  | k :: p :: a :: b :: c :: d :: e :: f :: g :: _ :: _ :: _ :: rest =>
    { kind := k.toNat, param := p.toNat, base := number [a, b, c], length := number [d, e, f, g] } :: rawEntries rest
  | _ => []

/-- R6: a Lexicon entry is accepted. -/
def lexiconFits (e : RawEntry) : Bool :=
  8 ≤ e.param && e.param ≤ 16 && e.length == 2 ^ e.param * 32 && e.base % 32 == 0

/-- R11: the checks of a User Area entry but for the overlap test. -/
def userFits (e : RawEntry) : Bool := e.length == 8192 && e.base % 4096 == 0

def RawEntry.section (e : RawEntry) : StoreSection where
  param := e.param
  base := e.base
  length := e.length

/-- Where the examination of the entries stands: all examined, or a Wheel Set's header to be read. -/
inductive Examined where
  | done (found : Examination)
  | wheel (entry : RawEntry) (rest : List RawEntry) (found : Examination)

/-- R5, R6, R11: the entries in directory order. -/
def examine : List RawEntry → Examination → Examined
  | [], x => .done x
  | e :: rest, x =>
    if Config.storeSize < e.base + e.length then examine rest x
    else match e.kind with
      | 1 =>
        if x.lexiconSeen then examine rest x
        else examine rest
          { x with lexiconSeen := true, lexicon := if lexiconFits e then some e.section else none }
      | 2 => if x.wheelSeen then examine rest x else .wheel e rest x
      | 3 =>
        if x.userSeen then examine rest x
        else examine rest { x with userSeen := true, userArea := if userFits e then some e.section else none }
      | _ => examine rest x

/-- Nothing examined yet. -/
def Examination.none : Examination where
  lexicon := Option.none
  wheelSet := Option.none
  userArea := Option.none
  lexiconSeen := false
  wheelSeen := false
  userSeen := false
  tables := 0

/-- Two sections share a byte (R11). -/
def StoreSection.meets (a b : StoreSection) : Bool := a.base < b.base + b.length && b.base < a.base + a.length

/-- R11: the overlap test, against the sections accepted. -/
def overlapFree (u : StoreSection) (x : Examination) : Bool :=
  4096 ≤ u.base && !(x.lexicon.any (u.meets ·)) && !(x.wheelSet.any (u.meets ·))

/-- R3, step 8: the start-up ends in Present. -/
def endPresent (s : State) : State := enterStore .present s

/-- R3, step 7: the user word list is loaded, if a User Area was accepted. -/
def startUsers (s : State) : State :=
  match s.store.userArea with
  | some u => startUpWith .userHeader (.straightRead u.base 8) s
  | none => endPresent s

/-- R7: the id byte of a table is read, or the index is built. -/
def readTableId (t tables : Nat) (s : State) : State :=
  match s.store.wheelSet with
  | some w =>
    if t < tables then startUpWith (.wheelIds t tables) (.straightRead (w.base + 4 + 392 * t) 1) s
    else startUsers s
  | none => startUsers s

/-- R5, R11: all entries are examined: the directory copy is replaced and the flags are set. -/
def endExamination (x : Examination) (s : State) : State :=
  let user := x.userArea.filter (overlapFree · x)
  readTableId 0 x.tables
    { s with store := { s.store with
        lexicon := x.lexicon
        wheelSet := x.wheelSet
        userArea := user
        wheelIndex := []
        flags := { s.store.flags with
          noLexicon := x.lexicon.isNone
          noWheelSet := x.wheelSet.isNone
          noUserArea := user.isNone } } }

/-- R5, R7: the examination goes on until it ends or a Wheel Set's header has to be read. -/
def goOnExamining (entries : List RawEntry) (x : Examination) (s : State) : State :=
  match examine entries x with
  | .done y => endExamination y s
  | .wheel e rest y => startUpWith (.wheelHeader e rest y) (.straightRead e.base 4) s

/-- R7: the Wheel Set's header has been read. -/
def wheelHeaderRead (e : RawEntry) (rest : List RawEntry) (x : Examination) (bytes : List Byte) (s : State) : State :=
  let count := number bytes
  let fits := 1 ≤ count && count ≤ 32 && 4 + 392 * count ≤ e.length
  goOnExamining rest
    { x with wheelSeen := true
             wheelSet := if fits then some e.section else none
             tables := if fits then count else 0 } s

/-- R7: a table's id joins the index unless it is 0, above 63 or already there. -/
def indexId (id table : Nat) (index : List (Nat × Nat)) : List (Nat × Nat) :=
  if id = 0 || 63 < id || index.any (·.1 == id) then index else index ++ [(id, table)]

/-- The user words of the record bytes (section 9.8). -/
def userRecords : List Byte → List UserWord
  | a :: b :: c :: l :: p :: q :: f :: _ :: rest =>
    { fingerprint := number [a, b, c], length := l.toNat, primary := number [p, q], capital := f.getLsbD 0 }
      :: userRecords rest
  | _ => []

/-- R12, R147: the records are in strictly ascending order of (F, L). -/
def ascending : List UserWord → Bool
  | a :: b :: rest => a.before b && ascending (b :: rest)
  | _ => true

/-- R12: the record bytes make a list that is kept. -/
def listFits (check : Nat) (magic : Bool) (bytes : List Byte) : Bool :=
  magic && byteSum bytes == check
    && (userRecords bytes).all (fun u => u.fingerprint != 0 && 2 ≤ u.length && u.length ≤ 24)
    && ascending (userRecords bytes)

/-- R12: the whole list is discarded. -/
def discardList (s : State) : State :=
  endPresent { s with
    spelling := { s.spelling with userWords := [] }
    store := { s.store with flags := { s.store.flags with discarded := true } } }

/-- R12: the record bytes have been read. -/
def userRecordsRead (check : Nat) (magic : Bool) (bytes : List Byte) (s : State) : State :=
  if listFits check magic bytes then
    let words := userRecords bytes
    let capacity := s.partition.userWords
    endPresent { s with
      spelling := { s.spelling with userWords := words.take capacity }
      store := { s.store with flags := { s.store.flags with
        truncated := s.store.flags.truncated || capacity < words.length } } }
  else discardList s

/-- R12: the User Area's header has been read. -/
def userHeaderRead (bytes : List Byte) (s : State) : State :=
  let magic := bytes.take 2 == [0x55, 0x57]
  let count := number ((bytes.drop 2).take 2)
  if 1023 < count then discardList s
  else match s.store.userArea with
    | some u =>
      startUpWith (.userRecords count (number (bytes.drop 4)) magic) (.straightRead (u.base + 8) (count * 8)) s
    | none => endPresent s

/-- R3: the operation of a start-up step has ended, and the start-up goes on. -/
def startUpStep (bytes : List Byte) (s : State) : State :=
  match s.store.startUp with
  | none => s
  | some .resetPair => startUpWith .recovery .statusRead s
  | some .recovery => startUpWith .setWrap .setWrap s
  | some .setWrap => startUpWith .readHeader (.straightRead 0 8) s
  | some .readHeader =>
    match headerCount bytes with
    | some n => startUpWith .readEntries (.straightRead 8 (12 * n)) s
    | none => enterStore .absent s
  | some .readEntries => goOnExamining (rawEntries bytes) .none s
  | some (.wheelHeader e rest x) => wheelHeaderRead e rest x bytes s
  | some (.wheelIds t tables) =>
    readTableId (t + 1) tables
      { s with store := { s.store with wheelIndex := indexId (number bytes) t s.store.wheelIndex } }
  | some .userHeader => userHeaderRead bytes s
  | some (.userRecords _ check magic) => userRecordsRead check magic bytes s

/-! ### Saves (R13, R14) -/

/-- The 8 bytes of a record (section 9.8). -/
def UserWord.bytes (u : UserWord) : List Byte :=
  [byte (u.fingerprint / 65536), byte (u.fingerprint / 256), byte u.fingerprint, byte u.length]
    ++ two u.primary ++ [byte (flagBit u.capital 0), 0]

/-- R14, step 3: the program of page k of the area, for these record bytes. -/
def recordProgram (base : Nat) (records : List Byte) (k : Nat) : StoreOp :=
  let start := max 8 (256 * k)
  let stop := min (256 * (k + 1)) (8 + records.length)
  .pageProgram (base + start) ((records.drop (start - 8)).take (stop - start))

/-- R14: the number of pages that hold a record byte. -/
def recordPages (n : Nat) : Nat := if n = 0 then 0 else (8 + 8 * n + 255) / 256

/-- R14, step 4: the header's bytes. -/
def areaHeader (n : Nat) (records : List Byte) : List Byte :=
  let sum := byteSum records
  [0x55, 0x57] ++ two n ++ two (sum / 65536) ++ two sum

/-- R14: the steps of a save of a list into the area at a base. -/
def saveSteps (base : Nat) (users : List UserWord) : List StoreOp :=
  let records := users.flatMap (·.bytes)
  [.sectorErase base, .sectorErase (base + 4096)]
    ++ (List.range (recordPages users.length)).map (recordProgram base records)
    ++ [.pageProgram base (areaHeader users.length records)]

/-- R14: a step of the save has ended; after the last the save has succeeded. -/
def saveStepDone (s : State) : State :=
  match s.store.save with
  | none => s
  | some v =>
    match v.steps.drop 1 with
    | [] =>
      ({ s with store := { s.store with
          save := none
          flags := { s.store.flags with discarded := false, truncated := false } } } : State).notice v.issuer
        (Notice.saveDone 0)
    | more => { s with store := { s.store with save := some { v with steps := more } } }

/-! ### The end of an operation, and the busy limit (R1, R15) -/

/-- R1, R3, R8, R14, R137: the operation on the link has ended with these bytes. A report that fits no operation on the
link is disregarded (R15, log entry 5). -/
def storeOpDone (bytes : List Byte) (s : State) : State :=
  match s.store.link with
  | none => s
  | some x =>
    if bytes.length = x.op.answer then
      let s1 := { s with store := { s.store with link := none } }
      endStep (match x.owner with
        | .startUp => startUpStep bytes s1
        | .wheel => wheelRead bytes s1
        | .save => saveStepDone s1
        | .lookup => lookupRead bytes s1)
    else s

/-- R15: the busy limit of the operation on the link has expired. Its notices join in the order Store State, Check Result
of the lost queries, Wheel Loaded, Save Done (log entry 45). -/
def storeFault (s : State) : State :=
  let s1 := enterStore .faulted { s with store := { s.store with link := none } }
  match s1.store.save with
  | none => s1
  | some v =>
    ({ s1 with store := { s1.store with save := none } } : State).notice v.issuer (Notice.saveDone 1)

/-- The busy limit runs. -/
def Store.polling (st : Store) : Bool :=
  match st.link with
  | some x => x.limit.isSome
  | none => false

/-- R15. -/
def busyExpiry (s : State) : State := if s.store.polling then endStep (storeFault s) else s

end Sys2Proof.Machine
end

