-- ==== Sys2Proof/Machine/Compose.lean ====
section
/-! DEFINITION. The Line Composer at work (sections 2.3 to 2.7): taking a stroke, the claim, Direct mode, Line mode, the
end of a line and its conversion. -/

namespace Sys2Proof.Machine

/-! ### Shared pieces -/

/-- R24: the refusal record after one more refusal. -/
def RefusalRecord.add (r : RefusalRecord) (code : Status) : RefusalRecord where
  code := some code
  count := min 255 (r.count + 1)

/-- R24: a stroke taken from port `p` is refused: it is recorded, and the Refuse tone is requested. -/
def refuseStroke (p : Port) (code : Status) (s : State) : State :=
  let c := s.composer
  ({ s with composer := match p with
      | .console => { c with consoleRefusals := c.consoleRefusals.add code }
      | .link => { c with linkRefusals := c.linkRefusals.add code } } : State).tone .refuse

/-- The Wrap setting of a port (R42). -/
def FormatRecord.wrapOf (f : FormatRecord) : Port → Bool
  | .console => f.consoleWrap
  | .link => f.linkWrap

/-- The Justify setting of a port (R42). -/
def FormatRecord.justifyOf (f : FormatRecord) : Port → Bool
  | .console => f.consoleJustify
  | .link => f.linkJustify

/-- The stamp of the next cell of a line (log entry 28). -/
def nextStamp (cells : List Cell) : Nat := cells.foldl (fun n c => max n (c.stamp + 1)) 0

/-- R36: the margin bell, at a Character with this right edge. -/
def ringBell (edge : Nat) (s : State) : State :=
  if !s.line.bell && inZone s.format edge then
    ({ s with line := { s.line with bell := true } } : State).tone .bell
  else s

/-- A Stroke Job of the working line (R29): its orders, its dropped count, its line-ending flag. -/
def strokeJob (s : State) (orders : List Order) (dropped : Nat) (lineEnding : Bool) : Job :=
  { Job.empty .stroke .console with
    serial := some s.line.serial, orders := orders, dropped := dropped, lineEnding := lineEnding }

/-- R55, R62, R66: the strikes of a Direct-mode stroke that are kept, as orders; with none, a Move to the compose
position the stroke leaves. -/
def keptOrders (strikes : List Strike) (leaves : Nat) : List Order :=
  match strikes.filter (·.onPlaten) with
  | [] => [.move leaves]
  | kept => kept.map .strike

/-- R62: the dropped count of one cell. -/
def droppedOf (strikes : List Strike) : Nat := if strikes.all (·.onPlaten) then 0 else 1

/-! ### The claim (R19, R20, R26) -/

/-- R26: the mode in which port `p` would claim a Free line. -/
def claimMode (p : Port) (s : State) : EntryMode :=
  match p with
  | .console => s.options.entryMode
  | .link => .line

/-- R19, R20: the line of a claim. -/
def claimedLine (p : Port) (serial : Nat) (mode : EntryMode) : WorkingLine :=
  { WorkingLine.free with phase := .composing, holder := some p, serial := serial, mode := mode }

/-- R19, R20, R26, R144: a Free line is claimed for port `p`. -/
def claim (p : Port) (s : State) : State :=
  let s1 := { s with
    line := claimedLine p s.composer.nextSerial (claimMode p s)
    composer := { s.composer with nextSerial := serialAfter s.composer.nextSerial } }
  relayLine (resolveFragments p s1)

/-- R26: a stroke that does not claim. -/
def Stroke.edits (k : Stroke) : Bool :=
  k.kind == .function .delete || k.kind == .function .cursorLeft || k.kind == .function .cursorRight

/-! ### Direct mode (R29, R30) -/

/-- The Direct-mode cell at a position (R30). -/
def cellAt (cells : List Cell) (x : Nat) : Option Nat := cells.findIdx? (·.position == x)

/-- A cell inserted at an index. -/
def insertAt (cells : List Cell) (i : Nat) (c : Cell) : List Cell := cells.take i ++ c :: cells.drop i

/-- A new cell for a stroke, at a position with a width. -/
def newCell (cells : List Cell) (kind : CellKind) (code : Byte) (k : Stroke) (position width : Nat) : Cell where
  kind := kind
  code := code
  underline := k.underline
  bold := k.bold
  width := width
  position := position
  stamp := nextStamp cells

/-- R30, R131: the cell list of a Direct-mode line takes a cell at a position no cell holds. -/
def directInsert (i : Nat) (c : Cell) (s : State) : State :=
  let s1 := { s with line := { s.line with cells := insertAt s.line.cells i c } }
  if i = s.line.cells.length then extendSpelling s1 else unmapLine s1

/-- R30, R131: a Character replaces the cell at its position. -/
def directReplace (i : Nat) (c : Cell) (s : State) : State :=
  editSpelling { s with line := { s.line with
    cells := s.line.cells.set i c
    generation := (s.line.generation + 1) % 65536 } }

/-- R29, R30: a Character in Direct mode. One that is past the margin and finds 160 cells is refused with Margin (log
entry 48). -/
def directCharacter (m : PetalMap) (code : Byte) (k : Stroke) (s : State) : State :=
  let x := s.composer.position
  let w := advanceOf s.format m code
  let limit := if s.line.marginRelease then Config.platenWidth else s.format.right
  let held := cellAt s.line.cells x
  if limit < x + w then refuseStroke .console .margin s
  else if held.isNone && Config.lineCells ≤ s.line.cells.length then refuseStroke .console .full s
  else
    let i := held.getD (directCursor s.line.cells x)
    let c := newCell s.line.cells .character code k x w
    let strikes := cellStrikes s.format m s.line.rise i c
    let job := strokeJob s (keptOrders strikes (x + w)) (droppedOf strikes) false
    let s1 := ringBell (x + w) s
    let s2 := if held.isSome then directReplace i c s1 else directInsert i c s1
    let s3 := if (m.find code).isNone then s2.notice .console (Notice.missingCharacter code s2.line.serial) else s2
    appendJob job (setPosition (x + w) s3)

/-- R29, R30: a Space in Direct mode, with the checks in the same order (log entry 48). Where a cell holds the position, the
underscores of an underlined Space carry that cell's index (DESIGN CHOICE, log entry 69). -/
def directSpace (m : PetalMap) (k : Stroke) (s : State) : State :=
  let x := s.composer.position
  let w := spaceWidth s.format m
  let held := cellAt s.line.cells x
  if Config.platenWidth < x + w then refuseStroke .console .margin s
  else if held.isNone && Config.lineCells ≤ s.line.cells.length then refuseStroke .console .full s
  else
    let i := held.getD (directCursor s.line.cells x)
    let strikes := if k.underline then underscoreStrikes s.format m s.line.rise i x w else []
    let job := strokeJob s (keptOrders strikes (x + w)) (droppedOf strikes) false
    let s1 := if held.isSome then s else directInsert i (newCell s.line.cells .space 0x20 k x w) s
    appendJob job (setPosition (x + w) s1)

/-- R55: the newest cell whose right edge is a position. -/
def newestEnding (cells : List Cell) (x : Nat) : Option Cell :=
  (cells.filter (·.rightEdge == x)).foldl (fun best c =>
    match best with
    | none => some c
    | some b => if b.stamp ≤ c.stamp then some c else best) none

/-- R29: where a Backspace goes. -/
def backspaceTo (m : PetalMap) (s : State) : Nat :=
  let x := s.composer.position
  match newestEnding s.line.cells x with
  | some c => x - c.width
  | none => x - spaceWidth s.format m

/-- R29: a stroke that only moves the carrier. -/
def directMove (x : Nat) (s : State) : State := appendJob (strokeJob s [.move x] 0 false) (setPosition x s)

/-- R29: an Index of one half-line. -/
def directIndex (rise : Int) (feed : Int) (s : State) : State :=
  if rise < -4 || 4 < rise then refuseStroke .console .range s
  else
    let job := strokeJob s [.feed feed] 0 false
    appendJob job { s with line := { s.line with rise := rise } }

/-- R29: the Stroke Job of a Direct-mode Return. -/
def returnJob (s : State) : Job :=
  strokeJob s [.move s.format.left, .feed (s.format.lineSpacing + s.line.rise)] 0 true

/-- R29, R38: a Direct-mode line of the console is released with its Return job. -/
def releaseDirect (s : State) : State :=
  setPosition s.format.left (freeLine .console (startPrinting s.line.serial (appendJob (returnJob s) s)))

/-- R29, R30, R41: a stroke in Direct mode. -/
def composeDirect (m : PetalMap) (k : Stroke) (s : State) : State :=
  match k.kind with
  | .character code => directCharacter m code k s
  | .space => directSpace m k s
  | .function .backspace => directMove (backspaceTo m s) s
  | .function .tab =>
    (match nextTab s.format s.composer.position with
      | some t => directMove t s
      | none => refuseStroke .console .range s)
  | .function .indexUp => directIndex (s.line.rise + 1) (-1) s
  | .function .indexDown => directIndex (s.line.rise - 1) 1 s
  | .function .marginRelease => { s with line := { s.line with marginRelease := true } }
  | .function .carriageReturn =>
    if s.lift.away then refuseStroke .console .away s else releaseDirect (lineEndSpelling true s)
  | .function .center => refuseStroke .console .notInMode s
  | .function .delete => refuseStroke .console .notInMode s
  | .function .cursorLeft => refuseStroke .console .notInMode s
  | .function .cursorRight => refuseStroke .console .notInMode s

/-! ### Line mode (R31 to R35) -/

/-- R31: a cell is inserted at the cursor. -/
def lineInsert (c : Cell) (s : State) : State :=
  let atEnd := s.line.cursor = s.line.cells.length
  let s1 := relayLine { s with line := { s.line with
    cells := insertAt s.line.cells s.line.cursor c
    cursor := s.line.cursor + 1
    generation := if atEnd then s.line.generation else (s.line.generation + 1) % 65536 } }
  if atEnd then extendSpelling s1 else editSpelling s1

/-- R34, 1: the index of the wrap Space. -/
def wrapSpace (cells : List Cell) : Option Nat :=
  let start := afterLastTab cells
  ((List.range cells.length).filter fun i =>
    start ≤ i && ((cells[i]?).map (·.kind == .space)).getD false
      && ((cells.take i).drop start).any (·.kind == .character)).getLast?

/-- R34, 4: the cells before the run of Spaces that ends at the wrap Space. -/
def cellsBefore (cells : List Cell) (i : Nat) : List Cell :=
  let front := cells.take i
  front.take (front.length - (front.reverse.takeWhile (·.kind == .space)).length)

/-- R34: a Character at the end that would pass Rm, with Wrap on and no Margin Release. The cut line's cursor stands at its
end, which sets the compose position (log entry 60). A line that already holds 160 cells wraps like any other: Full is
not tested (DESIGN CHOICE, log entry 71). -/
def wrapLine (p : Port) (m : PetalMap) (c : Cell) (s : State) : State :=
  match wrapSpace s.line.cells with
  | none => refuseStroke p .margin s
  | some i =>
    let carry := layFrom s.format m s.format.left (s.line.cells.drop (i + 1) ++ [c])
    if s.format.right < extentOf s.format.left carry then refuseStroke p .margin s
    else
      let kept := cellsBefore s.line.cells i
      lineEndSpelling false (cutWords (relayLine { s with line := { s.line with
        phase := .waiting
        cells := kept
        cursor := kept.length
        endCause := some .wrap
        carry := some carry } }))

/-- R31, R34 to R36: a Character, Space or Tab in Line mode. The Full of R31 refuses an insertion, not a Character that
wraps (DESIGN CHOICE, log entry 71). -/
def lineCell (p : Port) (m : PetalMap) (kind : CellKind) (code : Byte) (k : Stroke) (s : State) : State :=
  let c := newCell s.line.cells kind code k 0 0
  let atEnd := s.line.cursor = s.line.cells.length
  let f := s.format
  let extent := extentOf f.left (layFrom f m f.left (insertAt s.line.cells s.line.cursor c))
  let insert (t : State) : State :=
    if Config.lineCells ≤ t.line.cells.length then refuseStroke p .full t
    else
      let u := lineInsert c t
      if kind = .character && atEnd then ringBell extent u else u
  if kind != .character && atEnd then
    if Config.platenWidth < extent then refuseStroke p .margin s else insert s
  else if extent ≤ f.right then insert s
  else if s.line.marginRelease then
    if Config.platenWidth < extent then refuseStroke p .margin s else insert s
  else if atEnd && f.wrapOf p then wrapLine p m c s
  else refuseStroke p .margin s

/-- R32: Delete. -/
def lineDelete (s : State) : State :=
  if s.line.cursor = 0 then s
  else editSpelling (relayLine { s with line := { s.line with
    cells := s.line.cells.eraseIdx (s.line.cursor - 1)
    cursor := s.line.cursor - 1
    generation := (s.line.generation + 1) % 65536 } })

/-- R32: a cursor move. -/
def moveCursor (cursor : Nat) (s : State) : State := relayLine { s with line := { s.line with cursor := cursor } }

/-- R145: Spell Hold applies to a Line-mode line ended by Return. -/
def spellHoldApplies (s : State) : Bool :=
  s.line.holder == some .console && s.options.spellHold && s.options.spelling

/-- R37: a Line-mode line ends by Return. In Ending the hold limit timer stops (R27): a line that is Held in the same step
has its full length again. -/
def endByReturn (s : State) : State :=
  let s1 := lineEndSpelling true
    { s with line := { s.line with endCause := some .carriageReturn }, holdTimer := none }
  { s1 with line := { s1.line with phase := if spellHoldApplies s1 then .checking else .waiting } }

/-- R31, R32: a stroke in Line mode, in Composing. -/
def composeLine (p : Port) (m : PetalMap) (k : Stroke) (s : State) : State :=
  match k.kind with
  | .character code => lineCell p m .character code k s
  | .space => lineCell p m .space 0x20 k s
  | .function .tab => lineCell p m .tab 0x09 k s
  | .function .delete => lineDelete s
  | .function .cursorLeft => moveCursor (s.line.cursor - 1) s
  | .function .cursorRight => moveCursor (min s.line.cells.length (s.line.cursor + 1)) s
  | .function .center => { s with line := { s.line with center := true } }
  | .function .marginRelease => { s with line := { s.line with marginRelease := true } }
  | .function .carriageReturn => endByReturn s
  | .function .backspace => refuseStroke p .notInMode s
  | .function .indexUp => refuseStroke p .notInMode s
  | .function .indexDown => refuseStroke p .notInMode s

/-- R39: a stroke in Held. A line that goes back to Composing keeps its end cause until its next end (log entry 47). At a
Return no second check is made: a word still Unchecked without a cause is not tried, although R130 tries such words
whenever a line enters Ending, and a forced end of the Held line does try them (DESIGN CHOICE, log entry 76). -/
def composeHeld (p : Port) (m : PetalMap) (k : Stroke) (s : State) : State :=
  match k.kind with
  | .function .carriageReturn => { s with line := { s.line with phase := .waiting } }
  | .function .cursorLeft => composeLine p m k s
  | .function .cursorRight => composeLine p m k s
  | _ => composeLine p m k { s with line := { s.line with phase := .composing } }

/-! ### Taking a stroke (R25, R26) -/

/-- R25: the head stroke of port `p` would be composed in Direct mode. -/
def wouldBeDirect (p : Port) (s : State) : Bool :=
  if s.line.phase = .free then claimMode p s == .direct else s.line.mode == .direct

/-- R25: the composer can take the head stroke of port `p`. -/
def canTake (p : Port) (s : State) : Bool :=
  !(s.composer.ring p).isEmpty
    && (s.line.phase == .free
        || ((s.line.phase == .composing || s.line.phase == .held) && s.line.holder == some p))
    && (!s.lift.away || p == .console)
    && s.engine.petalMap.isSome
    && (!wouldBeDirect p s || (s.engine.room && s.engine.state != .fault))

/-- R26: the port whose head stroke is taken, if any can be. -/
def portToServe (s : State) : Option Port :=
  match canTake .console s, canTake .link s with
  | true, true => if s.composer.lastHolder = some .console then some .link else some .console
  | true, false => some .console
  | false, true => some .link
  | false, false => none

/-- R26 to R39: a stroke taken from port `p` is composed. -/
def composeTaken (p : Port) (m : PetalMap) (k : Stroke) (s : State) : State :=
  if s.line.phase = .free && k.edits then refuseStroke p .noLine s
  else
    let s1 := if s.line.phase = .free then claim p s else s
    if s1.line.mode = .direct then composeDirect m k s1
    else if s1.line.phase = .held then composeHeld p m k s1
    else composeLine p m k s1

/-- R25: the composer takes a stroke, when one can be taken. -/
def composeStep (s : State) : State :=
  match portToServe s, s.engine.petalMap with
  | some p, some m =>
    (match s.composer.ring p with
      | k :: rest =>
        endStep (composeTaken p m k { s with composer := s.composer.setRing p rest })
      | [] => s)
  | _, _ => s

/-! ### Conversion (R38) -/

/-- R61: the Move that opens a Line Job. -/
def openingMove (f : FormatRecord) (strikes : List Strike) : Nat :=
  match strikes with
  | k :: _ => k.position
  | [] => f.left

/-- R38, R61: the Line Job of laid-out cells. -/
def lineJob (p : Port) (m : PetalMap) (laid : List Cell) (s : State) : Job :=
  let (strikes, dropped) := lineStrikes s.format m 0 laid
  { Job.empty .line p with
    serial := some s.line.serial
    orders := .move (openingMove s.format strikes) :: strikes.map .strike ++ [.feed s.format.lineSpacing]
    dropped := dropped }

/-- R38, 4: the line that holds the carry. -/
def carriedLine (p : Port) (serial : Nat) (mode : EntryMode) (carry : List Cell) : WorkingLine :=
  { claimedLine p serial mode with cells := carry, cursor := carry.length }

/-- R38, 4: the line is released, or after a Wrap the claim passes to the carried line, whose complete words are queued at
once (log entry 61). -/
def afterConversion (p : Port) (s : State) : State :=
  match s.line.carry with
  | some carry =>
    let s1 := { s with
      line := carriedLine p s.composer.nextSerial s.line.mode carry
      composer := { s.composer with nextSerial := serialAfter s.composer.nextSerial }
      display := { s.display with window := 0 } }
    rebuildWords false (relayLine s1)
  | none => setPosition s.format.left (freeLine p s)

/-- R52, R58: the notices of a conversion, Missing Character before Justify Skipped (log entry 50). -/
def conversionNotices (p : Port) (m : PetalMap) (layout : Layout) (s : State) : State :=
  let s1 := (missingCodes m layout.cells).foldl
    (fun t c => t.notice p (Notice.missingCharacter c s.line.serial)) s
  if layout.skipped then s1.notice p (Notice.justifySkipped s.line.serial) else s1

/-- R38: the conversion of a Line-mode line. -/
def convertLine (p : Port) (m : PetalMap) (s : State) : State :=
  let layout := layoutAtConversion s.format m s.line (s.format.justifyOf p)
  let s1 := appendJob (lineJob p m layout.cells s) (conversionNotices p m layout s)
  afterConversion p (startPrinting s.line.serial s1)

/-- R38: the conditions of a conversion. -/
def canConvert (s : State) : Bool :=
  s.line.phase == .waiting && s.engine.petalMap.isSome && s.engine.room && s.engine.state != .fault

/-- R38: the line waiting in Ending is converted, when it can be. -/
def convertStep (s : State) : State :=
  match canConvert s, s.engine.petalMap, s.line.holder with
  | true, some m, some p =>
    endStep (if s.line.mode = .direct then releaseDirect s else convertLine p m s)
  | _, _, _ => s

/-! ### The forced end (R28) -/

/-- R28: the hold limit of a line held by port `p` has expired. It is a line end (R130) for a Held line too: its words
still Unchecked without a cause are tried (DESIGN CHOICE, log entry 76). -/
def forceEnd (p : Port) (s : State) : State :=
  let s1 := lineEndSpelling false { s with line := { s.line with endCause := some .forced } }
  ({ s1 with line := { s1.line with phase := .waiting } } : State).notice p (Notice.lineForced s1.line.serial)

/-- R28: the expiry of the hold limit, while it runs. -/
def holdExpiry (s : State) : State :=
  match s.holdTimer, s.line.holder with
  | some _, some p => endStep (forceEnd p { s with holdTimer := none })
  | _, _ => s

end Sys2Proof.Machine
end

