-- ==== Sys2Proof/Machine/Settings.lean ====
section
/-! DEFINITION. Options, partition, notices, tones and Read Status (R167, R181, R183, R187 to R192). -/

namespace Sys2Proof.Machine

/-- The outcome of a command block written whole to a port (log entry 4): `owner` is what its block does with it. -/
def runBlock (p : Port) (code : Byte) (count : Nat) (owner : State → State × Reply) (s : State) :
    Host.Outcome State Fault Refusal :=
  .next (offer p code count owner s)

/-- A command that is refused changes nothing (R176). -/
def refuse (st : Status) (s : State) : State × Reply := (s, .plain st)

/-! ### Read Status (R183) -/

/-- R24: the stroke refusal record of a port. -/
def Composer.refusals (c : Composer) : Port → RefusalRecord
  | .console => c.consoleRefusals
  | .link => c.linkRefusals

/-- R24: the composer with a port's refusal record replaced. -/
def Composer.setRefusals (c : Composer) (p : Port) (r : RefusalRecord) : Composer :=
  match p with
  | .console => { c with consoleRefusals := r }
  | .link => { c with linkRefusals := r }

/-- R183: the 30 bytes of the snapshot (section 9.8). -/
def statusData (p : Port) (s : State) : List Byte :=
  let e := s.engine
  let r := s.composer.refusals p
  [byte e.state.code, byte (holderCode s.line.holder)] ++ two s.line.serial
    ++ [byte (s.line.phase.code + flagBit s.lift.away 2)]
    ++ two s.composer.position ++ two e.carrier ++ twoSigned e.platen ++ twoSigned e.pageLines
    ++ [byte e.queue.length, byte e.ribbonKind.code] ++ two e.ribbon ++ two e.tape
    ++ [byte s.store.state.code, s.store.flags.byte, byte s.memory.records.length] ++ two s.freeEntries
    ++ [byte s.spelling.suspects.length] ++ two s.spelling.userWords.length
    ++ [match r.code with | some c => c.code | none => 0xFF, byte r.count, byte (s.port p).lost]

/-- R183. -/
def cmdReadStatus (p : Port) (s : State) : State × Reply :=
  let v := s.port p
  let s1 := { s with composer := s.composer.setRefusals p { s.composer.refusals p with count := 0 } }
  (s1.setPort p { v with lost := 0 }, { status := .done, data := statusData p s })

def execReadStatus (p : Port) (s : State) : Host.Outcome State Fault Refusal :=
  runBlock p 0x01 0 (cmdReadStatus p) s

/-! ### Set Notices (R181) -/

/-- R181. The first byte carries the low kinds, 0xA0 to 0xA7 (DESIGN CHOICE, log entry 64). -/
def cmdSetNotices (p : Port) (b0 b1 b2 : Byte) (s : State) : State × Reply :=
  if 8 ≤ b2.toNat then refuse .range s
  else
    let set : BitVec 19 := BitVec.ofNat 19 (b0.toNat + 256 * b1.toNat + 65536 * b2.toNat)
    let v := s.port p
    (s.setPort p { v with enable := set }, .plain .done)

def execSetNotices (p : Port) (b0 b1 b2 : Byte) (s : State) : Host.Outcome State Fault Refusal :=
  runBlock p 0x02 3 (cmdSetNotices p b0 b1 b2) s

/-! ### Await completion (R45), which Set Option shares -/

/-- Keys Collected for a request: Count 0, TimedOut 1, Cancelled 2. -/
def keysNotice (r : AwaitRequest) (cause : Nat) (s : State) : State :=
  s.notice .link (Notice.keysCollected r.tag cause r.collected.length (r.collected.flatMap (·.encode)))

/-- R45: the request at a place in the pending list completes with a cause. -/
def completeAwait (place : Nat) (r : AwaitRequest) (cause : Nat) (s : State) : State :=
  keysNotice r cause
    { s with composer := { s.composer with awaits := s.composer.awaits.eraseIdx place } }

/-- R45: every pending request completes Cancelled, the oldest first (log entry 49). -/
def cancelAwaits (s : State) : State :=
  s.composer.awaits.foldl (fun t r => keysNotice r 2 t) { s with composer := { s.composer with awaits := [] } }

/-! ### Set Option (R187, R188) -/

/-- R132, R146: the working line leaves Checking or Held for Waiting. The words of a Held line that are still Unchecked
are not tried, as at a second Return (DESIGN CHOICE, log entry 76). -/
def stopHolding (s : State) : State :=
  if s.line.phase = .checking || s.line.phase = .held then { s with line := { s.line with phase := .waiting } } else s

/-- R132: the spelling setting of port `p` has been stored. It is no edit: a fragment joined to a line with no cells stays
joined (log entry 26). For the value on, the rebuild drops the line's lookups and its suspects of place Working, as
steps 1 and 2 of R131 do (DEDUCED, log entry 67); while Away these are the lookups still running for the reopened serial
(DESIGN CHOICE, log entry 68). -/
def spellingStored (p : Port) (on : Bool) (s : State) : State :=
  if s.line.holder = some p then
    if on then rebuildWords false (dropLineSpelling s.line.serial s)
    else
      let s1 := dropLineSpelling s.line.serial s
      stopHolding { s1 with line := { s1.line with words := [] } }
  else s

/-- R188: the options. -/
inductive OptionId where
  | entryMode | keyboardSharing | spelling | spellHold | restDelay | holdLimit | doneTone | linkSpelling | wrap
  | justify
deriving DecidableEq, Repr

def optionOf (id : Byte) : Option OptionId :=
  match id.toNat with
  | 0x01 => some .entryMode
  | 0x02 => some .keyboardSharing
  | 0x03 => some .spelling
  | 0x04 => some .spellHold
  | 0x05 => some .restDelay
  | 0x06 => some .holdLimit
  | 0x07 => some .doneTone
  | 0x10 => some .linkSpelling
  | 0x20 => some .wrap
  | 0x21 => some .justify
  | _ => none

/-- R188: the scope of an option. -/
def OptionId.scope (o : OptionId) (p : Port) : Bool :=
  match o with
  | .wrap => true
  | .justify => true
  | .linkSpelling => p == .link
  | _ => p == .console

/-- R188: the range of a numeric option. -/
def OptionId.range : OptionId → Option (Nat × Nat)
  | .restDelay => some (0, 30)
  | .holdLimit => some (1, 60)
  | _ => none

/-- R42, R188: the Wrap of a port. -/
def FormatRecord.setWrap (f : FormatRecord) (p : Port) (v : Bool) : FormatRecord :=
  match p with
  | .console => { f with consoleWrap := v }
  | .link => { f with linkWrap := v }

/-- R42, R188: the Justify of a port. -/
def FormatRecord.setJustify (f : FormatRecord) (p : Port) (v : Bool) : FormatRecord :=
  match p with
  | .console => { f with consoleJustify := v }
  | .link => { f with linkJustify := v }

/-- R188: an on/off or mode option is stored (for Entry Mode, on is Line), with the effects of its change. -/
def storeSwitch (o : OptionId) (p : Port) (v : Bool) (s : State) : State :=
  match o with
  | .entryMode => { s with options := { s.options with entryMode := if v then .line else .direct } }
  | .keyboardSharing =>
    let s1 := { s with options := { s.options with keyboardSharing := v } }
    if v then s1 else cancelAwaits s1
  | .spelling => settle (spellingStored .console v { s with options := { s.options with spelling := v } })
  | .spellHold =>
    let s1 := { s with options := { s.options with spellHold := v } }
    if v then s1 else stopHolding s1
  | .doneTone => { s with options := { s.options with doneTone := v } }
  | .linkSpelling => settle (spellingStored .link v { s with options := { s.options with linkSpelling := v } })
  | .wrap => { s with format := s.format.setWrap p v }
  | .justify => { s with format := s.format.setJustify p v }
  | .restDelay => s
  | .holdLimit => s

/-- R188: a numeric option is stored. -/
def storeNumber (o : OptionId) (n : Nat) (s : State) : State :=
  match o with
  | .restDelay => restartRest { s with options := { s.options with restDelay := n } }
  | .holdLimit => { s with options := { s.options with holdLimit := n } }
  | _ => s

/-- R187. -/
def cmdSetOption (p : Port) (id : Byte) (value : Half) (s : State) : State × Reply :=
  match optionOf id with
  | none => refuse .range s
  | some o =>
    if !o.scope p then refuse .notPermitted s
    else match o.range with
      | some (least, most) =>
        let n := clamp least most value.toNat
        (storeNumber o n s, if n = value.toNat then .plain .done else { status := .clamped, data := two n })
      | none =>
        match onOff value with
        | none => refuse .range s
        | some v => (storeSwitch o p v s, .plain .done)

def execSetOption (p : Port) (id : Byte) (value : Half) (s : State) : Host.Outcome State Fault Refusal :=
  runBlock p 0x03 3 (cmdSetOption p id value) s

/-! ### Partition (R190 to R192) -/

/-- R190: the bytes of work memory that a partition uses. -/
def Partition.bytes (q : Partition) : Nat := 8 * q.pool + 8 * q.userWords + 2 * q.linkRing + 2 * q.consoleRing

/-- R190: a partition is valid. -/
def Partition.valid (q : Partition) : Bool :=
  128 ≤ q.pool && q.pool ≤ 1536 && q.userWords ≤ 512 && 64 ≤ q.linkRing && q.linkRing ≤ 2048
    && 32 ≤ q.consoleRing && q.consoleRing ≤ 512 && q.bytes ≤ Config.workMemory

/-- R191: the checks that are answered with Busy. -/
def partitionBusy (s : State) : Bool :=
  s.line.phase != .free || !s.composer.consoleRing.isEmpty || !s.composer.linkRing.isEmpty
    || !s.engine.queue.isEmpty || s.lift.away || s.lift.owed
    || s.store.state == .starting || s.store.save.isSome

/-- R192. -/
def cmdPartition (pool words linkRing consoleRing : Half) (s : State) : State × Reply :=
  let q : Partition :=
    { pool := pool.toNat, userWords := words.toNat, linkRing := linkRing.toNat, consoleRing := consoleRing.toNat }
  if partitionBusy s then refuse .busy s
  else if !q.valid then refuse .range s
  else if q.userWords < s.spelling.userWords.length then refuse .full s
  else
    let s1 := emptyMemory { s with partition := q }
    ({ s1 with spelling := { s1.spelling with suspects := [] } }, .plain .done)

def execPartition (p : Port) (pool words linkRing consoleRing : Half) (s : State) :
    Host.Outcome State Fault Refusal :=
  runBlock p 0x04 8 (cmdPartition pool words linkRing consoleRing) s

/-! ### Set Tones (R167) -/

/-- The Tone Unit with a tone's voice replaced. -/
def ToneUnit.setVoice (t : ToneUnit) (name : ToneName) (v : Voice) : ToneUnit :=
  match name with
  | .refuse => { t with refuse := v }
  | .suspect => { t with suspect := v }
  | .bell => { t with bell := v }
  | .done => { t with done := v }

/-- R167. -/
def cmdSetTones (tone divider duty : Byte) (s : State) : State × Reply :=
  match toneOf tone, dutyOf duty with
  | some name, some d =>
    let n := max 1 divider.toNat
    ({ s with tones := s.tones.setVoice name { divider := n, duty := d } },
      if divider = 0 then { status := .clamped, data := [byte n] } else .plain .done)
  | _, _ => refuse .range s

def execSetTones (p : Port) (tone divider duty : Byte) (s : State) : Host.Outcome State Fault Refusal :=
  runBlock p 0x62 3 (cmdSetTones tone divider duty) s

end Sys2Proof.Machine
end

