-- ==== Sys2Proof/Machine/Format.lean ====
section
/-! DEFINITION. The Format commands (R42, R47 to R49). -/

namespace Sys2Proof.Machine

/-- R42: a command that changes the Format Record is refused with Busy from the port that does not hold a claimed
line. -/
def formatCommand (p : Port) (act : State → State × Reply) (s : State) : State × Reply :=
  if ownsFormat p s then act s else refuse .busy s

/-- The Format Record is replaced; a Line-mode line follows it at once (R42, R50). -/
def setFormat (f : FormatRecord) (s : State) : State := relayLine { s with format := f }

/-- R48: margins are in range. -/
def marginsFit (left right : Nat) : Bool := left ≤ 1440 && 120 ≤ right && right ≤ 1560 && left + 120 ≤ right

/-- R33, R50: a new left margin is due to be the compose position of a Free line (log entry 11). -/
def marginsMoved (s : State) : State :=
  if s.line.phase = .free then { s with composer := { s.composer with leftDue := true } } else s

/-- R48. -/
def cmdSetMargins (p : Port) (left right : Half) (s : State) : State × Reply :=
  formatCommand p (fun t =>
    if marginsFit left.toNat right.toNat then
      (setFormat { t.format with left := left.toNat, right := right.toNat } (marginsMoved t), .plain .done)
    else refuse .range t) s

def execSetMargins (p : Port) (left right : Half) (s : State) : Host.Outcome State Fault Refusal :=
  runBlock p 0x20 4 (cmdSetMargins p left right) s

/-- R48: a stop joins at its place in ascending order. -/
def insertStop (x : Nat) : List Nat → List Nat
  | [] => [x]
  | y :: rest => if x < y then x :: y :: rest else y :: insertStop x rest

/-- R48. -/
def cmdSetTab (p : Port) (position : Half) (s : State) : State × Reply :=
  formatCommand p (fun t =>
    let x := position.toNat
    if 1559 < x then refuse .range t
    else if t.format.tabs.contains x then refuse .done t
    else if 16 ≤ t.format.tabs.length then refuse .full t
    else (setFormat { t.format with tabs := insertStop x t.format.tabs } t, .plain .done)) s

def execSetTab (p : Port) (position : Half) (s : State) : Host.Outcome State Fault Refusal :=
  runBlock p 0x21 2 (cmdSetTab p position) s

/-- R48. -/
def cmdClearTab (p : Port) (position : Half) (s : State) : State × Reply :=
  formatCommand p (fun t =>
    let x := position.toNat
    if t.format.tabs.contains x then
      (setFormat { t.format with tabs := t.format.tabs.filter (· != x) } t, .plain .done)
    else refuse .noTarget t) s

def execClearTab (p : Port) (position : Half) (s : State) : Host.Outcome State Fault Refusal :=
  runBlock p 0x22 2 (cmdClearTab p position) s

/-- R48. -/
def cmdClearAllTabs (p : Port) (s : State) : State × Reply :=
  formatCommand p (fun t => (setFormat { t.format with tabs := [] } t, .plain .done)) s

def execClearAllTabs (p : Port) (s : State) : Host.Outcome State Fault Refusal :=
  runBlock p 0x23 0 (cmdClearAllTabs p) s

/-- R49. -/
def cmdSetSpacing (p : Port) (mode : Byte) (s : State) : State × Reply :=
  formatCommand p (fun t =>
    match spacingOf mode with
    | some m => (setFormat { t.format with spacing := m } t, .plain .done)
    | none => refuse .range t) s

def execSetSpacing (p : Port) (mode : Byte) (s : State) : Host.Outcome State Fault Refusal :=
  runBlock p 0x24 1 (cmdSetSpacing p mode) s

/-- R49: Done, or Clamped with the stored value when it differs from the one sent. -/
def clampedReply (sent stored : Nat) (data : List Byte) : Reply :=
  if stored = sent then .plain .done else { status := .clamped, data := data }

/-- R49. -/
def cmdSetLineSpacing (p : Port) (value : Byte) (s : State) : State × Reply :=
  formatCommand p (fun t =>
    let n := clamp 2 4 value.toNat
    (setFormat { t.format with lineSpacing := n } t, clampedReply value.toNat n [byte n])) s

def execSetLineSpacing (p : Port) (value : Byte) (s : State) : Host.Outcome State Fault Refusal :=
  runBlock p 0x25 1 (cmdSetLineSpacing p value) s

/-- R49. -/
def cmdSetImpression (p : Port) (value : Byte) (s : State) : State × Reply :=
  formatCommand p (fun t =>
    match impressionOf value with
    | some i => (setFormat { t.format with impression := i } t, .plain .done)
    | none => refuse .range t) s

def execSetImpression (p : Port) (value : Byte) (s : State) : Host.Outcome State Fault Refusal :=
  runBlock p 0x26 1 (cmdSetImpression p value) s

/-- R49. -/
def cmdSetMarginZone (p : Port) (value : Half) (s : State) : State × Reply :=
  formatCommand p (fun t =>
    let n := clamp 0 240 value.toNat
    (setFormat { t.format with zone := n } t, clampedReply value.toNat n (two n))) s

def execSetMarginZone (p : Port) (value : Half) (s : State) : Host.Outcome State Fault Refusal :=
  runBlock p 0x27 2 (cmdSetMarginZone p value) s

/-- R49. -/
def cmdSetPageLength (p : Port) (value : Byte) (s : State) : State × Reply :=
  formatCommand p (fun t =>
    let n := clamp 24 204 value.toNat
    (setFormat { t.format with pageLength := n } t, clampedReply value.toNat n [byte n])) s

def execSetPageLength (p : Port) (value : Byte) (s : State) : Host.Outcome State Fault Refusal :=
  runBlock p 0x28 1 (cmdSetPageLength p value) s

/-- R47: the data of Read Format (section 9.8). -/
def formatData (f : FormatRecord) : List Byte :=
  two f.left ++ two f.right ++ [byte f.tabs.length] ++ f.tabs.flatMap two
    ++ [byte f.spacing.code, byte f.lineSpacing, byte f.impression.code] ++ two f.zone ++ [byte f.pageLength]
    ++ [byte (flagBit f.consoleWrap 0 + flagBit f.consoleJustify 1 + flagBit f.linkWrap 2 + flagBit f.linkJustify 3)]

/-- R47. -/
def cmdReadFormat (s : State) : State × Reply := (s, { status := .done, data := formatData s.format })

def execReadFormat (p : Port) (s : State) : Host.Outcome State Fault Refusal :=
  runBlock p 0x29 0 cmdReadFormat s

end Sys2Proof.Machine
end

