-- ==== Sys2Proof/Machine/Keys.lean ====
section
/-! DEFINITION. Strokes at the rings' doors, Release Line and Await Keys (R22, R23, R40, R43 to R45). -/

namespace Sys2Proof.Machine

/-- R27: the holder has placed a stroke in its own ring: its hold limit starts again from full. -/
def placedBy (p : Port) (s : State) : State :=
  if s.line.holder = some p then { s with holdTimer := none } else s

/-- R21: the free room of a port's ring. -/
def ringRoom (p : Port) (s : State) : Nat := s.partition.ring p - (s.composer.ring p).length

/-- R21, R27: strokes join a ring at its tail. -/
def joinRing (p : Port) (strokes : List Stroke) (s : State) : State :=
  let s1 := { s with composer := s.composer.setRing p (s.composer.ring p ++ strokes) }
  if strokes.isEmpty then s1 else placedBy p s1

/-- R44: the echo copy of a routed stroke. -/
def echoStroke (k : Stroke) (s : State) : State :=
  if 0 < ringRoom .console s then joinRing .console [k] s else s.tone .refuse

/-- R44: a stroke routed to the oldest pending request. -/
def routeStroke (k : Stroke) (r : AwaitRequest) (others : List AwaitRequest) (s : State) : State :=
  let r1 := { r with collected := r.collected ++ [k] }
  let s1 := { s with composer := { s.composer with awaits := r1 :: others } }
  let s2 := if r.echo then echoStroke k s1 else s1
  if r1.collected.length = r.wanted then completeAwait 0 r1 0 s2 else s2

/-- R22, R44. -/
def cmdKeyStroke (b0 b1 : Byte) (s : State) : State × Reply :=
  match decodeStroke b0 b1 with
  | none => refuse .length s
  | some k =>
    match s.options.keyboardSharing, s.composer.awaits with
    | true, r :: others => (routeStroke k r others s, .plain .done)
    | _, _ =>
      if 0 < ringRoom .console s then (joinRing .console [k] s, .plain .done)
      else (s.tone .refuse, .plain .full)

def execKeyStroke (p : Port) (b0 b1 : Byte) (s : State) : Host.Outcome State Fault Refusal :=
  runBlock p 0x10 2 (cmdKeyStroke b0 b1) s

/-- R23. -/
def cmdTypeText (text : List Byte) (s : State) : State × Reply :=
  let r := readText { underline := s.composer.linkUnderline, bold := s.composer.linkBold } text
  if r.strokes.length ≤ ringRoom .link s then
    let s1 := joinRing .link r.strokes s
    ({ s1 with composer := { s1.composer with linkUnderline := r.state.underline, linkBold := r.state.bold } },
      { status := .done, data := [byte r.dropped] })
  else refuse .full s

def execTypeText (p : Port) (text : List Byte) (s : State) : Host.Outcome State Fault Refusal :=
  runBlock p 0x11 text.length (cmdTypeText text) s

/-- R40. -/
def cmdReleaseLine (p : Port) (s : State) : State × Reply :=
  match s.line.holder with
  | none => refuse .noLine s
  | some h =>
    if h ≠ p then refuse .busy s
    else if s.line.mode = .direct then refuse .notInMode s
    else (settle (discardLine s), .plain .done)

def execReleaseLine (p : Port) (s : State) : Host.Outcome State Fault Refusal :=
  runBlock p 0x12 0 (cmdReleaseLine p) s

/-- R43: pending requests and Keys Collected notices in the link's queue. -/
def awaitLoad (s : State) : Nat := s.composer.awaits.length + (s.link.queue.filter (·.kind == 0xA7)).length

/-- R43. An Echo other than 0 or 1 and a timeout above 32767 are refused with Range (log entry 10). -/
def cmdAwaitKeys (wanted : Byte) (timeout : Half) (echo : Byte) (s : State) : State × Reply :=
  if !s.options.keyboardSharing then refuse .notInMode s
  else if Config.awaitSlots ≤ awaitLoad s then refuse .full s
  else if wanted.toNat < 1 || 28 < wanted.toNat || 1 < echo.toNat || 32767 < timeout.toNat then refuse .range s
  else
    let c := s.composer
    let r : AwaitRequest :=
      { tag := c.awaitTag, wanted := wanted.toNat, collected := [], echo := echo == 1,
        timeout := if timeout = 0 then none else some timeout.toNat }
    ({ s with composer := { c with awaits := c.awaits ++ [r], awaitTag := (c.awaitTag + 1) % 256 } },
      { status := .done, data := [byte c.awaitTag] })

def execAwaitKeys (p : Port) (wanted : Byte) (timeout : Half) (echo : Byte) (s : State) :
    Host.Outcome State Fault Refusal :=
  runBlock p 0x13 4 (cmdAwaitKeys wanted timeout echo) s

/-- R45. -/
def cmdCancelAwait (s : State) : State × Reply := (cancelAwaits s, .plain .done)

def execCancelAwait (p : Port) (s : State) : Host.Outcome State Fault Refusal :=
  runBlock p 0x14 0 cmdCancelAwait s

/-- R45: the timeout of the request at a place in the pending list has expired. -/
def awaitExpiry (place : Nat) (s : State) : State :=
  match s.composer.awaits[place]? with
  | some r => if r.timeout.isSome then finish (completeAwait place r 1 s) else s
  | none => s

def execAwaitTimeout (place : Nat) (s : State) : Host.Outcome State Fault Refusal := .next (awaitExpiry place s)

end Sys2Proof.Machine
end

