-- ==== Sys2Proof/Machine/Motion.lean ====
section
/-! DEFINITION. The commands of the Strike Engine (R76, R77, R80, R85 to R87, R90). -/

namespace Sys2Proof.Machine

/-- R65, R76, R77: a Motion job of one order. -/
def motionJob (p : Port) (o : Order) : Job := { Job.empty .motion p with orders := [o] }

/-- R76: the checks of Form Feed and Feed, in the order of the text (log entry 12). -/
def feedRefusal (p : Port) (s : State) : Option Status :=
  if !ownsFormat p s then some .busy
  else if s.lift.away then some .away
  else if s.engine.state = .fault then some .busy
  else if !s.engine.room then some .busy
  else none

/-- R77. -/
def cmdFeed (p : Port) (count : Byte) (s : State) : State × Reply :=
  match feedRefusal p s with
  | some st => refuse st s
  | none =>
    let n := count.toInt
    if n = 0 || n < -16 || 16 < n then refuse .range s
    else (appendJob (motionJob p (.feed n)) s, .plain .started)

def execFeed (p : Port) (count : Byte) (s : State) : Host.Outcome State Fault Refusal :=
  runBlock p 0x30 1 (cmdFeed p count) s

/-- R76. -/
def cmdFormFeed (p : Port) (s : State) : State × Reply :=
  match feedRefusal p s with
  | some st => refuse st s
  | none => (appendJob (motionJob p .eject) s, .plain .started)

def execFormFeed (p : Port) (s : State) : Host.Outcome State Fault Refusal :=
  runBlock p 0x31 0 (cmdFormFeed p) s

/-- R90. -/
def cmdCancelPrinting (p : Port) (s : State) : State × Reply :=
  let r := cancelJobs p s
  (settle r.1, { status := .done, data := [byte r.2] })

def execCancelPrinting (p : Port) (s : State) : Host.Outcome State Fault Refusal :=
  runBlock p 0x32 0 (cmdCancelPrinting p) s

/-- R80: the reply to Rehome while Home, by engine state; `false` is Busy. -/
def rehomeTaken (e : Engine) : Bool :=
  match e.state with
  | .ready => e.queue.isEmpty
  | .resting => e.queue.isEmpty
  | .supplyOut => e.queue.isEmpty
  | .wheelFault => e.queue.isEmpty
  | .fault => true
  | .working => false
  | .homing => false
  | .wheelChange => false

/-- R80. -/
def cmdRehome (s : State) : State × Reply :=
  if s.lift.away then refuse .away s
  else if rehomeTaken s.engine then (startFullHoming s, .plain .started)
  else refuse .busy s

def execRehome (p : Port) (s : State) : Host.Outcome State Fault Refusal :=
  runBlock p 0x33 0 cmdRehome s

/-- R85, steps 1 to 4. -/
def startWheelChange (s : State) : State :=
  { s with
    engine := startCarrier Config.changePosition { s.engine with petalMap := none, state := .wheelChange }
    restTimer := none }

/-- R85. -/
def cmdWheelChange (s : State) : State × Reply :=
  if s.lift.away then refuse .away s
  else if (s.engine.state = .ready || s.engine.state = .resting) && s.engine.queue.isEmpty then
    (startWheelChange s, .plain .done)
  else refuse .busy s

def execWheelChange (p : Port) (s : State) : Host.Outcome State Fault Refusal :=
  runBlock p 0x34 0 cmdWheelChange s

/-- R86. -/
def cmdWheelMounted (s : State) : State × Reply :=
  if s.engine.state = .wheelChange then
    if s.engine.carrierMove.isSome then refuse .busy s else (startWheelHoming false s, .plain .started)
  else if s.engine.state = .wheelFault then (startWheelHoming false s, .plain .started)
  else refuse .notInMode s

def execWheelMounted (p : Port) (s : State) : Host.Outcome State Fault Refusal :=
  runBlock p 0x35 0 cmdWheelMounted s

/-- R87: the supply record is replaced. -/
def setSupply (kind : RibbonKind) (ribbon tape : Nat) (s : State) : State :=
  let s1 := { s with engine := { s.engine with ribbonKind := kind, ribbon := ribbon, tape := tape } }
  if (1 ≤ ribbon && ribbon ≤ 500) || (1 ≤ tape && tape ≤ 100) then supplyLow s1 else s1

/-- R87: the engine leaves SupplyOut: a head job that had started goes on at its next order. -/
def leaveSupplyOut (s : State) : State :=
  match s.engine.queue with
  | j :: _ =>
    if j.started then goOn { s with engine := { s.engine with state := .working }, restTimer := none }
    else enterReady s
  | [] => enterReady s

/-- R87. -/
def cmdLoadSupply (kind : Byte) (ribbon tape : Half) (s : State) : State × Reply :=
  match ribbonKindOf kind with
  | none => refuse .range s
  | some k =>
    let s1 := setSupply k ribbon.toNat tape.toNat s
    (if s1.engine.state = .supplyOut && 0 < s1.engine.ribbon then settle (leaveSupplyOut s1) else s1, .plain .done)

def execLoadSupply (p : Port) (kind : Byte) (ribbon tape : Half) (s : State) :
    Host.Outcome State Fault Refusal :=
  runBlock p 0x36 5 (cmdLoadSupply kind ribbon tape) s

end Sys2Proof.Machine
end

