-- ==== Sys2Proof/Machine/Correct.lean ====
section
/-! DEFINITION. The lift commands and Relocate as they are taken (R110, R111, R113, R123). -/

namespace Sys2Proof.Machine

/-- R110: a Correction job as it is appended, with an empty order list. -/
def correctionJob (p : Port) (command : LiftCommand) (offset position : Nat) (reference : Option Nat) : Job :=
  let c : Correction :=
    { command := command, offset := offset, position := position, reference := reference, target := none,
      lifted := 0, leftmost := none }
  { Job.empty .correction p with correction := some c }

/-- R110: the engine is in Fault, or the Print Queue holds 4 jobs. -/
def liftBusy (s : State) : Bool := s.engine.state == .fault || !s.engine.room

/-- R110: a lift command that has no checks of its own. -/
def takeLift (p : Port) (command : LiftCommand) (reference : Option Nat) (s : State) : State × Reply :=
  if liftBusy s then refuse .busy s
  else (appendJob (correctionJob p command 0 0 reference) s, .plain .started)

/-- R110. -/
def cmdLiftLast (p : Port) (s : State) : State × Reply := takeLift p .last none s

def execLiftLast (p : Port) (s : State) : Host.Outcome State Fault Refusal :=
  runBlock p 0x40 0 (cmdLiftLast p) s

/-- R111: the reference position. -/
def liftReference (s : State) : Option Nat := if consoleDirect s then some s.composer.position else none

/-- R110, R111. -/
def cmdLiftWord (p : Port) (s : State) : State × Reply := takeLift p .word (liftReference s) s

def execLiftWord (p : Port) (s : State) : Host.Outcome State Fault Refusal :=
  runBlock p 0x41 0 (cmdLiftWord p) s

/-- R110. -/
def cmdLiftLine (p : Port) (s : State) : State × Reply := takeLift p .line none s

def execLiftLine (p : Port) (s : State) : Host.Outcome State Fault Refusal :=
  runBlock p 0x42 0 (cmdLiftLine p) s

/-- A Lift Back job. -/
def Job.isLiftBack (j : Job) : Bool := (j.correction.map (·.command == .back)).getD false

/-- R110: the working line keeps a Lift Back out. -/
def lineInTheWay (s : State) : Bool :=
  s.line.holder == some .link || (s.line.holder == some .console && s.line.mode == .line)
    || s.line.phase == .checking || s.line.phase == .waiting

/-- R110, R113. -/
def cmdLiftBack (p : Port) (offset : Byte) (position : Half) (s : State) : State × Reply :=
  if offset.toNat < 1 || 7 < offset.toNat || 1559 < position.toNat then refuse .range s
  else if s.lift.away then refuse .away s
  else if liftBusy s then refuse .busy s
  else if s.engine.queue.any (·.isLiftBack) then refuse .busy s
  else if lineInTheWay s then refuse .busy s
  else (appendJob (correctionJob p .back offset.toNat position.toNat none) s, .plain .started)

def execLiftBack (p : Port) (offset : Byte) (position : Half) (s : State) : Host.Outcome State Fault Refusal :=
  runBlock p 0x43 3 (cmdLiftBack p offset position) s

/-- R110, R113. -/
def cmdRetractLine (p : Port) (s : State) : State × Reply := takeLift p .retract none s

def execRetractLine (p : Port) (s : State) : Host.Outcome State Fault Refusal :=
  runBlock p 0x44 0 (cmdRetractLine p) s

/-- R110, R123. -/
def cmdRelocate (s : State) : State × Reply :=
  if liftBusy s then refuse .busy s
  else if s.engine.queue.any (·.relocate) then refuse .busy s
  else match s.lift.point with
    | none => refuse .noTarget s
    | some _ => (appendJob (relocateJob (relocateTarget s)) s, .plain .started)

def execRelocate (p : Port) (s : State) : Host.Outcome State Fault Refusal :=
  runBlock p 0x45 0 cmdRelocate s

end Sys2Proof.Machine
end

