-- ==== Sys2Proof/Machine/Words.lean ====
section
/-! DEFINITION. The spelling commands: suspects, user words, Check Word and Save User Words (R13, R142, R148 to R151). -/

namespace Sys2Proof.Machine

/-- The suspect at an index (R139). -/
def suspectAt (index : Byte) (s : State) : Option Suspect := s.spelling.suspects[index.toNat]?

/-- R142: the data of Read Suspect (section 9.8). -/
def suspectData (x : Suspect) : List Byte :=
  two x.serial ++ [byte x.place.code, byte x.first, byte x.count, byte (flagBit x.continued 0)] ++ x.letters

/-- R142. -/
def cmdReadSuspect (index : Byte) (s : State) : State × Reply :=
  match suspectAt index s with
  | some x => (s, { status := .done, data := suspectData x })
  | none => refuse .noTarget s

def execReadSuspect (p : Port) (index : Byte) (s : State) : Host.Outcome State Fault Refusal :=
  runBlock p 0x50 1 (cmdReadSuspect index) s

/-- R141: the record of an ignored suspect's word in the working line becomes Good. -/
def goodWord (x : Suspect) (s : State) : State :=
  if x.place = .working && s.line.serial = x.serial then
    setWord x.first (fun w => if w.status = .suspect then { w with status := .good } else w) s
  else s

/-- R141, R142. -/
def cmdIgnoreSuspect (index : Byte) (s : State) : State × Reply :=
  match suspectAt index s with
  | some x =>
    (goodWord x { s with spelling := { s.spelling with
        suspects := s.spelling.suspects.eraseIdx index.toNat } }, .plain .done)
  | none => refuse .noTarget s

def execIgnoreSuspect (p : Port) (index : Byte) (s : State) : Host.Outcome State Fault Refusal :=
  runBlock p 0x51 1 (cmdIgnoreSuspect index) s

/-- R13, R148, R194: the user word list may not be changed now. -/
def listFrozen (s : State) : Bool := s.store.state == .starting || s.store.save.isSome

/-- R147: the record of a word. -/
def userWordOf (letters : List Byte) : UserWord where
  fingerprint := fingerprint letters
  length := letters.length
  primary := primaryValue letters
  capital := firstUpper letters

/-- R148, from the check of form on. -/
def addLetters (letters : List Byte) (s : State) : State × Reply :=
  if !wordForm letters || 24 < letters.length then refuse .range s
  else if s.spelling.userWords.any (·.matches letters) then (withdrawWord letters s, .plain .already)
  else if s.partition.userWords ≤ s.spelling.userWords.length then refuse .full s
  else
    (withdrawWord letters { s with spelling := { s.spelling with
        userWords := insertUser (userWordOf letters) s.spelling.userWords } }, .plain .done)

/-- R142, R148. -/
def cmdAddWordByIndex (index : Byte) (s : State) : State × Reply :=
  if listFrozen s then refuse .busy s
  else match suspectAt index s with
    | some x => addLetters x.letters s
    | none => refuse .noTarget s

def execAddWordByIndex (p : Port) (index : Byte) (s : State) : Host.Outcome State Fault Refusal :=
  runBlock p 0x52 1 (cmdAddWordByIndex index) s

/-- R148. -/
def cmdAddWord (letters : List Byte) (s : State) : State × Reply :=
  if listFrozen s then refuse .busy s else addLetters letters s

def execAddWord (p : Port) (letters : List Byte) (s : State) : Host.Outcome State Fault Refusal :=
  runBlock p 0x53 letters.length (cmdAddWord letters) s

/-- R149. -/
def cmdRemoveWord (letters : List Byte) (s : State) : State × Reply :=
  if listFrozen s then refuse .busy s
  else if !wordForm letters || 24 < letters.length then refuse .range s
  else if s.spelling.userWords.any (·.matches letters) then
    ({ s with spelling := { s.spelling with
        userWords := s.spelling.userWords.filter (!·.matches letters) } }, .plain .done)
  else refuse .noTarget s

def execRemoveWord (p : Port) (letters : List Byte) (s : State) : Host.Outcome State Fault Refusal :=
  runBlock p 0x54 letters.length (cmdRemoveWord letters) s

/-- R13, R16. -/
def cmdSaveUserWords (p : Port) (s : State) : State × Reply :=
  match s.store.state with
  | .starting => refuse .busy s
  | .absent => refuse .noTarget s
  | .faulted => refuse .noTarget s
  | .present =>
    if s.store.save.isSome then refuse .busy s
    else if s.store.flags.noUserArea then refuse .noTarget s
    else match s.store.userArea with
      | none => refuse .noTarget s
      | some u =>
        let save : Save := { issuer := p, steps := saveSteps u.base s.spelling.userWords }
        (arbitrate { s with store := { s.store with save := some save } }, .plain .started)

def execSaveUserWords (p : Port) (s : State) : Host.Outcome State Fault Refusal :=
  runBlock p 0x55 0 (cmdSaveUserWords p) s

/-- R150: what a Started query comes to at once: Good 0, Unchecked 2, or none when it must be looked up. With the lexicon
unavailable it is Unchecked even for a word of the user word list (log entry 57). -/
def queryAtOnce (letters : List Byte) (s : State) : Option Nat :=
  if 24 < letters.length then some 2
  else if !s.store.lexiconAvailable then some 2
  else if userGood s.spelling.userWords letters then some 0
  else none

/-- R150, R151. -/
def cmdCheckWord (letters : List Byte) (s : State) : State × Reply :=
  let u := s.spelling
  if Config.querySlots ≤ u.queries.length then refuse .full s
  else if !wordForm letters then refuse .range s
  else
    let reply : Reply := { status := .started, data := [byte u.queryTag] }
    let next := (u.queryTag + 1) % 256
    match queryAtOnce letters s with
    | some result =>
      (({ s with spelling := { u with queryTag := next } } : State).notice .link
        (Notice.checkResult u.queryTag result), reply)
    | none =>
      let q : Query := { tag := u.queryTag, letters := letters, queued := false }
      (settle { s with spelling := { u with queryTag := next, queries := u.queries ++ [q] } }, reply)

def execCheckWord (p : Port) (letters : List Byte) (s : State) : Host.Outcome State Fault Refusal :=
  runBlock p 0x56 letters.length (cmdCheckWord letters) s

end Sys2Proof.Machine
end

