-- ==== Sys2Proof/Machine/Message.lean ====
section
/-! DEFINITION. Overlays (R162 to R164). -/

namespace Sys2Proof.Machine

/-- R162: a code that an overlay's text may hold. -/
def overlayCode (b : Byte) : Bool := b == 0x20 || isTypeCode b

/-- R162: the overlay is placed. -/
def placeOverlay (p : Port) (duration : Byte) (text : List Byte) (s : State) : State :=
  let o : Overlay := { text := text, owner := p, remaining := duration.toNat * 10 }
  { s with display := { s.display with overlay := some o } }

/-- R162: the link's overlay stands. -/
def linkOverlay (s : State) : Bool := (s.display.overlay.map (·.owner == .link)).getD false

/-- R162: the console's overlay stands. -/
def consoleOverlay (s : State) : Bool := (s.display.overlay.map (·.owner == .console)).getD false

/-- R162. -/
def cmdShowMessage (p : Port) (duration : Byte) (text : List Byte) (s : State) : State × Reply :=
  if 28 < text.length then refuse .length s
  else if !text.all overlayCode then refuse .range s
  else match p with
    | .console =>
      let s1 := if linkOverlay s then s.notice .link Notice.messageWithdrawn else s
      (placeOverlay .console duration text s1, .plain .done)
    | .link => if consoleOverlay s then refuse .busy s else (placeOverlay .link duration text s, .plain .done)

def execShowMessage (p : Port) (duration : Byte) (text : List Byte) (s : State) :
    Host.Outcome State Fault Refusal :=
  runBlock p 0x60 (text.length + 1) (cmdShowMessage p duration text) s

/-- The overlay becomes absent. -/
def dropOverlay (s : State) : State := { s with display := { s.display with overlay := none } }

/-- R164: the overlay is port `p`'s. -/
def ownsOverlay (p : Port) (s : State) : Bool := (s.display.overlay.map (·.owner == p)).getD false

/-- R164. -/
def cmdClearMessage (p : Port) (s : State) : State × Reply :=
  if ownsOverlay p s then (dropOverlay s, .plain .done) else refuse .noTarget s

def execClearMessage (p : Port) (s : State) : Host.Outcome State Fault Refusal :=
  runBlock p 0x61 0 (cmdClearMessage p) s

/-- R163: the overlay's remaining ticks have run out. -/
def overlayEnd (s : State) : State :=
  match s.display.overlay with
  | some o => if 0 < o.remaining then finish (dropOverlay s) else s
  | none => s

def execOverlayExpiry (s : State) : Host.Outcome State Fault Refusal := .next (overlayEnd s)

end Sys2Proof.Machine
end

