-- ==== Sys2Proof/Machine/Resets.lean ====
section
/-! DEFINITION. Power-on, the reset line, Restart and port resets (R18, R46, R91, R109, R127, R152, R165, R169, R182,
R184, R193, R195). -/

namespace Sys2Proof.Machine

/-! ### Power-on and the reset line (R193) -/

/-- R193: power is applied; the commands that wait are the model's own and stay. -/
def powerUp (s : State) : State := { State.reset with pending := s.pending }

def execPowerOn (s : State) : Host.Outcome State Fault Refusal := .next (powerUp s)

/-- R193: the reset line is released: everything stands as after power-on. -/
def releaseResetLine (s : State) : State := { State.reset with pending := s.pending }

def execResetLine (s : State) : Host.Outcome State Fault Refusal := .next (releaseResetLine s)

/-! ### Restart (R195) -/

/-- R184: a port's queue and read buffer are emptied, and its lost count is 0. -/
def PortState.emptied (v : PortState) : PortState := { v with queue := [], readBuffer := none, lost := 0 }

/-- R184: both ports at Restart; the link's command in hand ends with its reply. -/
def restartPorts (s : State) : State :=
  { s with console := s.console.emptied, link := { s.link.emptied with inHand := false } }

/-- R91: a job that Restart discards is reported, unless it is a Correction job. -/
def restartReport (s : State) (j : Job) : State :=
  if j.kind = .correction then s
  else s.notice j.source (Notice.lineCancelled (j.serial.getD 0) j.struck)

/-- R91: the Print Queue at Restart. -/
def restartQueue (s : State) : State :=
  let s1 := s.engine.queue.foldl restartReport s
  { s1 with engine := { s1.engine with queue := [], tally := .clear } }

/-- R46: the composer at Restart. -/
def restartComposer (s : State) : State :=
  let s1 := cancelAwaits s
  { s1 with
    line := .free
    composer := { s1.composer with
      consoleRing := []
      linkRing := []
      lastHolder := none
      position := s1.format.left
      linkUnderline := false
      linkBold := false
      consoleRefusals := .clear
      linkRefusals := .clear
      leftDue := false }
    holdTimer := none }

/-- R108, R127, R152, R165, R169: the blocks that are emptied at Restart. An image that is still blank for the start-up
stays blank (log entry 62). -/
def restartRest2 (s : State) : State :=
  let s1 := emptyMemory s
  { s1 with
    lift := .reset
    spelling := { Spelling.reset with queryTag := s1.spelling.queryTag }
    display := { s1.display with window := 0, overlay := none }
    tones := { s1.tones with sounding := none } }

/-- R195: the order of the notices is that of log entry 13; the column indicator follows the released line before the map
becomes Unloaded (log entry 58). -/
def cmdRestart (s : State) : State × Reply :=
  let released := keepColumn (restartComposer (restartQueue (restartPorts s)))
  (startStartUp (restartRest2 (startFullHoming released)), .plain .done)

def execRestart (p : Port) (s : State) : Host.Outcome State Fault Refusal :=
  runBlock p 0x05 0 cmdRestart s

/-! ### Port resets (R182) -/

/-- R182: the port itself. -/
def PortState.resetInput (v : PortState) : PortState :=
  { PortState.reset with resetAsserted := true, dataOut := v.dataOut }

/-- R126: a console port reset while Away performs a Relocate. -/
def performRelocate (s : State) : State :=
  if s.engine.queue.any (·.relocate) then s
  else if s.engine.room then appendJob (relocateJob (relocateTarget s)) s
  else { s with lift := { s.lift with owed := true } }

/-- R40, R46, R126, R144, R165: the line that the reset port holds; its fragments go without a check. While Away the line
stays until the Relocate has completed and only its window goes back to the start. -/
def resetHeldLine (p : Port) (s : State) : State :=
  let s1 := setFragment p none s
  if s1.line.holder = some p then
    if s1.lift.away then performRelocate { s1 with display := { s1.display with window := 0 } }
    else discardLine { s1 with line := { s1.line with joined := none } }
  else s1

/-- R46: what else the composer loses at a reset of port `p`. -/
def resetStrokes (p : Port) (s : State) : State :=
  let c := (s.composer.setRing p []).setRefusals p .clear
  match p with
  | .console => { s with composer := c }
  | .link => { s with composer := { c with awaits := [], linkUnderline := false, linkBold := false } }

/-- R150, R152: the link's queries are dropped. -/
def dropQueries (s : State) : State :=
  { s with spelling := { s.spelling with
      queries := []
      queue := discardLookups (·.origin == .query) s.spelling.queue } }

/-- R182, in the order of its blocks. -/
def resetPort (p : Port) (s : State) : State :=
  let s1 := restartRest (s.setPort p (s.port p).resetInput)
  let s2 := resetStrokes p (resetHeldLine p s1)
  let s3 := if p = .link then dropQueries s2 else s2
  endStep (if ownsOverlay p s3 then dropOverlay s3 else s3)

def execPortReset (p : Port) (s : State) : Host.Outcome State Fault Refusal := .next (resetPort p s)

/-- R170: the reset input is no longer asserted. -/
def releaseResetInput (p : Port) (s : State) : State :=
  let v := s.port p
  s.setPort p { v with resetAsserted := false }

def execResetInputRelease (p : Port) (s : State) : Host.Outcome State Fault Refusal := .next (releaseResetInput p s)

end Sys2Proof.Machine
end

