-- ==== Sys2Proof/Machine/Ports.lean ====
section
/-! DEFINITION. The port strobes (R170 to R177): bytes written, bytes read, the status byte and the gap timer. -/

namespace Sys2Proof.Machine

/-! ### The owner of a command (R174) -/

/-- R174: what the block that owns a command does with it; none for a row that is no command block. -/
def ownerOf : Instr → Option (State → State × Reply)
  | .readStatus p => some (cmdReadStatus p)
  | .setNotices p a b c => some (cmdSetNotices p a b c)
  | .setOption p id v => some (cmdSetOption p id v)
  | .partition _ a b c d => some (cmdPartition a b c d)
  | .restart _ => some cmdRestart
  | .keyStroke _ a b => some (cmdKeyStroke a b)
  | .typeText _ text => some (cmdTypeText text)
  | .releaseLine p => some (cmdReleaseLine p)
  | .awaitKeys _ a t e => some (cmdAwaitKeys a t e)
  | .cancelAwait _ => some cmdCancelAwait
  | .setMargins p a b => some (cmdSetMargins p a b)
  | .setTab p x => some (cmdSetTab p x)
  | .clearTab p x => some (cmdClearTab p x)
  | .clearAllTabs p => some (cmdClearAllTabs p)
  | .setSpacing p v => some (cmdSetSpacing p v)
  | .setLineSpacing p v => some (cmdSetLineSpacing p v)
  | .setImpression p v => some (cmdSetImpression p v)
  | .setMarginZone p v => some (cmdSetMarginZone p v)
  | .setPageLength p v => some (cmdSetPageLength p v)
  | .readFormat _ => some cmdReadFormat
  | .feed p n => some (cmdFeed p n)
  | .formFeed p => some (cmdFormFeed p)
  | .cancelPrinting p => some (cmdCancelPrinting p)
  | .rehome _ => some cmdRehome
  | .wheelChange _ => some cmdWheelChange
  | .wheelMounted _ => some cmdWheelMounted
  | .loadSupply _ k r t => some (cmdLoadSupply k r t)
  | .liftLast p => some (cmdLiftLast p)
  | .liftWord p => some (cmdLiftWord p)
  | .liftLine p => some (cmdLiftLine p)
  | .liftBack p n x => some (cmdLiftBack p n x)
  | .retractLine p => some (cmdRetractLine p)
  | .relocate _ => some cmdRelocate
  | .readSuspect _ i => some (cmdReadSuspect i)
  | .ignoreSuspect _ i => some (cmdIgnoreSuspect i)
  | .addWordByIndex _ i => some (cmdAddWordByIndex i)
  | .addWord _ w => some (cmdAddWord w)
  | .removeWord _ w => some (cmdRemoveWord w)
  | .saveUserWords p => some (cmdSaveUserWords p)
  | .checkWord _ w => some (cmdCheckWord w)
  | .showMessage p d t => some (cmdShowMessage p d t)
  | .clearMessage p => some (cmdClearMessage p)
  | .setTones _ t v d => some (cmdSetTones t v d)
  | .powerOn => none
  | .resetLine => none
  | .portReset _ => none
  | .dataWrite _ _ => none
  | .dataRead _ => none
  | .statusRead _ => none
  | .gapTimerExpiry _ => none
  | .composeStroke => none
  | .lineConversion => none
  | .jobStart => none
  | .wheelSettled => none
  | .carrierArrived => none
  | .hammerPulseEnd => none
  | .hammerReturned => none
  | .tapeRaised => none
  | .platenStopped => none
  | .homeReached => none
  | .indexFound _ => none
  | .wheelLimitExpiry => none
  | .carrierLimitExpiry => none
  | .hammerLimitExpiry => none
  | .tapeLimitExpiry => none
  | .homingLimitExpiry => none
  | .restTimerExpiry => none
  | .holdLimitExpiry => none
  | .awaitTimeout _ => none
  | .storeOpComplete _ => none
  | .busyLimitExpiry => none
  | .blinkToggle => none
  | .overlayExpiry => none
  | .toneEnd => none
  | .frameTransferEnd => none
  | .resetInputRelease _ => none

/-- R174: the owner of a block by its code and data. A block that passes the checks always has one. -/
def blockOwner (p : Port) (code : Byte) (data : List Byte) : State → State × Reply :=
  match (decodeBlock p code data).bind ownerOf with
  | some f => f
  | none => refuse .length

/-! ### Bytes written (R172) -/

/-- R172: the byte joins the assembly and the gap timer starts from full. -/
def assemble (p : Port) (bytes : List Byte) (s : State) : State :=
  let v := s.port p
  s.setPort p { v with assembly := bytes, gap := some Config.gapLimit }

/-- R172: the assembly with its newest byte: part of a block, a complete one, or one refused with Framing. -/
def takeByte (p : Port) (bytes : List Byte) (s : State) : State :=
  match bytes with
  | code :: n :: rest =>
    if Config.blockData < n.toNat then finish (refuseBlock p code .framing s)
    else if rest.length ≤ n.toNat then assemble p bytes s
    else if rest.getLast? = some (byte (n.toNat + 3)) then
      takeBlock p code n.toNat (blockOwner p code (rest.take n.toNat)) s
    else finish (refuseBlock p code .framing s)
  | _ => assemble p bytes s

/-- R170 to R172: a byte is written to the data select. -/
def writeByte (p : Port) (b : Byte) (s : State) : State :=
  if (s.port p).resetAsserted then s
  else if (s.port p).inHand then loseByte p s
  else takeByte p ((s.port p).assembly ++ [b]) s

def execDataWrite (p : Port) (b : Byte) (s : State) : Host.Outcome State Fault Refusal := .next (writeByte p b s)

/-! ### Bytes read (R170, R171, R177) -/

/-- R177: the byte of a block at a place, and the port once it is read; reading the closing byte empties the read buffer,
and a reply's ends the command in hand (R175). -/
def PortState.readOut (v : PortState) (b : Block) (taken : Nat) : PortState :=
  let wire := b.wire
  let v1 := { v with dataOut := (wire[taken]?).getD 0 }
  if taken + 1 < wire.length then { v1 with readBuffer := some { block := b, taken := taken + 1 } }
  else { v1 with readBuffer := none, inHand := v.inHand && b.kind != replyKind }

/-- R170, R177: a read of the data select. -/
def PortState.read (v : PortState) : PortState :=
  if v.resetAsserted then { v with dataOut := 0 }
  else match v.readBuffer, v.queue with
    | some r, _ => v.readOut r.block r.taken
    | none, b :: rest => { v with queue := rest }.readOut b 0
    | none, [] => { v with dataOut := 0 }

def execDataRead (p : Port) (s : State) : Host.Outcome State Fault Refusal := .next (s.setPort p (s.port p).read)

/-- R171: a status read returns the status byte and then clears Overrun. -/
def PortState.readStatus (v : PortState) : PortState := { v with dataOut := v.statusByte, overrun := false }

def execStatusRead (p : Port) (s : State) : Host.Outcome State Fault Refusal :=
  .next (s.setPort p (s.port p).readStatus)

/-! ### The gap timer (R173) -/

/-- R173: the gap timer expires while it runs. -/
def gapExpiry (p : Port) (s : State) : State :=
  match (s.port p).gap, (s.port p).assembly with
  | some _, code :: _ => finish (refuseBlock p code .gap s)
  | _, _ => s

def execGapTimerExpiry (p : Port) (s : State) : Host.Outcome State Fault Refusal := .next (gapExpiry p s)

end Sys2Proof.Machine
end

