-- ==== Sys2Proof/Machine/Events.lean ====
section
/-! DEFINITION. The part's own scheduling steps, the reports of the mechanism and the expiries. A report that nothing in
flight awaits is disregarded (log entry 2). -/

namespace Sys2Proof.Machine

/-! ### Scheduling (R25, R38, R67; log entry 3) -/

def execComposeStroke (s : State) : Host.Outcome State Fault Refusal := .next (composeStep s)

def execLineConversion (s : State) : Host.Outcome State Fault Refusal := .next (convertStep s)

/-- R67. -/
def jobStep (s : State) : State := endStep (startJob s)

def execJobStart (s : State) : Host.Outcome State Fault Refusal := .next (jobStep s)

/-! ### Reports (R69 to R74, R79, R117) -/

/-- R69, R117: a motion has ended; the order in flight goes on when both have. -/
def motionEnded (s : State) : State :=
  if s.engine.state = .working then
    match currentOrder s with
    | some (.move _) => orderDone s
    | some o => { s with engine := fireOrRaise o s.engine }
    | none => s
  else s

/-- R70. -/
def wheelSettled (s : State) : State :=
  match s.engine.wheelMove with
  | some w => endStep (motionEnded { s with engine := { s.engine with petal := w.target, wheelMove := none } })
  | none => s

def execWheelSettled (s : State) : Host.Outcome State Fault Refusal := .next (wheelSettled s)

/-- R71, R85. -/
def carrierArrived (s : State) : State :=
  match s.engine.carrierMove with
  | some c => endStep (motionEnded { s with engine := { s.engine with carrier := c.target, carrierMove := none } })
  | none => s

def execCarrierArrived (s : State) : Host.Outcome State Fault Refusal := .next (carrierArrived s)

/-- R72. -/
def hammerPulseEnd (s : State) : State :=
  match s.engine.hammer with
  | .pulse _ => { s with engine := { s.engine with hammer := .returning Config.hammerLimit } }
  | .idle => s
  | .returning _ => s

def execHammerPulseEnd (s : State) : Host.Outcome State Fault Refusal := .next (hammerPulseEnd s)

/-- R73, R118: the order whose hammer has returned completes. -/
def completeBlow (s : State) : State :=
  match currentOrder s with
  | some (.strike k) => orderDone (completeStrike k s)
  | some (.lift r e) => orderDone (completeLift r e s)
  | _ => s

/-- R73, R118. -/
def hammerReturned (s : State) : State :=
  match s.engine.hammer with
  | .returning _ => endStep (completeBlow { s with engine := { s.engine with hammer := .idle } })
  | .idle => s
  | .pulse _ => s

def execHammerReturned (s : State) : Host.Outcome State Fault Refusal := .next (hammerReturned s)

/-- R117: the tape is up and the hammer fires. -/
def tapeRaised (s : State) : State :=
  match s.engine.tapeGuide, currentOrder s with
  | .rising _, some (.lift _ e) =>
    { s with engine := { s.engine with tapeGuide := .up, hammer := .pulse (liftEnergy e) } }
  | _, _ => s

def execTapeRaised (s : State) : Host.Outcome State Fault Refusal := .next (tapeRaised s)

/-- R74, R76. -/
def platenStopped (s : State) : State :=
  match s.engine.platenMove with
  | some (.feed n) =>
    endStep (orderDone (completeFeed n { s with engine := { s.engine with platenMove := none } }))
  | some .eject =>
    endStep (orderDone (completeEject { s with engine := { s.engine with platenMove := none } }))
  | none => s

def execPlatenStopped (s : State) : Host.Outcome State Fault Refusal := .next (platenStopped s)

/-- R79, step 1: the carrier is at home and the wheel seeks its index. -/
def homeReached (s : State) : State :=
  match s.engine.homing with
  | some h =>
    if h.stage = .carrier then
      { s with engine := { s.engine with carrier := 0, homing := some { h with stage := .wheel } } }
    else s
  | none => s

def execHomeReached (s : State) : Host.Outcome State Fault Refusal := .next (homeReached s)

/-- R79, step 4, R82: the table of a hub id is asked for. -/
def askTable (hub : Nat) (s : State) : State := if hub = 0 then homingRefused 0 2 s else requestTable hub s

/-- R81: the hub id after a wake. -/
def wakeFound (hub : Nat) (s : State) : State :=
  match s.engine.petalMap with
  | some m =>
    if m.wheelId = hub then homingLoaded m false s
    else
      let s1 := keepColumn (cancelJobs .console s).1
      askTable hub { s1 with engine := { s1.engine with petalMap := none } }
  | none => askTable hub s

/-- R79, R81: petal 0 is at the print point and the hub id is read. -/
def hubRead (h : Homing) (hub : Nat) (s : State) : State :=
  let s1 := { s with engine := { s.engine with
    petal := 0
    homing := some { h with stage := .table }
    homingLimit := none } }
  if h.full then askTable hub (newPage s1)
  else if h.wake then wakeFound hub s1
  else askTable hub s1

/-- R79, R81. -/
def indexFound (hub : BitVec 6) (s : State) : State :=
  match s.engine.homing with
  | some h => if h.stage = .wheel then endStep (hubRead h hub.toNat s) else s
  | none => s

def execIndexFound (hub : BitVec 6) (s : State) : Host.Outcome State Fault Refusal := .next (indexFound hub s)

/-! ### Limits of the mechanism (R70 to R72, R79, R89, R117) -/

/-- R89: a limit that runs has expired. -/
def faultWhen (running : Bool) (cause : FaultCause) (s : State) : State :=
  if running then endStep (enterFault cause s) else s

/-- The hammer limit runs (R72). -/
def Hammer.awaited : Hammer → Bool
  | .returning _ => true
  | .idle => false
  | .pulse _ => false

/-- The tape limit runs (R117). -/
def TapeGuide.awaited : TapeGuide → Bool
  | .rising _ => true
  | .down => false
  | .up => false

def wheelExpiry (s : State) : State := faultWhen s.engine.wheelMove.isSome .wheel s
def carrierExpiry (s : State) : State := faultWhen s.engine.carrierMove.isSome .carrier s
def hammerExpiry (s : State) : State := faultWhen s.engine.hammer.awaited .carrier s
def tapeExpiry (s : State) : State := faultWhen s.engine.tapeGuide.awaited .carrier s
def homingExpiry (s : State) : State := faultWhen s.engine.homingLimit.isSome .homing s

def execWheelLimitExpiry (s : State) : Host.Outcome State Fault Refusal := .next (wheelExpiry s)
def execCarrierLimitExpiry (s : State) : Host.Outcome State Fault Refusal := .next (carrierExpiry s)
def execHammerLimitExpiry (s : State) : Host.Outcome State Fault Refusal := .next (hammerExpiry s)
def execTapeLimitExpiry (s : State) : Host.Outcome State Fault Refusal := .next (tapeExpiry s)
def execHomingLimitExpiry (s : State) : Host.Outcome State Fault Refusal := .next (homingExpiry s)

/-! ### Other expiries -/

/-- R83: the Rest timer expires; a job that waits keeps the engine Ready (log entry 16). -/
def restExpiry (s : State) : State :=
  if s.restTimer.isSome && s.engine.state = .ready && s.engine.queue.isEmpty then
    finish { s with engine := { s.engine with state := .resting }, restTimer := none }
  else s

def execRestTimerExpiry (s : State) : Host.Outcome State Fault Refusal := .next (restExpiry s)

def execHoldLimitExpiry (s : State) : Host.Outcome State Fault Refusal := .next (holdExpiry s)

def execStoreOpComplete (bytes : List Byte) (s : State) : Host.Outcome State Fault Refusal :=
  .next (storeOpDone bytes s)

def execBusyLimitExpiry (s : State) : Host.Outcome State Fault Refusal := .next (busyExpiry s)

/-- R157: the blink phase toggles; what blinks changes, and with it the frame. -/
def Display.toggle (d : Display) : Display :=
  let d1 := { d with blinkOn := !d.blinkOn, blinkTicks := Config.blinkPeriod }
  if d.image.anyBlink then d1.change else d1

def blinkToggle (s : State) : State := { s with display := s.display.toggle }

def execBlinkToggle (s : State) : Host.Outcome State Fault Refusal := .next (blinkToggle s)

/-- R166: the sounding tone stops. -/
def toneEnd (s : State) : State := { s with tones := { s.tones with sounding := none } }

def execToneEnd (s : State) : Host.Outcome State Fault Refusal := .next (toneEnd s)

/-- R161: the transfer in flight completes: the module shows its snapshot, and the dirty flag starts another. -/
def Display.transferEnd (d : Display) : Display :=
  match d.transfer with
  | none => d
  | some f =>
    { d with
      shown := f
      dirty := false
      transfer := if d.dirty then some (frameOf d.image d.blinkOn) else none }

def execFrameTransferEnd (s : State) : Host.Outcome State Fault Refusal :=
  .next { s with display := s.display.transferEnd }

end Sys2Proof.Machine
end

