-- ==== Sys2Proof/Machine/Timebase.lean ====
section
/-! DEFINITION. The 10 ms tick, which the step makes on an empty queue (log entry 1): every running count goes down by 1,
and one that runs out does what its expiry row does. -/

namespace Sys2Proof.Machine

/-- A count of n ticks: the step that it takes at a tick, the last one being its end. -/
def countDown (n : Nat) (more : Nat → State) (last : State) : State := if n ≤ 1 then last else more (n - 1)

/-- A count that may not run. -/
def countTimer (timer : Option Nat) (more : Nat → State) (last s : State) : State :=
  match timer with
  | some n => countDown n more last
  | none => s

/-- R157. -/
def tickBlink (s : State) : State :=
  countDown s.display.blinkTicks (fun n => { s with display := { s.display with blinkTicks := n } }) (blinkToggle s)

/-- R166. -/
def tickTone (s : State) : State :=
  match s.tones.sounding with
  | some x =>
    countDown x.remaining (fun n => { s with tones := { s.tones with sounding := some { x with remaining := n } } })
      (toneEnd s)
  | none => s

/-- R163. -/
def tickOverlay (s : State) : State :=
  match s.display.overlay with
  | some o =>
    if o.remaining = 0 then s
    else countDown o.remaining
      (fun n => { s with display := { s.display with overlay := some { o with remaining := n } } }) (overlayEnd s)
  | none => s

/-- R83. -/
def tickRest (s : State) : State :=
  countTimer s.restTimer (fun n => { s with restTimer := some n }) (restExpiry s) s

/-- R27. -/
def tickHold (s : State) : State :=
  countTimer s.holdTimer (fun n => { s with holdTimer := some n }) (holdExpiry s) s

/-- R43: the requests' timeouts go down; those that run out complete, the oldest first. -/
def tickAwaits (s : State) : State :=
  let down (r : AwaitRequest) : AwaitRequest := { r with timeout := r.timeout.map (· - 1) }
  let all := s.composer.awaits.map down
  let ended (r : AwaitRequest) : Bool := r.timeout == some 0
  (all.filter ended).foldl (fun t r => keysNotice r 1 t)
    { s with composer := { s.composer with awaits := all.filter (!ended ·) } }

/-- R173. -/
def tickGap (p : Port) (s : State) : State :=
  let v := s.port p
  countTimer v.gap (fun n => s.setPort p { v with gap := some n }) (gapExpiry p s) s

/-- R70. -/
def tickWheel (s : State) : State :=
  match s.engine.wheelMove with
  | some w =>
    countDown w.limit (fun n => { s with engine := { s.engine with wheelMove := some { w with limit := n } } })
      (wheelExpiry s)
  | none => s

/-- R71. -/
def tickCarrier (s : State) : State :=
  match s.engine.carrierMove with
  | some c =>
    countDown c.limit (fun n => { s with engine := { s.engine with carrierMove := some { c with limit := n } } })
      (carrierExpiry s)
  | none => s

/-- R72. -/
def tickHammer (s : State) : State :=
  match s.engine.hammer with
  | .returning m =>
    countDown m (fun n => { s with engine := { s.engine with hammer := .returning n } }) (hammerExpiry s)
  | .idle => s
  | .pulse _ => s

/-- R117. -/
def tickTape (s : State) : State :=
  match s.engine.tapeGuide with
  | .rising m =>
    countDown m (fun n => { s with engine := { s.engine with tapeGuide := .rising n } }) (tapeExpiry s)
  | .down => s
  | .up => s

/-- R79. -/
def tickHoming (s : State) : State :=
  countTimer s.engine.homingLimit (fun n => { s with engine := { s.engine with homingLimit := some n } })
    (homingExpiry s) s

/-- R15. -/
def tickBusy (s : State) : State :=
  match s.store.link with
  | some x =>
    countTimer x.limit (fun n => { s with store := { s.store with link := some { x with limit := some n } } })
      (busyExpiry s) s
  | none => s

/-- One tick of the timebase (log entry 1). -/
def tick (s : State) : State :=
  tickBusy (tickHoming (tickTape (tickHammer (tickCarrier (tickWheel
    (tickGap .link (tickGap .console (tickAwaits (tickHold (tickRest (tickOverlay (tickTone (tickBlink s)))))))))))))

end Sys2Proof.Machine
end

