-- ==== Sys2Proof/Machine/Dispatch.lean ====
section
/-! DEFINITION. The dispatch: one arm per command, one direct call of its meaning. -/

namespace Sys2Proof.Machine

/-- What a command does to everything but the queue of waiting commands. -/
def exec (i : Instr) (s : State) : Host.Outcome State Fault Refusal :=
  match i with
  | .powerOn => Sys2Proof.Machine.execPowerOn s
  | .resetLine => Sys2Proof.Machine.execResetLine s
  | .portReset p => Sys2Proof.Machine.execPortReset p s
  | .dataWrite p b => Sys2Proof.Machine.execDataWrite p b s
  | .dataRead p => Sys2Proof.Machine.execDataRead p s
  | .statusRead p => Sys2Proof.Machine.execStatusRead p s
  | .gapTimerExpiry p => Sys2Proof.Machine.execGapTimerExpiry p s
  | .readStatus p => Sys2Proof.Machine.execReadStatus p s
  | .setNotices p b0 b1 b2 => Sys2Proof.Machine.execSetNotices p b0 b1 b2 s
  | .setOption p id value => Sys2Proof.Machine.execSetOption p id value s
  | .partition p pool words linkRing consoleRing => Sys2Proof.Machine.execPartition p pool words linkRing consoleRing s
  | .restart p => Sys2Proof.Machine.execRestart p s
  | .keyStroke p b0 b1 => Sys2Proof.Machine.execKeyStroke p b0 b1 s
  | .typeText p text => Sys2Proof.Machine.execTypeText p text s
  | .releaseLine p => Sys2Proof.Machine.execReleaseLine p s
  | .awaitKeys p wanted timeout echo => Sys2Proof.Machine.execAwaitKeys p wanted timeout echo s
  | .cancelAwait p => Sys2Proof.Machine.execCancelAwait p s
  | .setMargins p left right => Sys2Proof.Machine.execSetMargins p left right s
  | .setTab p position => Sys2Proof.Machine.execSetTab p position s
  | .clearTab p position => Sys2Proof.Machine.execClearTab p position s
  | .clearAllTabs p => Sys2Proof.Machine.execClearAllTabs p s
  | .setSpacing p mode => Sys2Proof.Machine.execSetSpacing p mode s
  | .setLineSpacing p value => Sys2Proof.Machine.execSetLineSpacing p value s
  | .setImpression p value => Sys2Proof.Machine.execSetImpression p value s
  | .setMarginZone p value => Sys2Proof.Machine.execSetMarginZone p value s
  | .setPageLength p value => Sys2Proof.Machine.execSetPageLength p value s
  | .readFormat p => Sys2Proof.Machine.execReadFormat p s
  | .feed p count => Sys2Proof.Machine.execFeed p count s
  | .formFeed p => Sys2Proof.Machine.execFormFeed p s
  | .cancelPrinting p => Sys2Proof.Machine.execCancelPrinting p s
  | .rehome p => Sys2Proof.Machine.execRehome p s
  | .wheelChange p => Sys2Proof.Machine.execWheelChange p s
  | .wheelMounted p => Sys2Proof.Machine.execWheelMounted p s
  | .loadSupply p kind ribbon tape => Sys2Proof.Machine.execLoadSupply p kind ribbon tape s
  | .liftLast p => Sys2Proof.Machine.execLiftLast p s
  | .liftWord p => Sys2Proof.Machine.execLiftWord p s
  | .liftLine p => Sys2Proof.Machine.execLiftLine p s
  | .liftBack p offset position => Sys2Proof.Machine.execLiftBack p offset position s
  | .retractLine p => Sys2Proof.Machine.execRetractLine p s
  | .relocate p => Sys2Proof.Machine.execRelocate p s
  | .readSuspect p index => Sys2Proof.Machine.execReadSuspect p index s
  | .ignoreSuspect p index => Sys2Proof.Machine.execIgnoreSuspect p index s
  | .addWordByIndex p index => Sys2Proof.Machine.execAddWordByIndex p index s
  | .addWord p letters => Sys2Proof.Machine.execAddWord p letters s
  | .removeWord p letters => Sys2Proof.Machine.execRemoveWord p letters s
  | .saveUserWords p => Sys2Proof.Machine.execSaveUserWords p s
  | .checkWord p letters => Sys2Proof.Machine.execCheckWord p letters s
  | .showMessage p duration text => Sys2Proof.Machine.execShowMessage p duration text s
  | .clearMessage p => Sys2Proof.Machine.execClearMessage p s
  | .setTones p tone divider duty => Sys2Proof.Machine.execSetTones p tone divider duty s
  | .composeStroke => Sys2Proof.Machine.execComposeStroke s
  | .lineConversion => Sys2Proof.Machine.execLineConversion s
  | .jobStart => Sys2Proof.Machine.execJobStart s
  | .wheelSettled => Sys2Proof.Machine.execWheelSettled s
  | .carrierArrived => Sys2Proof.Machine.execCarrierArrived s
  | .hammerPulseEnd => Sys2Proof.Machine.execHammerPulseEnd s
  | .hammerReturned => Sys2Proof.Machine.execHammerReturned s
  | .tapeRaised => Sys2Proof.Machine.execTapeRaised s
  | .platenStopped => Sys2Proof.Machine.execPlatenStopped s
  | .homeReached => Sys2Proof.Machine.execHomeReached s
  | .indexFound hub => Sys2Proof.Machine.execIndexFound hub s
  | .wheelLimitExpiry => Sys2Proof.Machine.execWheelLimitExpiry s
  | .carrierLimitExpiry => Sys2Proof.Machine.execCarrierLimitExpiry s
  | .hammerLimitExpiry => Sys2Proof.Machine.execHammerLimitExpiry s
  | .tapeLimitExpiry => Sys2Proof.Machine.execTapeLimitExpiry s
  | .homingLimitExpiry => Sys2Proof.Machine.execHomingLimitExpiry s
  | .restTimerExpiry => Sys2Proof.Machine.execRestTimerExpiry s
  | .holdLimitExpiry => Sys2Proof.Machine.execHoldLimitExpiry s
  | .awaitTimeout place => Sys2Proof.Machine.execAwaitTimeout place s
  | .storeOpComplete bytes => Sys2Proof.Machine.execStoreOpComplete bytes s
  | .busyLimitExpiry => Sys2Proof.Machine.execBusyLimitExpiry s
  | .blinkToggle => Sys2Proof.Machine.execBlinkToggle s
  | .overlayExpiry => Sys2Proof.Machine.execOverlayExpiry s
  | .toneEnd => Sys2Proof.Machine.execToneEnd s
  | .frameTransferEnd => Sys2Proof.Machine.execFrameTransferEnd s
  | .resetInputRelease p => Sys2Proof.Machine.execResetInputRelease p s

end Sys2Proof.Machine
end

