-- ==== Sys2Proof/Safety.lean ====
section
/-! DEFINITION. What claims speak of: the parts of State and which of them a step changes, ports that can take a command,
replies, and the invariants the manual states in its prose. -/

namespace Sys2Proof.Machine

/-! ### Frames -/

/-- The parts of State. -/
inductive Part where
  | console | link | options | partition | format | line | composer | engine | memory | lift | spelling | store
  | display | tones | holdTimer | restTimer | pending
deriving DecidableEq, Repr

/-- A part is the same in two states. -/
def Part.same (q : Part) (s t : State) : Prop :=
  match q with
  | .console => t.console = s.console
  | .link => t.link = s.link
  | .options => t.options = s.options
  | .partition => t.partition = s.partition
  | .format => t.format = s.format
  | .line => t.line = s.line
  | .composer => t.composer = s.composer
  | .engine => t.engine = s.engine
  | .memory => t.memory = s.memory
  | .lift => t.lift = s.lift
  | .spelling => t.spelling = s.spelling
  | .store => t.store = s.store
  | .display => t.display = s.display
  | .tones => t.tones = s.tones
  | .holdTimer => t.holdTimer = s.holdTimer
  | .restTimer => t.restTimer = s.restTimer
  | .pending => t.pending = s.pending

/-- Every part but these is the same. -/
def changesOnly (parts : List Part) (s t : State) : Prop := ∀ q : Part, q ∉ parts → q.same s t

/-- The part of State that a port is. -/
def Part.ofPort : Port → Part
  | .console => .console
  | .link => .link

/-- R153, R156, R161: the Display Unit is what a recomposition makes of the new state, from where it stood. -/
def displayFollows (s t : State) : Prop := t.display = displayNow { t with display := s.display }

/-- R27: the hold limit timer is what its conditions in the new state make of it, from where it stood. -/
def holdFollows (s t : State) : Prop := t.holdTimer = holdNow { t with holdTimer := s.holdTimer }

/-- The image, the window, the column indicator and the hold limit timer stand as the end of a step leaves them. -/
def upToDate (s : State) : Prop := displayNow s = s.display ∧ holdNow s = s.holdTimer

/-- The frame of a step that ends with `endStep`: these parts, the display and the hold limit timer, which follow the
new state, and what the Spelling Unit and the arbiter find to do. With no line in Checking the line, the console and the
tones are as they were; with no query outstanding and no grant possible the Spelling Unit and the store are too. -/
def eventFrame (parts : List Part) (s t : State) : Prop :=
  changesOnly (parts ++ [.display, .holdTimer, .spelling, .store, .line, .console, .tones]) s t
    ∧ displayFollows s t ∧ holdFollows s t
    ∧ (s.line.phase ≠ .checking → changesOnly (parts ++ [.display, .holdTimer, .spelling, .store]) s t)
    ∧ (s.line.phase ≠ .checking → s.spelling.queries = [] → (s.store.link.isSome ∨ s.store.state ≠ .present) →
        changesOnly (parts ++ [.display, .holdTimer]) s t)

/-! ### Ports and replies -/

/-- A command written to port `p` is taken: no command is in hand and the reset input is not asserted (R171). -/
def portFree (p : Port) (s : State) : Prop := (s.port p).resetAsserted = false ∧ (s.port p).inHand = false

/-- R174, R175: the port after a block that made no notice of its own on it: the assembly is over, the command is in
hand, and the reply stands at the tail of the queue. -/
def answered (p : Port) (code : Byte) (r : Reply) (s t : State) : Prop :=
  t.port p = { s.port p with
    assembly := [], gap := none, inHand := true, queue := (s.port p).queue ++ [r.block code] }

/-- R83: the Rest timer after a block taken that leaves the engine's state alone. -/
def restAfterBlock (s t : State) : Prop := t.restTimer = (restartRest s).restTimer

/-- A block whose command changed these parts, answered with this reply. The display and the hold limit timer, unless
named, follow the new state. -/
def blockDone (parts : List Part) (p : Port) (code : Byte) (r : Reply) (s t : State) : Prop :=
  answered p code r s t ∧ restAfterBlock s t
    ∧ changesOnly (parts ++ [.ofPort p, .restTimer, .display, .holdTimer]) s t
    ∧ (.display ∉ parts → displayFollows s t) ∧ (.holdTimer ∉ parts → holdFollows s t)

/-- A block whose command changed nothing but its own port and the Rest timer: an up-to-date display and hold limit timer
stand too. -/
def blockOnly (p : Port) (code : Byte) (r : Reply) (s t : State) : Prop :=
  blockDone [] p code r s t ∧ (upToDate s → changesOnly [.ofPort p, .restTimer] s t)

/-- R65, R81, R84: a command has appended this job and is answered Started. In Resting the job starts a wheel homing;
else the engine is as it was. -/
def jobTaken (j : Job) (p : Port) (code : Byte) (s t : State) : Prop :=
  answered p code (.plain .started) s t
    ∧ changesOnly [.ofPort p, .engine, .restTimer, .display, .holdTimer] s t
    ∧ displayFollows s t ∧ holdFollows s t
    ∧ (s.engine.state ≠ .resting → t.engine = { s.engine with queue := s.engine.queue ++ [j] } ∧ restAfterBlock s t)
    ∧ (s.engine.state = .resting → t.engine = { s.engine with
          queue := s.engine.queue ++ [j]
          state := .homing
          homing := some { full := false, wake := true, stage := .wheel }
          homingLimit := some Config.homingLimit } ∧ t.restTimer = none)

/-! ### Orders in flight, and jobs that leave -/

/-- R70: the wheel rotation from a petal to another, the shorter way round; none when the wheel is there. -/
def wheelToward (petal target : Nat) : Option WheelMove :=
  if petal = target then none
  else if (target + 96 - petal) % 96 ≤ 48 then some ⟨target, true, (target + 96 - petal) % 96, 16⟩
  else some ⟨target, false, 96 - (target + 96 - petal) % 96, 16⟩

/-- R71: the carrier move from a position to another; none when the carrier is there. -/
def carrierToward (position target : Nat) : Option CarrierMove :=
  if position = target then none else some { target := target, limit := 61 }

/-- R69, R74, R76: begun from here, with no motion in flight, the order waits for the mechanism: it does not complete as
it begins. The petals are petals of the wheel. -/
def Order.takesTime (o : Order) (s : State) : Bool :=
  s.engine.wheelMove.isNone && s.engine.carrierMove.isNone && s.engine.petal < 96
    && match o with
      | .strike k => k.petal < 96
      | .lift _ e => e.petal < 96
      | .move x => s.engine.carrier != x
      | .feed n => n != 0
      | .eject => s.engine.platen < s.format.pageLength

/-- R69 to R72, R74, R76, R117: the engine once such an order has begun: the wheel turns and the carrier moves for a
Strike or a Lift, and with neither to move the hammer fires or the tape is raised at once; the carrier moves for a Move,
and the platen turns for a Feed or an Eject. -/
def orderBegun (o : Order) (e : Engine) : Engine :=
  match o with
  | .strike k => { e with
      wheelMove := wheelToward e.petal k.petal
      carrierMove := carrierToward e.carrier k.position
      hammer := if e.petal = k.petal ∧ e.carrier = k.position then .pulse k.energy else e.hammer }
  | .lift _ x => { e with
      wheelMove := wheelToward e.petal x.petal
      carrierMove := carrierToward e.carrier x.position
      tapeGuide := if e.petal = x.petal ∧ e.carrier = x.position then .rising 4 else e.tapeGuide }
  | .move x => { e with carrierMove := some { target := x, limit := 61 } }
  | .feed n => { e with platenMove := some (.feed n) }
  | .eject => { e with platenMove := some .eject }

/-- R90, R125: the notice that reports a job removed by Cancel Printing. -/
def cancelledNotice (j : Job) : Block :=
  match j.correction with
  | some c => Notice.liftDone c.command.code 1 c.lifted (c.leftmost.getD 0)
  | none => Notice.lineCancelled (j.serial.getD 0) j.struck

/-- R89, R126: the notice that reports a job discarded on entering Fault (log entry 54). -/
def faultedNotice (j : Job) : Block :=
  match j.correction with
  | some c => Notice.liftDone c.command.code 2 c.lifted (c.leftmost.getD 0)
  | none => Notice.lineCancelled (j.serial.getD 0) j.struck

/-- A port after the reports of the jobs it had sent, oldest first (log entry 56). -/
def PortState.reported (report : Job → Block) (v : PortState) (p : Port) (gone : List Job) : PortState :=
  (gone.filter (·.source == p)).foldl (fun w j => w.notice (report j)) v

/-- A port after the reports of the jobs it had sent that Cancel Printing removed. -/
def PortState.afterCancel (v : PortState) (p : Port) (gone : List Job) : PortState := v.reported cancelledNotice p gone

/-- A port after the reports of the jobs it had sent that Fault discarded. -/
def PortState.afterFault (v : PortState) (p : Port) (gone : List Job) : PortState := v.reported faultedNotice p gone

/-- R68: the Direct tally after a completed Stroke Job of a serial. -/
def Tally.adding (t : Tally) (serial : Nat) (j : Job) : Tally :=
  if t.serial = serial then ⟨serial, t.struck + j.struck, t.dropped + j.dropped⟩ else ⟨serial, j.struck, j.dropped⟩

/-! ### The counts of the timebase -/

/-- A count that may run, with the command that its end is. -/
def running (c : Instr) (n : Option Nat) : List (Instr × Nat) := n.toList.map fun k => (c, k)

/-- What is left of the hammer limit while it runs (R72). -/
def Hammer.left : Hammer → Option Nat
  | .returning n => some n
  | .idle => none
  | .pulse _ => none

/-- What is left of the tape limit while it runs (R117). -/
def TapeGuide.left : TapeGuide → Option Nat
  | .rising n => some n
  | .down => none
  | .up => none

/-- The counts that run, which a tick takes one from, each with the command that its end is (log entry 1). -/
def counts (s : State) : List (Instr × Nat) :=
  (.blinkToggle, s.display.blinkTicks)
    :: running .toneEnd (s.tones.sounding.map (·.remaining))
    ++ running .overlayExpiry (s.display.overlay.bind fun o => if o.remaining = 0 then none else some o.remaining)
    ++ running .restTimerExpiry s.restTimer
    ++ running .holdLimitExpiry s.holdTimer
    ++ s.composer.awaits.zipIdx.flatMap (fun r => running (.awaitTimeout r.2) r.1.timeout)
    ++ running (.gapTimerExpiry .console) s.console.gap
    ++ running (.gapTimerExpiry .link) s.link.gap
    ++ running .wheelLimitExpiry (s.engine.wheelMove.map (·.limit))
    ++ running .carrierLimitExpiry (s.engine.carrierMove.map (·.limit))
    ++ running .hammerLimitExpiry s.engine.hammer.left
    ++ running .tapeLimitExpiry s.engine.tapeGuide.left
    ++ running .homingLimitExpiry s.engine.homingLimit
    ++ running .busyLimitExpiry (s.store.link.bind (·.limit))

/-- What a cell holds besides where it lies. -/
def Cell.content (c : Cell) : CellKind × Byte × Bool × Bool × Nat := (c.kind, c.code, c.underline, c.bold, c.stamp)

/-- R50: of the working line and the compose position, only what a new layout computes has changed: with the map Loaded a
Line-mode line is laid out anew; with the map Unloaded nothing is. -/
def relaidOnly (s t : State) : Prop :=
  t.line = { s.line with cells := t.line.cells }
    ∧ t.line.cells.map (·.content) = s.line.cells.map (·.content)
    ∧ t.composer = { s.composer with position := t.composer.position, leftDue := t.composer.leftDue }
    ∧ (s.engine.petalMap = none → t.line = s.line ∧ t.composer.position = s.composer.position)
    ∧ (∀ m, s.engine.petalMap = some m → s.line.holder.isSome = true → s.line.mode = .line →
        t.line.cells = layFrom t.format m t.format.left s.line.cells
          ∧ t.composer.position = positionAt t.format.left t.line.cells s.line.cursor)

/-! ### Words of a line, and what an edit does to them -/

/-- R128: a cell that folds to a letter. -/
def Cell.letter (c : Cell) : Bool := c.kind == .character && (fold c.code).isSome

/-- R128: cells [first, first + count) are a word: no boundary cell inside, a letter at either end, and on both sides no
letter before the next boundary cell or the edge of the line. -/
def wordAtCells (cells : List Cell) (first count : Nat) : Bool :=
  let bounds (c : Cell) : Bool := c.kind != .character || c.code == 0x2D
  let word := (cells.drop first).take count
  word.length == count && word.all (!bounds ·)
    && word.head?.any (·.letter) && word.getLast?.any (·.letter)
    && ((cells.take first).reverse.takeWhile (!bounds ·)).all (!·.letter)
    && ((cells.drop (first + count)).takeWhile (!bounds ·)).all (!·.letter)

/-- R128, R129, R144: a record's class is that of its word; a word in a class of its own is Skipped or Long from the start,
and a checkable one is not Suspect yet. A joined record has the fragment's letters before its own. -/
def WordRecord.classed (l : WorkingLine) (w : WordRecord) : Prop :=
  let codes := ((l.cells.drop w.first).take w.count).map (·.code)
  let letters := (if w.joined then (l.joined.map (·.letters)).getD [] else []) ++ codes
  let skipped := l.unmapped = true ∨ w.count = 1 ∨ ∃ c ∈ codes, fold c = none ∧ c ≠ 0x27
  w.generation = l.generation ∧ w.upper = firstUpper letters ∧ w.joined = (w.first == 0 && l.joined.isSome)
    ∧ (skipped → w.status = .skipped)
    ∧ (¬ skipped → 24 < letters.length → w.status = .unchecked ∧ w.cause = some .long)
    ∧ (¬ skipped → letters.length ≤ 24 → (w.status = .unchecked ∧ w.cause ≠ some .long) ∨ w.status = .queued
        ∨ w.status = .good)

/-- R129, R131 step 3: the word list is divided anew from the cells as they stand: none with no list kept, else one record
for each word, in order of first cell. -/
def wordsAnew (t : State) : Prop :=
  (wordListKept t = false → t.line.words = [])
    ∧ (wordListKept t = true →
      (∀ w ∈ t.line.words, wordAtCells t.line.cells w.first w.count = true)
        ∧ (∀ i < t.line.cells.length, ∀ n ≤ t.line.cells.length, wordAtCells t.line.cells i n = true →
          ∃ w ∈ t.line.words, w.first = i ∧ w.count = n)
        ∧ t.line.words.Pairwise (fun a b => a.first < b.first)
        ∧ ∀ w ∈ t.line.words, w.classed t.line)

/-- R131, R141, R144: the spelling side of an edit. The Working suspects are withdrawn and no other. The line's lookups
leave, the one in flight marked stale; what is queued for the line afterwards is a record of the new list or the
fragment that was joined to it; every other entry stays. The list is made anew, and a complete word is left Unchecked
without a cause only when the spell queue is full. -/
def editedSpelling (s t : State) : Prop :=
  let ours (e : SpellEntry) : Bool := e.origin != .query && e.serial == s.line.serial
  t.spelling.suspects = s.spelling.suspects.filter (·.place != .working)
    ∧ t.spelling.printWait = s.spelling.printWait ∧ t.spelling.userWords = s.spelling.userWords
    ∧ (∀ e ∈ s.spelling.queue, ours e = true → e.inFlight = true → { e with stale := true } ∈ t.spelling.queue)
    ∧ (∀ e ∈ s.spelling.queue, ours e = false →
        e ∈ t.spelling.queue ∨ { e with inFlight := true } ∈ t.spelling.queue)
    ∧ (∀ e ∈ t.spelling.queue, ours e = true → e.stale = true
        ∨ (∃ w ∈ t.line.words, w.first = e.first ∧ w.count = e.count ∧ w.generation = e.generation
          ∧ w.status = .queued)
        ∨ (t.line.joined = none ∧ ∃ f, s.line.joined = some f ∧ e.letters = f.letters))
    ∧ wordsAnew t
    ∧ (∀ w ∈ t.line.words, w.status = .unchecked → w.cause = none →
        ((t.line.cells.drop (w.first + w.count)).any fun c => c.kind != .character || c.code == 0x2D) = true →
        8 ≤ t.spelling.queue.length)

/-- A spell queue entry without the mark of the one in flight, which the arbiter sets (R16). -/
def SpellEntry.unmarked (e : SpellEntry) : SpellEntry := { e with inFlight := false }

/-- R136, R137: every lookup of the spell queue keeps its place, the one in flight its mark, and new ones join behind. -/
def lookupsStand (s t : State) : Prop :=
  s.spelling.queue.map (·.unmarked) <+: t.spelling.queue.map (·.unmarked)
    ∧ ∀ e ∈ s.spelling.queue, e.inFlight = true → e ∈ t.spelling.queue

/-- R130, R135, R136, R138: a checkable word of the line held by port `p` has been tried: it is Good from the user word list,
stays Unchecked with eight lookups queued, is Unavailable without a lexicon, or is Queued with its lookup. -/
def wordTried (p : Port) (first count : Nat) (letters : List Byte) (s t : State) : Prop :=
  let good := userGood s.spelling.userWords letters
  let room := s.spelling.queue.length < 8
  ∃ w ∈ t.line.words, w.first = first ∧ w.count = count
    ∧ (good = true → w.status = .good)
    ∧ (good = false → ¬ room → w.status = .unchecked ∧ w.cause = none)
    ∧ (good = false → room → s.store.lexiconAvailable = false → w.status = .unchecked ∧ w.cause = some .unavailable)
    ∧ (good = false → room → s.store.lexiconAvailable = true → w.status = .queued
        ∧ ∃ e ∈ t.spelling.queue, e.origin = .line p ∧ e.serial = s.line.serial ∧ e.first = first ∧ e.count = count
          ∧ e.letters = letters ∧ e.generation = w.generation ∧ e.stale = false)

/-- R129, R130, R131: the spelling side of an insertion at the end of a line held by port `p`, which is no edit. The suspects
and the lookups that wait stand. A boundary cell completes the word whose token it ends: with a word list kept, a
checkable one not tried before is tried now. Any other cell completes no word, and no lookup of a line joins. (A joined
fragment that the first cell sends to be checked alone may join too: R144.) -/
def extendedSpelling (p : Port) (c : Cell) (s t : State) : Prop :=
  let bounds (x : Cell) : Bool := x.kind != .character || x.code == 0x2D
  t.spelling.suspects = s.spelling.suspects ∧ lookupsStand s t
    ∧ (bounds c = true → wordListKept s = true → s.line.unmapped = false →
      ∀ first count : Nat, first + count ≤ s.line.cells.length → wordAtCells s.line.cells first count = true →
        (s.line.cells.drop (first + count)).all (!bounds ·) = true → (s.line.joined = none ∨ first = 0) →
        (∀ o ∈ s.line.words, o.first = first → o.count = count → o.status = .unchecked ∧ o.cause = none) →
        let codes := ((s.line.cells.drop first).take count).map (·.code)
        let letters := (if first = 0 then (s.line.joined.map (·.letters)).getD [] else []) ++ codes
        2 ≤ count → (∀ b ∈ codes, fold b ≠ none ∨ b = 0x27) → letters.length ≤ 24 →
        wordTried p first count letters s t)
    ∧ (bounds c = false → s.line.joined = none →
      (t.spelling.queue.filter (·.origin != .query)).map (·.unmarked)
        = (s.spelling.queue.filter (·.origin != .query)).map (·.unmarked))

/-! ### Taking a stroke, and the fragments at a claim -/

/-- R25, R37, R41: the head stroke of port `p` cannot be taken: its ring is empty, the map is Unloaded, the line is Ending or
held by the other port, the ring is the link's while Away, or the stroke would be composed in Direct mode and the Print
Queue is full or the engine in Fault. -/
def headWaits (p : Port) (s : State) : Prop :=
  s.composer.ring p = [] ∨ s.engine.petalMap = none
    ∨ s.line.phase = .checking ∨ s.line.phase = .waiting
    ∨ ((s.line.phase = .composing ∨ s.line.phase = .held) ∧ s.line.holder ≠ some p)
    ∨ (s.lift.away = true ∧ p = .link)
    ∨ ((if s.line.phase = .free then p = .console ∧ s.options.entryMode = .direct else s.line.mode = .direct)
        ∧ (4 ≤ s.engine.queue.length ∨ s.engine.state = .fault))

/-- R144: a fragment of port `q` is checked alone, as a word of its own line, where its lookup is one to make: the setting of
`q` on, no more than 24 letters, not on the user word list, fewer than `room` lookups queued and the lexicon available
(without room it goes unchecked: log entry 25). -/
def checkedAlone (q : Port) (f : Fragment) (room : Nat) (s t : State) : Prop :=
  s.options.spellingOf q = true → f.letters.length ≤ 24 → userGood s.spelling.userWords f.letters = false →
    s.spelling.queue.length < room → s.store.lexiconAvailable = true →
    ∃ e ∈ t.spelling.queue, e.origin = .line q ∧ e.serial = f.serial ∧ e.first = f.first ∧ e.count = f.count
      ∧ e.letters = f.letters

/-- R144: the stroke `k` has claimed the line for port `p`: no fragment is pending. The fragment of the other port is checked
alone. The port's own is joined to the line; where the stroke's cell begins no word at cell 0 and the port's spelling is
on, it is then checked alone (behind the other port's, when there is one). -/
def fragmentsResolved (p : Port) (k : Stroke) (s t : State) : Prop :=
  let letter := ∃ code, k.kind = .character code ∧ isLetter code = true
  t.spelling.consoleFragment = none ∧ t.spelling.linkFragment = none
    ∧ (∀ f, s.spelling.fragment (Port.other p) = some f → checkedAlone (Port.other p) f 8 s t)
    ∧ (t.line.phase ≠ .free → (t.line.cells = [] ∨ letter ∨ s.options.spellingOf p = false) →
        t.line.joined = s.spelling.fragment p)
    ∧ (∀ f, s.spelling.fragment p = some f → t.line.cells ≠ [] → ¬ letter → s.options.spellingOf p = true →
        t.line.joined = none
          ∧ checkedAlone p f (if (s.spelling.fragment (Port.other p)).isSome then 7 else 8) s t)

/-! ### Invariants -/

/-- A list of positions in ascending order, none twice. -/
def strictlyRising : List Nat → Bool
  | a :: b :: rest => a < b && strictlyRising (b :: rest)
  | _ => true

/-- R47: every field of the Format Record lies in its range, L + 120 ≤ Rm among them. -/
def FormatRecord.inRange (f : FormatRecord) : Bool :=
  f.left ≤ 1440 && 120 ≤ f.right && f.right ≤ 1560 && f.left + 120 ≤ f.right
    && f.tabs.length ≤ 16 && f.tabs.all (· ≤ 1559) && strictlyRising f.tabs
    && 2 ≤ f.lineSpacing && f.lineSpacing ≤ 4 && f.zone ≤ 240 && 24 ≤ f.pageLength && f.pageLength ≤ 204

/-- R47. -/
def formatInv (s : State) : Prop := s.format.inRange = true

/-- R65: the Print Queue holds up to 4 jobs. -/
def queueInv (s : State) : Prop := s.engine.queue.length ≤ Config.queueJobs

/-- R97: Correction Memory holds at most 8 line records. -/
def recordsInv (s : State) : Prop := s.memory.records.length ≤ Config.memoryRecords

/-- R139, R140: the suspect list and the print-wait list hold at most 16 entries. -/
def suspectsInv (s : State) : Prop :=
  s.spelling.suspects.length ≤ Config.suspectEntries ∧ s.spelling.printWait.length ≤ Config.suspectEntries

/-- R136: the spell queue holds up to 8 entries. -/
def spellQueueInv (s : State) : Prop := s.spelling.queue.length ≤ Config.spellEntries

/-- R147: the user word list is in strictly ascending order and holds no more words than its capacity. -/
def userWordsInv (s : State) : Prop :=
  ascending s.spelling.userWords = true ∧ s.spelling.userWords.length ≤ s.partition.userWords

/-- R190: the partition is valid. -/
def partitionInv (s : State) : Prop := s.partition.valid = true

/-- The replies a port holds, in its queue and its read buffer. -/
def PortState.replies (v : PortState) : Nat :=
  (v.queue.filter (·.kind == replyKind)).length
    + (match v.readBuffer with
      | some r => if r.block.kind == replyKind then 1 else 0
      | none => 0)

/-- How many notices of a kind stand in a port's queue. -/
def PortState.holds (v : PortState) (kind : Byte) : Nat := (v.queue.filter (·.kind == kind)).length

/-- R172, R177, R179, R180: never more than one reply, and none without a command in hand; no gap timer with a command in
hand; no coalescing kind more than once; at most 4 job notices. -/
def PortState.ordered (v : PortState) : Prop :=
  v.replies ≤ 1 ∧ (v.inHand = false → v.replies = 0) ∧ (v.inHand = true → v.gap = none)
    ∧ (∀ kind : Byte, kind ≠ replyKind → coalesces kind = true → v.holds kind ≤ 1)
    ∧ (v.queue.filter isJobNotice).length ≤ Config.jobNoticePlaces

/-- R177 for both ports. -/
def portsInv (s : State) : Prop := s.console.ordered ∧ s.link.ordered

/-- R43, R177: pending requests and Keys Collected notices in the link's queue fill at most four places. -/
def awaitInv (s : State) : Prop := awaitLoad s ≤ Config.awaitSlots

/-- R19: a Free line has no holder and any other has one; at most 160 cells, the carry's among them; the cursor within
the cells; the rise within 4. -/
def lineInv (s : State) : Prop :=
  (s.line.phase = .free ↔ s.line.holder = none)
    ∧ s.line.cells.length ≤ Config.lineCells
    ∧ (∀ carry, s.line.carry = some carry → carry.length ≤ Config.lineCells)
    ∧ s.line.cursor ≤ s.line.cells.length
    ∧ -4 ≤ s.line.rise ∧ s.line.rise ≤ 4

/-- R27: the hold limit timer runs exactly while its conditions hold. -/
def holdInv (s : State) : Prop := s.holdTimer.isSome = holdRuns s

/-- R153, R165: the image is the one its sources compose. -/
def imageInv (s : State) : Prop := s.display.image = imageNow s

end Sys2Proof.Machine
end

