-- ==== Sys2Proof/WellFormed.lean ====
section
/-! DEFINITION. Which commands can be sent at all: the bounds of the operands that a type does not carry. -/

namespace Sys2Proof

/-- The counts a block may carry (R185, command code list), the pending list's four places (R43) and the longest
read the part makes (R12: 1023 records of 8 bytes). Every other operand is bounded by its type. -/
def Instr.wellFormed : Instr → Bool
  | .typeText _ text => text.length ≤ 30
  | .addWord _ letters => 1 ≤ letters.length && letters.length ≤ 30
  | .removeWord _ letters => 1 ≤ letters.length && letters.length ≤ 30
  | .checkWord _ letters => 1 ≤ letters.length && letters.length ≤ 30
  | .showMessage _ _ text => text.length ≤ 28
  | .awaitTimeout place => place < 4
  | .storeOpComplete bytes => bytes.length ≤ 8184
  | .powerOn => true
  | .resetLine => true
  | .portReset _ => true
  | .dataWrite _ _ => true
  | .dataRead _ => true
  | .statusRead _ => true
  | .gapTimerExpiry _ => true
  | .readStatus _ => true
  | .setNotices _ _ _ _ => true
  | .setOption _ _ _ => true
  | .partition _ _ _ _ _ => true
  | .restart _ => true
  | .keyStroke _ _ _ => true
  | .releaseLine _ => true
  | .awaitKeys _ _ _ _ => true
  | .cancelAwait _ => true
  | .setMargins _ _ _ => true
  | .setTab _ _ => true
  | .clearTab _ _ => true
  | .clearAllTabs _ => true
  | .setSpacing _ _ => true
  | .setLineSpacing _ _ => true
  | .setImpression _ _ => true
  | .setMarginZone _ _ => true
  | .setPageLength _ _ => true
  | .readFormat _ => true
  | .feed _ _ => true
  | .formFeed _ => true
  | .cancelPrinting _ => true
  | .rehome _ => true
  | .wheelChange _ => true
  | .wheelMounted _ => true
  | .loadSupply _ _ _ _ => true
  | .liftLast _ => true
  | .liftWord _ => true
  | .liftLine _ => true
  | .liftBack _ _ _ => true
  | .retractLine _ => true
  | .relocate _ => true
  | .readSuspect _ _ => true
  | .ignoreSuspect _ _ => true
  | .addWordByIndex _ _ => true
  | .saveUserWords _ => true
  | .clearMessage _ => true
  | .setTones _ _ _ _ => true
  | .composeStroke => true
  | .lineConversion => true
  | .jobStart => true
  | .wheelSettled => true
  | .carrierArrived => true
  | .hammerPulseEnd => true
  | .hammerReturned => true
  | .tapeRaised => true
  | .platenStopped => true
  | .homeReached => true
  | .indexFound _ => true
  | .wheelLimitExpiry => true
  | .carrierLimitExpiry => true
  | .hammerLimitExpiry => true
  | .tapeLimitExpiry => true
  | .homingLimitExpiry => true
  | .restTimerExpiry => true
  | .holdLimitExpiry => true
  | .busyLimitExpiry => true
  | .blinkToggle => true
  | .overlayExpiry => true
  | .toneEnd => true
  | .frameTransferEnd => true
  | .resetInputRelease _ => true

end Sys2Proof
end

