-- ==== Sys2Proof/Certificates/Slice0/Obligations.lean ====
section
/-! DEFINITION. The statements for the provers. -/

open Sys2Proof Sys2Proof.Machine

/-- POWER_ON and RESET_LINE put every block into its power-on state, whatever stood before (the queue of waiting
commands is the model's own and stays); in that state the ports are empty with all notices enabled, options,
partition and format are at their defaults, the line is Free, a full homing and a store start-up have begun, and
every list, ring, refusal record, fragment and count of lost notices is empty or zero (the values the manual does
not state are the model's: log entries 6 and 7; that the queue stays is log entry 43) (R193, R184, R189, R190, R46,
R91, R109, R127, R152, R165, R169, R2). -/
def Obligations.ResetState : Prop :=
  let s := State.reset
  s.console = .reset ∧ s.link = .reset ∧ PortState.reset.statusByte = 1 ∧ PortState.reset.enable = BitVec.allOnes 19
    ∧ s.options.entryMode = .direct ∧ s.options.keyboardSharing = false ∧ s.options.spelling = true
    ∧ s.options.spellHold = false ∧ s.options.restDelay = 5 ∧ s.options.holdLimit = 10 ∧ s.options.doneTone = false
    ∧ s.options.linkSpelling = false
    ∧ s.partition = { pool := 960, userWords := 256, linkRing := 1024, consoleRing := 256 } ∧ s.freeEntries = 960
    ∧ s.format.left = 120 ∧ s.format.right = 1020 ∧ s.format.tabs = [] ∧ s.format.spacing = .fixed12
    ∧ s.format.lineSpacing = 2 ∧ s.format.impression = .normal ∧ s.format.zone = 84 ∧ s.format.pageLength = 132
    ∧ s.format.consoleWrap = true ∧ s.format.linkWrap = true ∧ s.format.consoleJustify = false
    ∧ s.format.linkJustify = false
    ∧ s.line.phase = .free ∧ s.line.holder = none ∧ s.line.serial = 0 ∧ s.composer.nextSerial = 1
    ∧ s.composer.lastHolder = none ∧ s.composer.position = 120 ∧ s.composer.awaits = [] ∧ s.composer.awaitTag = 0
    ∧ s.engine.state = .homing ∧ s.engine.homing = some { full := true, wake := false, stage := .carrier }
    ∧ s.engine.homingLimit = some 301 ∧ s.engine.petalMap = none ∧ s.engine.queue = []
    ∧ s.engine.ribbonKind = .correctable ∧ s.engine.ribbon = 0 ∧ s.engine.tape = 0
    ∧ s.memory.records = [] ∧ s.lift.away = false ∧ s.lift.point = none ∧ s.lift.owed = false
    ∧ s.spelling.queue = [] ∧ s.spelling.suspects = [] ∧ s.spelling.userWords = []
    ∧ s.spelling.printWait = [] ∧ s.spelling.printing = [] ∧ s.spelling.queries = [] ∧ s.spelling.queryTag = 0
    ∧ s.spelling.consoleFragment = none ∧ s.spelling.linkFragment = none
    ∧ s.composer.consoleRing = [] ∧ s.composer.linkRing = [] ∧ s.composer.linkUnderline = false
    ∧ s.composer.linkBold = false ∧ s.composer.consoleRefusals = { code := none, count := 0 }
    ∧ s.composer.linkRefusals = { code := none, count := 0 }
    ∧ (∀ p : Port, (s.port p).lost = 0 ∧ (s.port p).queue = [] ∧ (s.port p).assembly = [] ∧ (s.port p).readBuffer = none
        ∧ (s.port p).gap = none ∧ (s.port p).inHand = false ∧ (s.port p).overrun = false)
    ∧ s.line.cells = [] ∧ s.line.words = [] ∧ s.line.carry = none ∧ s.line.joined = none
    ∧ s.memory.openRecord = none ∧ s.memory.resumeRecord = none ∧ s.memory.returnRecord = none
    ∧ s.lift.strikeSeen = false ∧ s.engine.tally = { serial := 0, struck := 0, dropped := 0 }
    ∧ s.store.flags = ⟨false, false, false, false, false⟩
    ∧ s.store.wheelIndex = [] ∧ s.store.save = none ∧ s.store.wheelRequest = none
    ∧ s.display.dirty = false ∧ s.display.window = 0
    ∧ s.store.state = .starting ∧ s.store.link = some { owner := .startUp, op := .resetPair, limit := none }
    ∧ s.display.image = .blank ∧ s.display.overlay = none ∧ s.display.blinkOn = true ∧ s.display.transfer = some .blank
    ∧ s.tones.sounding = none ∧ s.tones.refuse = { divider := 40, duty := .half }
    ∧ s.restTimer = none ∧ s.holdTimer = none
    ∧ (∀ u : State, exec .powerOn u = .next { State.reset with pending := u.pending }
        ∧ exec .resetLine u = .next { State.reset with pending := u.pending })

/-- A step takes the command at the front of the queue and is exec of it with the queue's rest
(spec/95_what_each_step_holds.md). -/
def Obligations.StepRunsFrontCommand : Prop :=
  ∀ (c : Instr) (rest : List Instr) (s : State),
    step { s with pending := c :: rest } = exec c { s with pending := rest }

/-- With no command waiting a step is one tick of the timebase (the model's choice, log entry 1): with no count at its
end, every running count (blink phase, sounding tone, timed overlay, Rest timer, hold limit, Await timeouts, both
gap timers, wheel, carrier, hammer, tape, homing and busy limits) loses one and nothing else changes; a count at its
end, with no other but the blink phase running, does what its expiry row does (R15, R27, R43, R70, R71, R72, R79,
R83, R117, R157, R163, R166). -/
def Obligations.StepTicksWhenIdle : Prop :=
  (∀ s : State, s.pending = [] → (∀ x ∈ counts s, 1 < x.2) →
      step s = .next { s with
        display := { s.display with
          blinkTicks := s.display.blinkTicks - 1
          overlay := s.display.overlay.map fun o => { o with remaining := o.remaining - 1 } }
        tones := { s.tones with sounding := s.tones.sounding.map fun x => { x with remaining := x.remaining - 1 } }
        restTimer := s.restTimer.map (· - 1)
        holdTimer := s.holdTimer.map (· - 1)
        composer := { s.composer with
          awaits := s.composer.awaits.map fun r => { r with timeout := r.timeout.map (· - 1) } }
        console := { s.console with gap := s.console.gap.map (· - 1) }
        link := { s.link with gap := s.link.gap.map (· - 1) }
        engine := { s.engine with
          wheelMove := s.engine.wheelMove.map fun w => { w with limit := w.limit - 1 }
          carrierMove := s.engine.carrierMove.map fun c => { c with limit := c.limit - 1 }
          hammer := match s.engine.hammer with | .returning n => .returning (n - 1) | h => h
          tapeGuide := match s.engine.tapeGuide with | .rising n => .rising (n - 1) | g => g
          homingLimit := s.engine.homingLimit.map (· - 1) }
        store := { s.store with link := s.store.link.map fun x => { x with limit := x.limit.map (· - 1) } } })
    ∧ (∀ s : State, s.pending = [] → counts s = [(.blinkToggle, 1)] → step s = exec .blinkToggle s)
    ∧ (∀ (c : Instr) (n : Nat) (s : State), s.pending = [] → counts s = [(.blinkToggle, n), (c, 1)] → 1 < n →
      upToDate s → s.store.save = none →
      step s = exec c { s with display := { s.display with blinkTicks := n - 1 } })

/-- Every command in every state answers a next state (a report or an expiry that nothing awaits leaves the state as it
is: log entry 2), and leaves the queue of waiting commands alone (the model's choice, log entry 43)
(spec/95_what_each_step_holds.md). -/
def Obligations.EveryCommandCompletes : Prop :=
  ∀ (c : Instr) (s : State), ∃ t, exec c s = .next t ∧ t.pending = s.pending

/-- Decoding the code and data of any command that is a block gives the command back, and a well-formed one has a count
that the command code list allows (R185). -/
def Obligations.DecodeOfEncodeBlock : Prop :=
  ∀ (i : Instr) (p : Port) (code : Byte) (data : List Byte), encodeBlock i = some (p, code, data) →
    decodeBlock p code data = some i
      ∧ (i.wellFormed = true → ∃ r, codeRow code = some r ∧ r.least ≤ data.length ∧ data.length ≤ r.most)

/-- A command block row (the model's reading of it, log entry 4) is what its bytes do, written one by one: for every
well-formed block command, on a port that takes bytes and has an empty assembly, exec of the row is the state after
DATA_WRITE of each byte of the framed block (R172, R174, R175). -/
def Obligations.BytesMakeTheBlock : Prop :=
  ∀ (i : Instr) (p : Port) (code : Byte) (data : List Byte) (s : State),
    encodeBlock i = some (p, code, data) → i.wellFormed = true → portFree p s → (s.port p).assembly = [] →
    exec i s = .next ((frameBlock code data).foldl (fun t b => writeByte p b t) s)
      ∧ ∀ (b : Byte) (t : State), exec (.dataWrite p b) t = .next (writeByte p b t)

/-- Every step keeps: every field of the Format Record in its range, L + 120 ≤ Rm among them; and the partition valid
(R47, R190). -/
def Obligations.StepKeepsFormatAndPartition : Prop :=
  (∀ s t : State, formatInv s → step s = .next t → formatInv t)
    ∧ (∀ s t : State, partitionInv s → step s = .next t → partitionInv t)

/-- Every step keeps: at most 4 jobs in the Print Queue; at most 8 line records in Correction Memory; at most 16 entries
in the suspect list and in the print-wait list; at most 8 entries in the spell queue (R65, R97, R139, R140, R136). -/
def Obligations.StepKeepsBoundedCollections : Prop :=
  (∀ s t : State, queueInv s → step s = .next t → queueInv t)
    ∧ (∀ s t : State, recordsInv s → step s = .next t → recordsInv t)
    ∧ (∀ s t : State, suspectsInv s → step s = .next t → suspectsInv t)
    ∧ (∀ s t : State, spellQueueInv s → step s = .next t → spellQueueInv t)

/-- Every step keeps: the user word list strictly ascending and within its capacity (R147). -/
def Obligations.StepKeepsUserWords : Prop :=
  ∀ s t : State, userWordsInv s → step s = .next t → userWordsInv t

/-- Every step keeps: on each port at most one reply, none without a command in hand, no gap timer with one, no
coalescing kind twice, at most 4 job notices (R177, R179, R180). -/
def Obligations.StepKeepsPorts : Prop :=
  ∀ s t : State, portsInv s → step s = .next t → portsInv t

/-- Every step keeps: pending Await requests and Keys Collected notices within four places (R43). -/
def Obligations.StepKeepsAwaitPlaces : Prop :=
  ∀ s t : State, awaitInv s → step s = .next t → awaitInv t

/-- Every step keeps: the line Free exactly when it has no holder, at most 160 cells, the cursor within them, the rise
within 4 (R19). -/
def Obligations.StepKeepsLine : Prop :=
  ∀ s t : State, lineInv s → step s = .next t → lineInv t

/-- Every step keeps: the hold limit timer running exactly while its conditions hold (R27). -/
def Obligations.StepKeepsHoldTimer : Prop :=
  ∀ s t : State, holdInv s → step s = .next t → holdInv t

/-- Every step keeps: the display image the one that its sources compose (R153). -/
def Obligations.StepKeepsImage : Prop :=
  ∀ s t : State, imageInv s → step s = .next t → imageInv t

/-- Every invariant of the statements StepKeeps… holds at reset (R47, R190, R65, R97, R139, R136, R147, R177, R43, R19,
R27, R153). -/
def Obligations.InvariantsAtReset : Prop :=
  formatInv State.reset
    ∧ partitionInv State.reset
    ∧ queueInv State.reset
    ∧ recordsInv State.reset
    ∧ suspectsInv State.reset
    ∧ spellQueueInv State.reset
    ∧ userWordsInv State.reset
    ∧ portsInv State.reset
    ∧ awaitInv State.reset
    ∧ lineInv State.reset
    ∧ holdInv State.reset
    ∧ imageInv State.reset

/-- A complete block that fails a check of R174 changes nothing but its own port and the Rest timer: an unknown code is
answered Unknown, a port that the list does not permit for the code NotPermitted, a count that the code does not
allow Length, in that order; so does the DATA_WRITE of the byte that closes it, and a well-formed command row from a
wrong port (the model's reading of a row, log entry 4) (R172, R174, R175, R185). -/
def Obligations.WrongPortIsNotPermitted : Prop :=
  (∀ (i : Instr) (p : Port) (code : Byte) (data : List Byte) (r : CodeRow) (s : State),
      encodeBlock i = some (p, code, data) → i.wellFormed = true → portFree p s →
      codeRow code = some r → r.permits p = false →
      ∃ t, exec i s = .next t ∧ blockOnly p code (.plain .notPermitted) s t)
    ∧ (∀ (p : Port) (code n : Byte) (data : List Byte) (s : State), portFree p s →
      (s.port p).assembly = code :: n :: data → n.toNat ≤ 30 → data.length = n.toNat →
      ∃ t, exec (.dataWrite p (BitVec.ofNat 8 (n.toNat + 3))) s = .next t
        ∧ (codeRow code = none → blockOnly p code (.plain .unknown) s t)
        ∧ (∀ r, codeRow code = some r → r.permits p = false → blockOnly p code (.plain .notPermitted) s t)
        ∧ (∀ r, codeRow code = some r → r.permits p = true → (n.toNat < r.least ∨ r.most < n.toNat) →
            blockOnly p code (.plain .length) s t))

/-- PORT_RESET empties the port's assembly, queue and read buffer (in Checking with the line not discarded, which no run
reaches, the console's queue holds nothing or just the Line Held that the step made), ends its command in hand,
clears Overrun and the lost count, enables all notices, and empties the port's ring, refusal record and fragment;
options, partition, format, Correction Memory and the other port stand (in Checking a reset of the link may bring
the console the Line Held of a line whose last waiting words took the room of its queries); a line the port holds is
discarded, its Working suspects with it, unless the console's port is reset while Away: then a Relocate is queued,
or owed with the queue full, if none is queued, and the window start goes back to 0 before its adjustment at the end
of the step (the target without a Relocate Point is log entry 20) (R182, R46, R152, R184, R40, R126, R141, R144,
R165, R145, R146). -/
def Obligations.PortResetClearsThePort : Prop :=
  ∀ (p : Port) (s : State), ∃ t, exec (.portReset p) s = .next t
    ∧ (t.port p).assembly = [] ∧ (t.port p).gap = none ∧ (t.port p).inHand = false
    ∧ (t.port p).readBuffer = none ∧ (t.port p).overrun = false ∧ (t.port p).enable = BitVec.allOnes 19
    ∧ (t.port p).lost = 0 ∧ (t.port p).resetAsserted = true
    ∧ t.composer.ring p = [] ∧ t.composer.refusals p = .clear ∧ t.spelling.fragment p = none
    ∧ t.composer.ring (Port.other p) = s.composer.ring (Port.other p)
    ∧ (p = .link → t.composer.awaits = [] ∧ t.composer.linkUnderline = false ∧ t.composer.linkBold = false
        ∧ t.spelling.queries = [])
    ∧ (s.line.phase ≠ .checking → (t.port p).queue = [] ∧ t.port (Port.other p) = s.port (Port.other p))
    ∧ ((p = .link ∨ s.line.phase ≠ .checking ∨ (s.line.holder = some .console ∧ s.lift.away = false)) →
        (t.port p).queue = [])
    ∧ (s.line.phase = .checking →
        let held := Notice.lineHeld t.line.serial (t.line.words.filter (·.status == .suspect)).length
        ((t.port p).queue = [] ∨ (p = .console ∧ t.line.phase = .held ∧ (t.port p).queue = [held]))
          ∧ (t.port (Port.other p) = s.port (Port.other p)
            ∨ (p = .link ∧ t.line.phase = .held ∧ t.console = s.console.notice held)))
    ∧ (s.line.holder = some p → t.display.window = adjustWindow 0 (displaySource t).cursor)
    ∧ (s.line.holder = some p → s.lift.away = false →
        t.line = .free ∧ t.composer.lastHolder = some p ∧ t.engine = s.engine ∧ t.lift = s.lift
          ∧ t.composer.position = (if s.line.mode = .line then s.format.left else s.composer.position)
          ∧ (∀ x ∈ t.spelling.suspects, x.place ≠ .working))
    ∧ (s.line.holder ≠ some p → t.engine = s.engine ∧ t.lift = s.lift ∧ t.line.holder = s.line.holder
        ∧ t.line.cells = s.line.cells)
    ∧ (s.line.holder = some p → s.lift.away = true → t.line.holder = s.line.holder ∧ t.line.cells = s.line.cells
        ∧ (s.engine.queue.any (·.relocate) = true → t.engine = s.engine ∧ t.lift = s.lift)
        ∧ (s.engine.queue.any (·.relocate) = false → s.engine.queue.length < 4 →
            t.engine.queue = s.engine.queue ++ [relocateJob (match s.lift.point with
              | some (x, _) => x
              | none => s.composer.position)] ∧ t.lift = s.lift)
        ∧ (s.engine.queue.any (·.relocate) = false → 4 ≤ s.engine.queue.length →
            t.engine = s.engine ∧ t.lift = { s.lift with owed := true }))
    ∧ changesOnly [.console, .link, .line, .composer, .engine, .lift, .spelling, .store, .display, .tones, .holdTimer,
        .restTimer] s t

/-- RESET_INPUT_RELEASE only ends the assertion of the port's reset input; GAP_TIMER_EXPIRY with part of a block held:
the block is refused with Gap; with the timer stopped nothing happens (log entry 2) (R170, R173, R175). -/
def Obligations.ResetReleaseAndGapExpiry : Prop :=
  (∀ (p : Port) (s : State),
      exec (.resetInputRelease p) s = .next (s.setPort p { s.port p with resetAsserted := false }))
    ∧ (∀ (p : Port) (s : State),
      (∀ (n : Nat) (code : Byte) (rest : List Byte), (s.port p).gap = some n → (s.port p).assembly = code :: rest →
        ∃ t, exec (.gapTimerExpiry p) s = .next t ∧ answered p code (.plain .gap) s t
          ∧ changesOnly [.ofPort p, .display, .holdTimer] s t ∧ displayFollows s t ∧ holdFollows s t)
        ∧ ((s.port p).gap = none → exec (.gapTimerExpiry p) s = .next s))

/-- DATA_WRITE: ignored under an asserted reset input; lost with Overrun with a command in hand; else the byte joins the
assembly and the gap timer starts from 5 ticks (6 tick events), and a count above 30 or a wrong closing byte is
answered Framing with the assembly discarded (R170, R171, R172, R173). -/
def Obligations.DataWriteTakesAByte : Prop :=
  ∀ (p : Port) (b : Byte) (s : State),
    ((s.port p).resetAsserted = true → exec (.dataWrite p b) s = .next s)
      ∧ ((s.port p).resetAsserted = false → (s.port p).inHand = true →
          exec (.dataWrite p b) s = .next (s.setPort p { s.port p with overrun := true }))
      ∧ (portFree p s → (s.port p).assembly = [] →
          exec (.dataWrite p b) s = .next (s.setPort p { s.port p with assembly := [b], gap := some 6 }))
      ∧ (∀ code : Byte, portFree p s → (s.port p).assembly = [code] → b.toNat ≤ 30 →
          exec (.dataWrite p b) s = .next (s.setPort p { s.port p with assembly := [code, b], gap := some 6 }))
      ∧ (∀ code : Byte, portFree p s → (s.port p).assembly = [code] → 30 < b.toNat →
          ∃ t, exec (.dataWrite p b) s = .next t ∧ answered p code (.plain .framing) s t
            ∧ changesOnly [.ofPort p, .display, .holdTimer] s t ∧ displayFollows s t ∧ holdFollows s t)
      ∧ (∀ (code n : Byte) (data : List Byte), portFree p s → (s.port p).assembly = code :: n :: data →
          n.toNat ≤ 30 → data.length < n.toNat →
          exec (.dataWrite p b) s =
            .next (s.setPort p { s.port p with assembly := code :: n :: data ++ [b], gap := some 6 }))
      ∧ (∀ (code n : Byte) (data : List Byte), portFree p s → (s.port p).assembly = code :: n :: data →
          n.toNat ≤ 30 → data.length = n.toNat → b ≠ BitVec.ofNat 8 (n.toNat + 3) →
          ∃ t, exec (.dataWrite p b) s = .next t ∧ answered p code (.plain .framing) s t
            ∧ changesOnly [.ofPort p, .display, .holdTimer] s t ∧ displayFollows s t ∧ holdFollows s t)

/-- DATA_READ: 0 with nothing waiting or under an asserted reset input; else the head block moves to the read buffer and
its type byte is returned, later reads return the next bytes, and the closing byte of a block empties the read
buffer and, of a reply, ends the command in hand (R170, R175, R177). -/
def Obligations.DataReadReturnsTheNextByte : Prop :=
  ∀ (p : Port) (s : State),
    ((s.port p).resetAsserted = true → exec (.dataRead p) s = .next (s.setPort p { s.port p with dataOut := 0 }))
      ∧ ((s.port p).resetAsserted = false → (s.port p).readBuffer = none → (s.port p).queue = [] →
          exec (.dataRead p) s = .next (s.setPort p { s.port p with dataOut := 0 }))
      ∧ (∀ (b : Block) (rest : List Block), (s.port p).resetAsserted = false → (s.port p).readBuffer = none →
          (s.port p).queue = b :: rest →
          exec (.dataRead p) s = .next (s.setPort p { s.port p with
            queue := rest, readBuffer := some { block := b, taken := 1 }, dataOut := b.kind }))
      ∧ (∀ r : ReadBuffer, (s.port p).resetAsserted = false → (s.port p).readBuffer = some r →
          r.taken + 1 < r.block.wire.length →
          exec (.dataRead p) s = .next (s.setPort p { s.port p with
            readBuffer := some { r with taken := r.taken + 1 }, dataOut := (r.block.wire[r.taken]?).getD 0 }))
      ∧ (∀ r : ReadBuffer, (s.port p).resetAsserted = false → (s.port p).readBuffer = some r →
          r.taken + 1 = r.block.wire.length →
          exec (.dataRead p) s = .next (s.setPort p { s.port p with
            readBuffer := none, inHand := (s.port p).inHand && r.block.kind != replyKind,
            dataOut := (r.block.wire[r.taken]?).getD 0 }))

/-- STATUS_READ returns InFree, OutReady, ReplyPending, Overrun and Assembling in bits 0 to 4 and 0 above, then clears
Overrun (R171). -/
def Obligations.StatusReadClearsOverrun : Prop :=
  ∀ (p : Port) (s : State), ∃ t, exec (.statusRead p) s = .next t
    ∧ t.port p = { s.port p with dataOut := (t.port p).dataOut, overrun := false }
    ∧ changesOnly [.ofPort p] s t
    ∧ (t.port p).dataOut.getLsbD 0 = (!(s.port p).inHand && !(s.port p).resetAsserted)
    ∧ (t.port p).dataOut.getLsbD 1 = ((s.port p).readBuffer.isSome || !(s.port p).queue.isEmpty)
    ∧ (t.port p).dataOut.getLsbD 2 = (s.port p).replyPending
    ∧ (t.port p).dataOut.getLsbD 3 = (s.port p).overrun
    ∧ (t.port p).dataOut.getLsbD 4 = !(s.port p).assembly.isEmpty
    ∧ ∀ k, 5 ≤ k → (t.port p).dataOut.getLsbD k = false

/-- READ_STATUS replies Done with the 30 bytes of section 9.8 as the state stands, clears this port's refusal count and
lost count, and changes nothing else but its port and the Rest timer; READ_FORMAT replies with the Format Record and
READ_SUSPECT with the entry of its index, or NoTarget, and they change nothing but their port and the Rest timer
(R183, R24, R180, R47, R142). -/
def Obligations.ReadingCommands : Prop :=
  (∀ (p : Port) (s : State), portFree p s → ∃ t d, exec (.readStatus p) s = .next t
      ∧ t.port p = { s.port p with
          assembly := [], gap := none, inHand := true, lost := 0
          queue := (s.port p).queue ++ [({ status := .done, data := d } : Reply).block 0x01] }
      ∧ t.composer = s.composer.setRefusals p { s.composer.refusals p with count := 0 }
      ∧ restAfterBlock s t ∧ displayFollows s t ∧ holdFollows s t
      ∧ changesOnly [.ofPort p, .composer, .restTimer, .display, .holdTimer] s t
      ∧ (upToDate s → changesOnly [.ofPort p, .composer, .restTimer] s t)
      ∧ d.length = 30
      ∧ d.take 2 = [BitVec.ofNat 8 s.engine.state.code, BitVec.ofNat 8 (holderCode s.line.holder)]
      ∧ number ((d.drop 2).take 2) = s.line.serial % 65536
      ∧ (d.drop 4).take 1 = [BitVec.ofNat 8 (s.line.phase.code + if s.lift.away then 4 else 0)]
      ∧ number ((d.drop 5).take 2) = s.composer.position % 65536
      ∧ number ((d.drop 7).take 2) = s.engine.carrier % 65536
      ∧ ((number ((d.drop 9).take 2) : Nat) : Int) = s.engine.platen % 65536
      ∧ ((number ((d.drop 11).take 2) : Nat) : Int) = s.engine.pageLines % 65536
      ∧ (d.drop 13).take 2 = [BitVec.ofNat 8 s.engine.queue.length, BitVec.ofNat 8 s.engine.ribbonKind.code]
      ∧ number ((d.drop 15).take 2) = s.engine.ribbon % 65536
      ∧ number ((d.drop 17).take 2) = s.engine.tape % 65536
      ∧ (d.drop 19).take 3 =
          [BitVec.ofNat 8 s.store.state.code, s.store.flags.byte, BitVec.ofNat 8 s.memory.records.length]
      ∧ number ((d.drop 22).take 2) = s.freeEntries % 65536
      ∧ (d.drop 24).take 1 = [BitVec.ofNat 8 s.spelling.suspects.length]
      ∧ number ((d.drop 25).take 2) = s.spelling.userWords.length % 65536
      ∧ d.drop 27 = [match (s.composer.refusals p).code with | some c => c.code | none => 0xFF,
          BitVec.ofNat 8 (s.composer.refusals p).count, BitVec.ofNat 8 (s.port p).lost])
    ∧ (∀ (p : Port) (s : State), portFree p s → ∃ t d, exec (.readFormat p) s = .next t
      ∧ blockOnly p 0x29 { status := .done, data := d } s t
      ∧ number (d.take 2) = s.format.left % 65536 ∧ number ((d.drop 2).take 2) = s.format.right % 65536
      ∧ (d.drop 4).take 1 = [BitVec.ofNat 8 s.format.tabs.length]
      ∧ ∃ stops rest, d.drop 5 = stops ++ rest ∧ stops = s.format.tabs.flatMap two ∧ rest.length = 7
        ∧ rest.take 3 = [BitVec.ofNat 8 s.format.spacing.code, BitVec.ofNat 8 s.format.lineSpacing,
            BitVec.ofNat 8 s.format.impression.code]
        ∧ number ((rest.drop 3).take 2) = s.format.zone % 65536
        ∧ (rest.drop 5).take 1 = [BitVec.ofNat 8 s.format.pageLength]
        ∧ ∀ b, rest[6]? = some b → b.getLsbD 0 = s.format.consoleWrap ∧ b.getLsbD 1 = s.format.consoleJustify
          ∧ b.getLsbD 2 = s.format.linkWrap ∧ b.getLsbD 3 = s.format.linkJustify)
    ∧ (∀ (p : Port) (i : Byte) (s : State), portFree p s → ∃ t, exec (.readSuspect p i) s = .next t
      ∧ (s.spelling.suspects[i.toNat]? = none → blockOnly p 0x50 (.plain .noTarget) s t)
      ∧ (∀ x, s.spelling.suspects[i.toNat]? = some x → ∃ d,
          blockOnly p 0x50 { status := .done, data := d } s t
            ∧ number (d.take 2) = x.serial % 65536
            ∧ (d.drop 2).take 4 = [BitVec.ofNat 8 x.place.code, BitVec.ofNat 8 x.first, BitVec.ofNat 8 x.count,
                if x.continued then 1 else 0]
            ∧ d.drop 6 = x.letters))

/-- SET_NOTICES replaces the port's notice enable set, bit k of the three bytes for kind 0xA0 + k with the first byte
the lowest (log entry 64), or is refused with Range when a bit above the 19th is set (R181). -/
def Obligations.SetNoticesReplacesTheSet : Prop :=
  ∀ (p : Port) (b0 b1 b2 : Byte) (s : State), portFree p s → ∃ t, exec (.setNotices p b0 b1 b2) s = .next t
    ∧ (8 ≤ b2.toNat → blockOnly p 0x02 (.plain .range) s t)
    ∧ (b2.toNat < 8 →
        t.port p = { s.port p with
          assembly := [], gap := none, inHand := true, enable := (t.port p).enable
          queue := (s.port p).queue ++ [(Reply.plain .done).block 0x02] }
        ∧ (∀ k < 19, (t.port p).enable.getLsbD k = (b2 ++ b1 ++ b0).getLsbD k)
        ∧ restAfterBlock s t ∧ changesOnly [.ofPort p, .restTimer, .display, .holdTimer] s t)

/-- SET_OPTION of every id, value and port completes: Range for an id outside the table, else NotPermitted outside the
option's scope, else Range for an on/off or mode value other than 0 and 1; Rest Delay and Hold Limit store the value
clamped to 0..30 and 1..60, Clamped with the stored value when it differs, and Rest Delay restarts or stops the Rest
timer in Ready; the other options store the value with Done: Keyboard Sharing off cancels every pending Await
request, oldest first (log entry 49); Spelling and Link Spelling, for a line their port holds, build the word list
or empty it and end the hold, and with either value the line loses its Working suspects (for the value on that is
the model's reading of the rebuild: log entries 26 and 67, and 68 while Away); Spell Hold off ends a hold, and
no word of a Held line is tried at it (log entry 76) (R187, R188, R83, R42, R45, R132, R141, R146). -/
def Obligations.SetOptionByItsTable : Prop :=
  (∀ (p : Port) (id : Byte) (v : Half) (s : State), portFree p s → ∃ t, exec (.setOption p id v) s = .next t
      ∧ (optionOf id = none ↔ id.toNat ∉ [0x01, 0x02, 0x03, 0x04, 0x05, 0x06, 0x07, 0x10, 0x20, 0x21])
      ∧ (optionOf id = none → blockOnly p 0x03 (.plain .range) s t)
      ∧ (∀ o, optionOf id = some o → (o.scope p = true ↔ id.toNat = 0x20 ∨ id.toNat = 0x21
            ∨ (id.toNat = 0x10 ∧ p = .link) ∨ (id.toNat ≤ 0x07 ∧ p = .console))
          ∧ (o.scope p = false → blockOnly p 0x03 (.plain .notPermitted) s t)
          ∧ (o.scope p = true → id.toNat ≠ 0x05 → id.toNat ≠ 0x06 → 1 < v.toNat → blockOnly p 0x03 (.plain .range) s t)))
    ∧ (∀ (v : Half) (s : State), portFree .console s →
      (∃ t, exec (.setOption .console 0x05 v) s = .next t
        ∧ t.options = { s.options with restDelay := min 30 v.toNat }
        ∧ answered .console 0x03 (if v.toNat ≤ 30 then .plain .done else { status := .clamped, data := [0, 30] }) s t
        ∧ (s.engine.state = .ready →
            t.restTimer = if min 30 v.toNat = 0 then none else some (min 30 v.toNat * 6000))
        ∧ (s.engine.state ≠ .ready → t.restTimer = s.restTimer)
        ∧ displayFollows s t ∧ holdFollows s t
        ∧ changesOnly [.console, .options, .restTimer, .display, .holdTimer] s t)
      ∧ (∃ t, exec (.setOption .console 0x06 v) s = .next t
        ∧ t.options = { s.options with holdLimit := max 1 (min 60 v.toNat) }
        ∧ blockDone [.options] .console 0x03 (if 1 ≤ v.toNat ∧ v.toNat ≤ 60 then .plain .done
            else { status := .clamped, data := [0, BitVec.ofNat 8 (max 1 (min 60 v.toNat))] }) s t))
    ∧ (∀ (p : Port) (s : State) (v : Half) (b : Bool), portFree p s → onOff v = some b →
      (∃ t, exec (.setOption p 0x20 v) s = .next t ∧ t.format = s.format.setWrap p b
        ∧ blockDone [.format] p 0x03 (.plain .done) s t)
      ∧ (∃ t, exec (.setOption p 0x21 v) s = .next t ∧ t.format = s.format.setJustify p b
        ∧ blockDone [.format] p 0x03 (.plain .done) s t))
    ∧ (∀ (s : State) (v : Half) (b : Bool), portFree .console s → onOff v = some b →
      (∃ t, exec (.setOption .console 0x01 v) s = .next t
        ∧ t.options = { s.options with entryMode := if b then .line else .direct }
        ∧ blockDone [.options] .console 0x03 (.plain .done) s t)
      ∧ (∃ t, exec (.setOption .console 0x07 v) s = .next t ∧ t.options = { s.options with doneTone := b }
        ∧ blockDone [.options] .console 0x03 (.plain .done) s t)
      ∧ (∃ t, exec (.setOption .console 0x02 v) s = .next t ∧ t.options = { s.options with keyboardSharing := b }
        ∧ (b = true → blockDone [.options] .console 0x03 (.plain .done) s t)
        ∧ (b = false → blockDone [.options, .composer, .link] .console 0x03 (.plain .done) s t
            ∧ t.composer = { s.composer with awaits := [] }
            ∧ t.link = s.composer.awaits.foldl (fun v r => v.notice
                (Notice.keysCollected r.tag 2 r.collected.length (r.collected.flatMap (·.encode)))) s.link))
      ∧ (∃ t, exec (.setOption .console 0x04 v) s = .next t ∧ t.options = { s.options with spellHold := b }
        ∧ (b = true → blockDone [.options] .console 0x03 (.plain .done) s t)
        ∧ (b = false → blockDone [.options, .line] .console 0x03 (.plain .done) s t
            ∧ t.line = { s.line with
                phase := if s.line.phase = .checking ∨ s.line.phase = .held then .waiting else s.line.phase })))
    ∧ (∀ (p : Port) (s : State) (v : Half) (b : Bool), portFree p s → onOff v = some b →
      ∃ t, exec (.setOption p (if p = .console then 0x03 else 0x10) v) s = .next t
      ∧ t.options = (if p = .console then { s.options with spelling := b } else { s.options with linkSpelling := b })
      ∧ changesOnly [.console, .link, .options, .line, .spelling, .store, .tones, .display, .holdTimer, .restTimer] s t
      ∧ restAfterBlock s t ∧ displayFollows s t ∧ holdFollows s t
      ∧ (t.port p).inHand = true ∧ (t.port p).queue.getLast? = some ((Reply.plain .done).block 0x03)
      ∧ t.line.cells = s.line.cells ∧ t.line.holder = s.line.holder ∧ t.spelling.printWait = s.spelling.printWait
      ∧ t.spelling.userWords = s.spelling.userWords
      ∧ (s.line.holder ≠ some p → settle s = s → blockDone [.options] p 0x03 (.plain .done) s t)
      ∧ (s.line.holder = some p → t.spelling.suspects = s.spelling.suspects.filter (·.place != .working))
      ∧ (s.line.holder = some p → b = false →
          t.line = { s.line with
            words := []
            phase := if s.line.phase = .checking ∨ s.line.phase = .held then .waiting else s.line.phase }
          ∧ (s.spelling.queries = [] → s.store.link.isSome = true → t.spelling.queue = s.spelling.queue.filterMap
              fun e => if e.origin != .query && e.serial == s.line.serial then
                (if e.inFlight then some { e with stale := true } else none) else some e))
      ∧ (s.line.holder = some p → b = true → s.lift.away = false →
          t.line.words.map (fun w => (w.first, w.count)) = (wordsOf s.line.cells).map (fun w => (w.first, w.count))
          ∧ (∀ w ∈ wordsOf s.line.cells, w.complete = true → ∀ r ∈ t.line.words, r.first = w.first →
              r.status ≠ .unchecked ∨ r.cause.isSome = true ∨ 8 ≤ t.spelling.queue.length)))

/-- PARTITION from the console: Busy unless the line is Free, the rings and the Print Queue empty, the Lift Unit Home
and the store neither starting nor saving; then Range for an invalid partition, Full for too many user words, else
the sizes are replaced and Correction Memory and the suspect list emptied (R191, R192, R108). -/
def Obligations.PartitionRedividesTheMemory : Prop :=
  ∀ (a b c d : Half) (s : State), portFree .console s → ∃ t, exec (.partition .console a b c d) s = .next t
    ∧ (partitionBusy s = true → blockOnly .console 0x04 (.plain .busy) s t)
    ∧ (partitionBusy s = false →
        ({ pool := a.toNat, userWords := b.toNat, linkRing := c.toNat, consoleRing := d.toNat } : Partition).valid = false →
        blockOnly .console 0x04 (.plain .range) s t)
    ∧ (partitionBusy s = false →
        ({ pool := a.toNat, userWords := b.toNat, linkRing := c.toNat, consoleRing := d.toNat } : Partition).valid = true →
        b.toNat < s.spelling.userWords.length → blockOnly .console 0x04 (.plain .full) s t)
    ∧ (partitionBusy s = false →
        ({ pool := a.toNat, userWords := b.toNat, linkRing := c.toNat, consoleRing := d.toNat } : Partition).valid = true →
        s.spelling.userWords.length ≤ b.toNat →
        blockDone [.partition, .memory, .lift, .spelling] .console 0x04 (.plain .done) s t
          ∧ t.partition = { pool := a.toNat, userWords := b.toNat, linkRing := c.toNat, consoleRing := d.toNat }
          ∧ t.memory.records = [] ∧ t.memory.openRecord = none ∧ t.memory.resumeRecord = none
          ∧ t.memory.returnRecord = none ∧ t.freeEntries = a.toNat
          ∧ t.lift = { s.lift with point := none }
          ∧ t.spelling = { s.spelling with suspects := [] })

/-- RESTART from the console frees the line, empties rings, Print Queue, Correction Memory and the spelling lists,
begins a full homing (with the lift tape guide down: log entry 18) and a store start-up, removes the overlay and the
tone, and keeps options, partition, format, supplies, serials and tags; it discards what the outbound queues held,
and in them stand then Line Cancelled of the discarded jobs that are no Correction jobs and, on the link, Keys
Collected (Cancelled) of every Await request, and on the console the reply (their order is log entry 13); the queue
of waiting commands is the model's own and stays (log entry 43) (R195, R18, R46, R91, R108, R127, R152, R165, R169,
R184, R45, R79). -/
def Obligations.RestartBeginsAgain : Prop :=
  ∀ s : State, portFree .console s →
    let jobs (p : Port) := s.engine.queue.filter fun j => j.kind != .correction && j.source == p
    let cancelled (v : PortState) (j : Job) := v.notice (Notice.lineCancelled (j.serial.getD 0) j.struck)
    let emptied (v : PortState) : PortState := { v with queue := [], readBuffer := none, lost := 0 }
    let console := (jobs .console).foldl cancelled (emptied s.console)
    ∃ t, exec (.restart .console) s = .next t
    ∧ t.line = .free
    ∧ t.composer = { s.composer with
        consoleRing := [], linkRing := [], lastHolder := none, position := s.format.left, awaits := []
        linkUnderline := false, linkBold := false, consoleRefusals := .clear, linkRefusals := .clear
        leftDue := false }
    ∧ t.engine = { s.engine with
        queue := [], state := .homing, homing := some { full := true, wake := false, stage := .carrier }
        homingLimit := some 301, petalMap := none, tally := .clear, wheelMove := none, carrierMove := none
        hammer := .idle, tapeGuide := .down, platenMove := none }
    ∧ t.memory = { s.memory with records := [], openRecord := none, resumeRecord := none, returnRecord := none }
    ∧ t.lift = .reset ∧ t.store = .reset
    ∧ t.spelling = { Spelling.reset with queryTag := s.spelling.queryTag }
    ∧ t.display.overlay = none ∧ t.tones = { s.tones with sounding := none }
    ∧ t.restTimer = none ∧ t.holdTimer = none
    ∧ t.console = { console with
        assembly := [], gap := none, inHand := true, queue := console.queue ++ [(Reply.plain .done).block 0x05] }
    ∧ t.link = s.composer.awaits.foldl (fun v r => v.notice
        (Notice.keysCollected r.tag 2 r.collected.length (r.collected.flatMap (·.encode))))
        ((jobs .link).foldl cancelled { emptied s.link with inHand := false })
    ∧ t.options = s.options ∧ t.partition = s.partition ∧ t.format = s.format ∧ t.pending = s.pending

/-- KEY_STROKE from the console: an encoding that names no stroke is refused with Length; with no request to take it, a
stroke joins the console ring's tail (and starts the hold limit of a console line again from full), or is lost with
Full and a Refuse tone when the ring is full. From the link it is refused with NotPermitted (R22). -/
def Obligations.KeyStrokeJoinsTheRing : Prop :=
  (∀ (b0 b1 : Byte) (s : State), portFree .console s → ∃ t, exec (.keyStroke .console b0 b1) s = .next t
      ∧ (decodeStroke b0 b1 = none → blockOnly .console 0x10 (.plain .length) s t)
      ∧ (∀ k, decodeStroke b0 b1 = some k → (s.options.keyboardSharing = false ∨ s.composer.awaits = []) →
          s.composer.consoleRing.length < s.partition.consoleRing →
          blockDone [.composer, .holdTimer] .console 0x10 (.plain .done) s t
            ∧ t.composer = { s.composer with consoleRing := s.composer.consoleRing ++ [k] }
            ∧ t.holdTimer = holdNow { t with
                holdTimer := if s.line.holder = some .console then none else s.holdTimer })
      ∧ (∀ k, decodeStroke b0 b1 = some k → (s.options.keyboardSharing = false ∨ s.composer.awaits = []) →
          s.partition.consoleRing ≤ s.composer.consoleRing.length →
          blockDone [.tones] .console 0x10 (.plain .full) s t ∧ t.tones = s.tones.request .refuse))
    ∧ (∀ (b0 b1 : Byte) (s : State), portFree .link s → ∃ t, exec (.keyStroke .link b0 b1) s = .next t
      ∧ blockOnly .link 0x10 (.plain .notPermitted) s t)

/-- KEY_STROKE with Keyboard Sharing on and a request pending goes to the oldest request; with Echo a copy joins the
console ring, or is lost with a Refuse tone when the ring is full; the stroke that fills a request completes it with
Keys Collected (Count) to the link (R44, R45, R27, R166). -/
def Obligations.KeyStrokeRoutedToAwait : Prop :=
  ∀ (b0 b1 : Byte) (k : Stroke) (r : AwaitRequest) (others : List AwaitRequest) (s : State), portFree .console s →
    decodeStroke b0 b1 = some k → s.options.keyboardSharing = true → s.composer.awaits = r :: others →
    ∃ t, exec (.keyStroke .console b0 b1) s = .next t
    ∧ blockDone [.composer, .link, .tones, .holdTimer] .console 0x10 (.plain .done) s t
    ∧ t.composer = { s.composer with
        consoleRing :=
          if r.echo = true ∧ s.composer.consoleRing.length < s.partition.consoleRing then s.composer.consoleRing ++ [k]
          else s.composer.consoleRing
        awaits :=
          if r.collected.length + 1 = r.wanted then others else { r with collected := r.collected ++ [k] } :: others }
    ∧ t.tones = (if r.echo = true ∧ s.partition.consoleRing ≤ s.composer.consoleRing.length then s.tones.request .refuse
        else s.tones)
    ∧ t.holdTimer = holdNow { t with
        holdTimer :=
          if r.echo = true ∧ s.composer.consoleRing.length < s.partition.consoleRing ∧ s.line.holder = some .console
            then none else s.holdTimer }
    ∧ t.link = (if r.collected.length + 1 = r.wanted then
        s.link.notice (Notice.keysCollected r.tag 0 r.wanted ((r.collected ++ [k]).flatMap (·.encode))) else s.link)

/-- TYPE_TEXT from the link: when all its strokes fit in the link ring's free room they join in byte order, the
attribute state is kept and the reply carries the dropped count; else nothing changes and the reply is Full. The
bytes are read in order by the table of R23: the shift bytes set the attribute state, Space and the type codes make
a stroke with the attributes then in force, six codes make Functions (without attributes: log entry 9), and any
other byte is dropped and counted (R21, R23). -/
def Obligations.TypeTextIsTakenWhole : Prop :=
  (∀ (text : List Byte) (s : State), portFree .link s → text.length ≤ 30 →
    let r := readText { underline := s.composer.linkUnderline, bold := s.composer.linkBold } text
    ∃ t, exec (.typeText .link text) s = .next t
    ∧ (r.strokes.length ≤ s.partition.linkRing - s.composer.linkRing.length →
        blockDone [.composer, .holdTimer] .link 0x11 { status := .done, data := [BitVec.ofNat 8 r.dropped] } s t
          ∧ t.holdTimer = holdNow { t with
              holdTimer := if r.strokes ≠ [] ∧ s.line.holder = some .link then none else s.holdTimer }
          ∧ t.composer = { s.composer with
              linkRing := s.composer.linkRing ++ r.strokes
              linkUnderline := r.state.underline, linkBold := r.state.bold })
    ∧ (s.partition.linkRing - s.composer.linkRing.length < r.strokes.length →
        blockOnly .link 0x11 (.plain .full) s t))
    ∧ (∀ a : TextState, readText a [] = { state := a, strokes := [], dropped := 0 })
    ∧ (∀ (a : TextState) (b : Byte) (rest : List Byte),
      let made (k : StrokeKind) (u d : Bool) : TextRead :=
        { readText a rest with strokes := ⟨k, u, d⟩ :: (readText a rest).strokes }
      let isType := (0x21 ≤ b.toNat ∧ b.toNat ≤ 0x7E) ∨ (0xC0 ≤ b.toNat ∧ b.toNat ≤ 0xFE)
      (b = 0x0E → readText a (b :: rest) = readText { a with underline := true } rest)
      ∧ (b = 0x0F → readText a (b :: rest) = readText { a with underline := false } rest)
      ∧ (b = 0x02 → readText a (b :: rest) = readText { a with bold := true } rest)
      ∧ (b = 0x03 → readText a (b :: rest) = readText { a with bold := false } rest)
      ∧ (b = 0x20 → readText a (b :: rest) = made .space a.underline a.bold)
      ∧ (isType → readText a (b :: rest) = made (.character b) a.underline a.bold)
      ∧ (b = 0x08 → readText a (b :: rest) = made (.function .backspace) false false)
      ∧ (b = 0x09 → readText a (b :: rest) = made (.function .tab) false false)
      ∧ (b = 0x0A → readText a (b :: rest) = made (.function .indexDown) false false)
      ∧ (b = 0x0B → readText a (b :: rest) = made (.function .indexUp) false false)
      ∧ (b = 0x0D → readText a (b :: rest) = made (.function .carriageReturn) false false)
      ∧ (b = 0x1E → readText a (b :: rest) = made (.function .center) false false)
      ∧ (¬ isType → b.toNat ∉ [0x0E, 0x0F, 0x02, 0x03, 0x20, 0x08, 0x09, 0x0A, 0x0B, 0x0D, 0x1E] →
          readText a (b :: rest) = { readText a rest with dropped := (readText a rest).dropped + 1 }))

/-- RELEASE_LINE: NoLine on a Free line, Busy on the other port's, NotInMode on a Direct-mode line; else the line
becomes Free with the port as last holder and the compose position L, its Working suspects are withdrawn and no
other, its lookups leave the spell queue, the one in flight marked stale (a fragment joined to it may be queued
alone), and no ring, job or record changes (R40, R20, R141, R144). -/
def Obligations.ReleaseLineDiscards : Prop :=
  ∀ (p : Port) (s : State), portFree p s → ∃ t, exec (.releaseLine p) s = .next t
    ∧ (s.line.holder = none → blockOnly p 0x12 (.plain .noLine) s t)
    ∧ (s.line.holder = some (Port.other p) → blockOnly p 0x12 (.plain .busy) s t)
    ∧ (s.line.holder = some p → s.line.mode = .direct → blockOnly p 0x12 (.plain .notInMode) s t)
    ∧ (s.line.holder = some p → s.line.mode = .line →
        blockDone [.line, .composer, .spelling, .store, .display] p 0x12 (.plain .done) s t
          ∧ t.line = .free ∧ t.display = displayNow { t with display := { s.display with window := 0 } }
          ∧ t.composer = { s.composer with lastHolder := some p, position := s.format.left }
          ∧ t.spelling.suspects = s.spelling.suspects.filter (·.place != .working)
          ∧ t.spelling.printWait = s.spelling.printWait
          ∧ (∀ e ∈ t.spelling.queue, e.origin ≠ .query → e.serial = s.line.serial → e.stale = true
              ∨ ∃ f, s.line.joined = some f ∧ e.letters = f.letters)
          ∧ ∀ e ∈ s.spelling.queue, e.origin ≠ .query → e.serial = s.line.serial → e.inFlight = true →
              { e with stale := true } ∈ t.spelling.queue)

/-- AWAIT_KEYS posts a request with the next tag, or is refused with NotInMode, Full or Range in that order (a timeout
above 32767 or an Echo other than 0 and 1 as Range is log entry 10); CANCEL_AWAIT completes every request, its Keys
Collected (Cancelled) joining oldest first (log entry 49); AWAIT_TIMEOUT completes the one named with TimedOut (R43,
R45). -/
def Obligations.AwaitRequests : Prop :=
  (∀ (wanted echo : Byte) (timeout : Half) (s : State), portFree .link s →
      ∃ t, exec (.awaitKeys .link wanted timeout echo) s = .next t
      ∧ (s.options.keyboardSharing = false → blockOnly .link 0x13 (.plain .notInMode) s t)
      ∧ (s.options.keyboardSharing = true → 4 ≤ awaitLoad s → blockOnly .link 0x13 (.plain .full) s t)
      ∧ (s.options.keyboardSharing = true → awaitLoad s < 4 →
          (wanted.toNat < 1 ∨ 28 < wanted.toNat ∨ 1 < echo.toNat ∨ 32767 < timeout.toNat) →
          blockOnly .link 0x13 (.plain .range) s t)
      ∧ (s.options.keyboardSharing = true → awaitLoad s < 4 → 1 ≤ wanted.toNat → wanted.toNat ≤ 28 →
          echo.toNat ≤ 1 → timeout.toNat ≤ 32767 →
          blockDone [.composer] .link 0x13
              { status := .done, data := [BitVec.ofNat 8 s.composer.awaitTag] } s t
            ∧ t.composer = { s.composer with
                awaitTag := (s.composer.awaitTag + 1) % 256
                awaits := s.composer.awaits ++ [AwaitRequest.mk s.composer.awaitTag wanted.toNat [] (echo == 1)
                  (if timeout = 0 then none else some timeout.toNat)] }))
    ∧ (∀ s : State, portFree .link s → ∃ t, exec (.cancelAwait .link) s = .next t
      ∧ t.composer = { s.composer with awaits := [] }
      ∧ t.link = { s.link with
          assembly := [], gap := none, inHand := true
          queue := s.link.queue
            ++ (if enabled s.link.enable 0xA7 then s.composer.awaits.map fun r =>
                Notice.keysCollected r.tag 2 r.collected.length (r.collected.flatMap (·.encode)) else [])
            ++ [(Reply.plain .done).block 0x14] }
      ∧ restAfterBlock s t ∧ displayFollows s t ∧ holdFollows s t
      ∧ changesOnly [.composer, .link, .restTimer, .display, .holdTimer] s t)
    ∧ (∀ (place : Nat) (r : AwaitRequest) (s : State), s.composer.awaits[place]? = some r → r.timeout.isSome = true →
      ∃ t, exec (.awaitTimeout place) s = .next t
      ∧ t.composer = { s.composer with awaits := s.composer.awaits.eraseIdx place }
      ∧ t.link = s.link.notice
          (Notice.keysCollected r.tag 1 r.collected.length (r.collected.flatMap (·.encode)))
      ∧ changesOnly [.composer, .link, .display, .holdTimer] s t)

/-- SET_MARGINS, SET_TAB, CLEAR_TAB and CLEAR_ALL_TABS: Busy for the port that does not hold a claimed line; else each
row of the rule, with the working line changed at most in its layout (that a new left margin is a Free line's
compose position, at once or, with the map Unloaded, when it is next computed, is log entry 11) (R48, R42, R50,
R33). -/
def Obligations.MarginAndTabCommands : Prop :=
  (∀ (p : Port) (l r x : Half) (s : State), portFree p s → ownsFormat p s = false →
      (∃ t, exec (.setMargins p l r) s = .next t ∧ blockOnly p 0x20 (.plain .busy) s t)
      ∧ (∃ t, exec (.setTab p x) s = .next t ∧ blockOnly p 0x21 (.plain .busy) s t)
      ∧ (∃ t, exec (.clearTab p x) s = .next t ∧ blockOnly p 0x22 (.plain .busy) s t)
      ∧ (∃ t, exec (.clearAllTabs p) s = .next t ∧ blockOnly p 0x23 (.plain .busy) s t))
    ∧ (∀ (p : Port) (l r : Half) (s : State), portFree p s → lineInv s → ownsFormat p s = true →
      ∃ t, exec (.setMargins p l r) s = .next t
      ∧ (¬ (l.toNat ≤ 1440 ∧ 120 ≤ r.toNat ∧ r.toNat ≤ 1560 ∧ l.toNat + 120 ≤ r.toNat) →
          blockOnly p 0x20 (.plain .range) s t)
      ∧ (l.toNat ≤ 1440 → 120 ≤ r.toNat → r.toNat ≤ 1560 → l.toNat + 120 ≤ r.toNat →
          blockDone [.format, .line, .composer] p 0x20 (.plain .done) s t
            ∧ t.format = { s.format with left := l.toNat, right := r.toNat } ∧ relaidOnly s t
            ∧ (s.line.phase = .free → s.engine.petalMap.isSome = true →
                t.line = s.line ∧ t.composer = { s.composer with position := l.toNat, leftDue := false })
            ∧ (s.line.phase = .free → s.engine.petalMap = none →
                t.line = s.line ∧ t.composer = { s.composer with leftDue := true })))
    ∧ (∀ (p : Port) (x : Half) (s : State), portFree p s → ownsFormat p s = true →
      ∃ t, exec (.setTab p x) s = .next t
      ∧ (1559 < x.toNat → blockOnly p 0x21 (.plain .range) s t)
      ∧ (x.toNat ≤ 1559 → x.toNat ∈ s.format.tabs → blockOnly p 0x21 (.plain .done) s t)
      ∧ (x.toNat ≤ 1559 → x.toNat ∉ s.format.tabs → 16 ≤ s.format.tabs.length →
          blockOnly p 0x21 (.plain .full) s t)
      ∧ (x.toNat ≤ 1559 → x.toNat ∉ s.format.tabs → s.format.tabs.length < 16 →
          blockDone [.format, .line, .composer] p 0x21 (.plain .done) s t ∧ relaidOnly s t
            ∧ t.format = { s.format with tabs := t.format.tabs }
            ∧ (∀ y, y ∈ t.format.tabs ↔ y = x.toNat ∨ y ∈ s.format.tabs)
            ∧ t.format.tabs.length = s.format.tabs.length + 1
            ∧ (strictlyRising s.format.tabs = true → strictlyRising t.format.tabs = true)))
    ∧ (∀ (p : Port) (x : Half) (s : State), portFree p s → ownsFormat p s = true →
      (∃ t, exec (.clearTab p x) s = .next t
        ∧ (x.toNat ∉ s.format.tabs → blockOnly p 0x22 (.plain .noTarget) s t)
        ∧ (x.toNat ∈ s.format.tabs →
            blockDone [.format, .line, .composer] p 0x22 (.plain .done) s t ∧ relaidOnly s t
              ∧ t.format = { s.format with tabs := s.format.tabs.filter (· != x.toNat) }))
      ∧ (∃ t, exec (.clearAllTabs p) s = .next t
        ∧ blockDone [.format, .line, .composer] p 0x23 (.plain .done) s t ∧ relaidOnly s t
        ∧ t.format = { s.format with tabs := [] }))

/-- SET_SPACING, SET_LINE_SPACING, SET_IMPRESSION, SET_MARGIN_ZONE and SET_PAGE_LENGTH: Busy for the port that does not
hold a claimed line; else the value is stored, or clamped and stored with a Clamped reply that carries it, or
refused with Range; what is stored is what the next page-end count, Return feed and strike energy read (R49). -/
def Obligations.OtherFormatCommands : Prop :=
  (∀ (p : Port) (v : Byte) (z : Half) (s : State), portFree p s → ownsFormat p s = false →
      (∃ t, exec (.setSpacing p v) s = .next t ∧ blockOnly p 0x24 (.plain .busy) s t)
      ∧ (∃ t, exec (.setLineSpacing p v) s = .next t ∧ blockOnly p 0x25 (.plain .busy) s t)
      ∧ (∃ t, exec (.setImpression p v) s = .next t ∧ blockOnly p 0x26 (.plain .busy) s t)
      ∧ (∃ t, exec (.setMarginZone p z) s = .next t ∧ blockOnly p 0x27 (.plain .busy) s t)
      ∧ (∃ t, exec (.setPageLength p v) s = .next t ∧ blockOnly p 0x28 (.plain .busy) s t))
    ∧ (∀ (p : Port) (v : Byte) (s : State), portFree p s → ownsFormat p s = true →
      (∃ t, exec (.setSpacing p v) s = .next t
        ∧ (3 < v.toNat → blockOnly p 0x24 (.plain .range) s t)
        ∧ (∀ m, spacingOf v = some m → blockDone [.format, .line, .composer] p 0x24 (.plain .done) s t
            ∧ relaidOnly s t ∧ t.format = { s.format with spacing := m } ∧ m.code = v.toNat))
      ∧ (∃ t, exec (.setLineSpacing p v) s = .next t
        ∧ t.format = { s.format with lineSpacing := if v.toNat ≤ 2 then 2 else if v.toNat = 3 then 3 else 4 }
        ∧ relaidOnly s t
        ∧ blockDone [.format, .line, .composer] p 0x25
            (if v.toNat = 2 ∨ v.toNat = 3 ∨ v.toNat = 4 then .plain .done
             else { status := .clamped, data := [BitVec.ofNat 8 t.format.lineSpacing] }) s t)
      ∧ (∃ t, exec (.setImpression p v) s = .next t
        ∧ (2 < v.toNat → blockOnly p 0x26 (.plain .range) s t)
        ∧ (∀ i, impressionOf v = some i → blockDone [.format, .line, .composer] p 0x26 (.plain .done) s t
            ∧ relaidOnly s t ∧ t.format = { s.format with impression := i } ∧ i.code = v.toNat))
      ∧ (∃ t, exec (.setPageLength p v) s = .next t
        ∧ t.format = { s.format with pageLength := max 24 (min 204 v.toNat) } ∧ relaidOnly s t
        ∧ blockDone [.format, .line, .composer] p 0x28
            (if 24 ≤ v.toNat ∧ v.toNat ≤ 204 then .plain .done
             else { status := .clamped, data := [BitVec.ofNat 8 t.format.pageLength] }) s t))
    ∧ (∀ (p : Port) (z : Half) (s : State), portFree p s → ownsFormat p s = true →
      ∃ t, exec (.setMarginZone p z) s = .next t
        ∧ t.format = { s.format with zone := min 240 z.toNat } ∧ relaidOnly s t
        ∧ blockDone [.format, .line, .composer] p 0x27
            (if z.toNat ≤ 240 then .plain .done else { status := .clamped, data := [0, 240] }) s t)
    ∧ (∀ (m : PetalMap) (g : Glyph) (f : FormatRecord), energyOf f g = g.cls + f.impression.offset
        ∧ (∀ s : State, s.format = f → (returnJob s).orders = [.move f.left, .feed (f.lineSpacing + s.line.rise)])
        ∧ (lineJob .console m [] { State.reset with format := f }).orders = [.move f.left, .feed f.lineSpacing])
    ∧ (∀ (n : Int) (s : State), s.engine.pageEnd = false → s.engine.pageLines < (completeFeed n s).engine.pageLines →
        (s.format.pageLength : Int) ≤ (completeFeed n s).engine.pageLines → (completeFeed n s).engine.pageEnd = true)

/-- FEED and FORM_FEED: Busy for the port that does not hold a claimed line, Away while Away, Busy in Fault or with 4
jobs queued, Range for a Feed of 0 or outside ±16 (after the others: log entry 12); else a Motion job of one Feed or
Eject is appended and the reply is Started (R76, R77, R42, R84). -/
def Obligations.FeedAndFormFeed : Prop :=
  ∀ (p : Port) (n : Byte) (s : State), portFree p s →
    (∃ t, exec (.feed p n) s = .next t
      ∧ (ownsFormat p s = false → blockOnly p 0x30 (.plain .busy) s t)
      ∧ (ownsFormat p s = true → s.lift.away = true → blockOnly p 0x30 (.plain .away) s t)
      ∧ (ownsFormat p s = true → s.lift.away = false → (s.engine.state = .fault ∨ 4 ≤ s.engine.queue.length) →
          blockOnly p 0x30 (.plain .busy) s t)
      ∧ (ownsFormat p s = true → s.lift.away = false → s.engine.state ≠ .fault → s.engine.queue.length < 4 →
          (n.toInt = 0 ∨ n.toInt < -16 ∨ 16 < n.toInt) → blockOnly p 0x30 (.plain .range) s t)
      ∧ (ownsFormat p s = true → s.lift.away = false → s.engine.state ≠ .fault → s.engine.queue.length < 4 →
          n.toInt ≠ 0 → -16 ≤ n.toInt → n.toInt ≤ 16 →
          jobTaken { Job.empty .motion p with orders := [.feed n.toInt] } p 0x30 s t))
    ∧ (∃ t, exec (.formFeed p) s = .next t
      ∧ (ownsFormat p s = false → blockOnly p 0x31 (.plain .busy) s t)
      ∧ (ownsFormat p s = true → s.lift.away = true → blockOnly p 0x31 (.plain .away) s t)
      ∧ (ownsFormat p s = true → s.lift.away = false → (s.engine.state = .fault ∨ 4 ≤ s.engine.queue.length) →
          blockOnly p 0x31 (.plain .busy) s t)
      ∧ (ownsFormat p s = true → s.lift.away = false → s.engine.state ≠ .fault → s.engine.queue.length < 4 →
          jobTaken { Job.empty .motion p with orders := [.eject] } p 0x31 s t))

/-- CANCEL_PRINTING: from the console every job leaves, from the link the link's; a head job whose order is in flight
stays until that order completes; the reply carries how many were removed, a head job already marked not again (log
entry 14). Every job that leaves at once is reported to the port it came from, oldest first (log entry 56): Line
Cancelled with its serial and struck count, or Lift Done with outcome Cancelled, the lifted count and the leftmost
position. A removed Stroke Job clears the Direct tally; one of the line the console holds in Direct mode releases
that line, with the compose position where the carrier will stand (log entry 14), and while Away the line is taken
again at once. Removed Stroke Jobs do not stand behind a removed lift (log entry 65). An owed Relocate joins the
queue when there is room (its target without a Relocate Point, the compose position, is log entry 20) (R90, R125,
R126, R89, R40, R68). -/
def Obligations.CancelPrintingRemovesJobs : Prop :=
  (∀ (p : Port) (s : State), portFree p s → s.lift.owed = false →
    (∀ j ∈ s.engine.queue, j.cancelled = false) → ∃ t, exec (.cancelPrinting p) s = .next t
    ∧ (t.port p).inHand = true
    ∧ (t.port p).queue.getLast? = some (({ status := .done, data := [BitVec.ofNat 8
        (s.engine.queue.filter fun j => p == .console || j.source == .link).length] } : Reply).block 0x32)
    ∧ (s.engine.state ≠ .working →
        t.engine.queue = s.engine.queue.filter fun j => !(p == .console || j.source == .link))
    ∧ (∀ j rest, s.engine.state = .working → s.engine.queue = j :: rest →
        t.engine.queue =
          (if p = .console ∨ j.source = .link then { j with cancelled := true } else j)
            :: rest.filter fun x => !(p == .console || x.source == .link))
    ∧ t.engine.state = s.engine.state ∧ t.engine.carrier = s.engine.carrier ∧ t.engine.petalMap = s.engine.petalMap
    ∧ changesOnly [.console, .link, .line, .composer, .engine, .memory, .spelling, .store, .display, .tones,
        .holdTimer, .restTimer] s t)
    ∧ (∀ (p : Port) (s : State), portFree p s →
      let mine (j : Job) : Bool := (p == .console || j.source == .link) && !j.cancelled
      let removed := s.engine.queue.filter mine
      let left := match s.engine.state, s.engine.queue with
        | .working, j :: rest => (if mine j then { j with cancelled := true } else j) :: rest.filter (!mine ·)
        | _, all => all.filter (!mine ·)
      let gone := match s.engine.state, s.engine.queue with
        | .working, _ :: rest => rest.filter mine
        | _, all => all.filter mine
      ∃ t, exec (.cancelPrinting p) s = .next t
      ∧ (t.port p).queue.getLast? = some (({ status := .done, data := [BitVec.ofNat 8 removed.length] } : Reply).block 0x32)
      ∧ (s.lift.owed = false ∨ 4 ≤ left.length → t.engine.queue = left ∧ t.lift.owed = s.lift.owed)
      ∧ (s.lift.owed = true → left.length < 4 → t.lift.owed = false
          ∧ t.engine.queue = left ++ [relocateJob (match s.lift.point with | some q => q.1 | none => t.composer.position)])
      ∧ (s.line.phase ≠ .checking → s.spelling.queries = [] →
          (t.port p).queue = ((s.port p).afterCancel p gone).queue
              ++ [({ status := .done, data := [BitVec.ofNat 8 removed.length] } : Reply).block 0x32]
            ∧ t.port (Port.other p) = (s.port (Port.other p)).afterCancel (Port.other p) gone)
      ∧ t.engine.tally = (if removed.any (·.kind == .stroke) then ⟨0, 0, 0⟩ else s.engine.tally)
      ∧ (s.line.holder = some .console → s.line.mode = .direct →
          removed.any (fun j => j.kind == .stroke && j.serial == some s.line.serial) = true →
          t.line = (if s.lift.away then awayLine s.line.serial else .free)
            ∧ t.composer = { s.composer with
                lastHolder := some .console
                position := match s.engine.carrierMove with | some m => m.target | none => s.engine.carrier })
      ∧ (∀ j ∈ gone, (∀ i ∈ gone, i = j ∨ i.correction = none) → ∀ c, j.correction = some c → ∀ x, c.leftmost = some x →
          removed.any (fun j => j.kind == .stroke && j.serial == some s.line.serial) = false → (c.command = .last ∨ c.command = .word ∨ c.command = .line) → s.line.holder = some .console →
          s.line.mode = .direct → left.any (fun i => i.kind == .stroke && i.source == .console) = false →
          t.composer = { s.composer with position := x }))

/-- REHOME from the console: Away while Away; with an empty queue in Ready, Resting, SupplyOut or WheelFault, and in
Fault, a full homing starts; else Busy; WHEEL_CHANGE from the console: Away while Away; in Ready or Resting with an
empty queue the map is unloaded and the carrier sent to 780; else Busy (no move with the carrier at 780 is log entry
17, the lowered tape guide log entry 18). WHEEL_MOUNTED: a wheel homing from WheelChange with the carrier arrived or
from WheelFault; Busy with the move in flight; else NotInMode (R80, R79, R85, R86, R81). -/
def Obligations.RehomeAndWheelChange : Prop :=
  (∀ s : State, portFree .console s → ∃ t, exec (.rehome .console) s = .next t
      ∧ (s.lift.away = true → blockOnly .console 0x33 (.plain .away) s t)
      ∧ (s.lift.away = false →
          (s.engine.state = .working ∨ s.engine.state = .homing ∨ s.engine.state = .wheelChange) →
          blockOnly .console 0x33 (.plain .busy) s t)
      ∧ (s.lift.away = false → s.engine.state ≠ .fault → s.engine.queue ≠ [] →
          blockOnly .console 0x33 (.plain .busy) s t)
      ∧ (s.lift.away = false →
          (s.engine.state = .fault ∨ (s.engine.queue = [] ∧
            (s.engine.state = .ready ∨ s.engine.state = .resting ∨ s.engine.state = .supplyOut
              ∨ s.engine.state = .wheelFault))) →
          answered .console 0x33 (.plain .started) s t
            ∧ t.engine = { s.engine with
                state := .homing, homing := some { full := true, wake := false, stage := .carrier }
                homingLimit := some 301, petalMap := none, wheelMove := none, carrierMove := none, hammer := .idle
                tapeGuide := .down, platenMove := none }
            ∧ t.restTimer = none ∧ changesOnly [.console, .engine, .restTimer, .display, .holdTimer] s t))
    ∧ (∀ s : State, portFree .console s →
      (∃ t, exec (.wheelChange .console) s = .next t
        ∧ (s.lift.away = true → blockOnly .console 0x34 (.plain .away) s t)
        ∧ (s.lift.away = false → (s.engine.queue ≠ [] ∨ (s.engine.state ≠ .ready ∧ s.engine.state ≠ .resting)) →
            blockOnly .console 0x34 (.plain .busy) s t)
        ∧ (s.lift.away = false → s.engine.queue = [] → (s.engine.state = .ready ∨ s.engine.state = .resting) →
            answered .console 0x34 (.plain .done) s t
              ∧ t.engine = { s.engine with
                  petalMap := none, state := .wheelChange
                  carrierMove := if s.engine.carrier = 780 then s.engine.carrierMove
                    else some { target := 780, limit := 61 } }
              ∧ t.restTimer = none ∧ changesOnly [.console, .engine, .restTimer, .display, .holdTimer] s t))
      ∧ (∃ t, exec (.wheelMounted .console) s = .next t
        ∧ (s.engine.state ≠ .wheelChange → s.engine.state ≠ .wheelFault →
            blockOnly .console 0x35 (.plain .notInMode) s t)
        ∧ (s.engine.state = .wheelChange → s.engine.carrierMove.isSome = true →
            blockOnly .console 0x35 (.plain .busy) s t)
        ∧ ((s.engine.state = .wheelFault ∨ (s.engine.state = .wheelChange ∧ s.engine.carrierMove = none)) →
            answered .console 0x35 (.plain .started) s t
              ∧ t.engine = { s.engine with
                  state := .homing, homing := some { full := false, wake := false, stage := .wheel }
                  homingLimit := some 301 }
              ∧ t.restTimer = none ∧ changesOnly [.console, .engine, .restTimer, .display, .holdTimer] s t)))

/-- LOAD_SUPPLY from the console: Range for another ribbon kind; else the supply record is replaced, Supply Low goes to
both ports when a count is low, and SupplyOut with ribbon is left for Ready when no job had started, and for Working
with the next order of the head job begun when it had (R87, R88). -/
def Obligations.LoadSupplySetsTheCounts : Prop :=
  (∀ (kind : Byte) (ribbon tape : Half) (s : State), portFree .console s →
    ∃ t, exec (.loadSupply .console kind ribbon tape) s = .next t
    ∧ (1 < kind.toNat → blockOnly .console 0x36 (.plain .range) s t)
    ∧ (∀ k, ribbonKindOf kind = some k → (s.engine.state ≠ .supplyOut ∨ ribbon.toNat = 0) →
        t.engine = { s.engine with ribbonKind := k, ribbon := ribbon.toNat, tape := tape.toNat }
          ∧ changesOnly [.console, .link, .engine, .restTimer, .display, .holdTimer] s t
          ∧ (¬ (1 ≤ ribbon.toNat ∧ ribbon.toNat ≤ 500) → ¬ (1 ≤ tape.toNat ∧ tape.toNat ≤ 100) →
              blockDone [.engine] .console 0x36 (.plain .done) s t)
          ∧ (((1 ≤ ribbon.toNat ∧ ribbon.toNat ≤ 500) ∨ (1 ≤ tape.toNat ∧ tape.toNat ≤ 100)) →
              t.link = s.link.notice (Notice.supplyLow ribbon.toNat tape.toNat)
                ∧ t.console.queue = (s.console.notice (Notice.supplyLow ribbon.toNat tape.toNat)).queue
                    ++ [(Reply.plain .done).block 0x36]))
    ∧ (∀ k, ribbonKindOf kind = some k → s.engine.state = .supplyOut → 0 < ribbon.toNat →
        (∀ j ∈ s.engine.queue, j.started = false) →
        t.engine = { s.engine with
            ribbonKind := k, ribbon := ribbon.toNat, tape := tape.toNat, state := .ready }
          ∧ t.restTimer = if s.engine.queue = [] then restLength s.options else none))
    ∧ (∀ (kind : Byte) (ribbon tape : Half) (k : RibbonKind) (s : State), portFree .console s →
      ribbonKindOf kind = some k → s.engine.state = .supplyOut → 0 < ribbon.toNat →
      let low := ribbon.toNat ≤ 500 ∨ (1 ≤ tape.toNat ∧ tape.toNat ≤ 100)
      let loaded : Engine := { s.engine with ribbonKind := k, ribbon := ribbon.toNat, tape := tape.toNat }
      ∃ t, exec (.loadSupply .console kind ribbon tape) s = .next t
      ∧ (∀ j, s.engine.queue.head? = some j → j.started = true → ∀ o, j.orders[j.next]? = some o →
          o.takesTime s = true →
          t.engine = orderBegun o { loaded with state := .working } ∧ t.restTimer = none)
      ∧ ((∀ j, s.engine.queue.head? = some j → j.started = true →
            ∃ o, j.orders[j.next]? = some o ∧ o.takesTime s = true) →
          s.line.phase ≠ .checking → s.spelling.queries = [] →
          t.link = (if low then s.link.notice (Notice.supplyLow ribbon.toNat tape.toNat) else s.link)
            ∧ t.console.queue = (if low then s.console.notice (Notice.supplyLow ribbon.toNat tape.toNat)
                else s.console).queue ++ [(Reply.plain .done).block 0x36]
            ∧ changesOnly [.console, .link, .engine, .restTimer, .spelling, .store, .display, .holdTimer] s t))

/-- The lift commands and RELOCATE, when no check of R110 refuses them, append their job with an empty order list
(Relocate: its Move) and are answered Started; Lift Word carries the compose position while the console is composing
in Direct mode; the refusals of R110 in its order: Range and Away for Lift Back, Busy in Fault or with 4 jobs queued
for all, Busy for a second Lift Back or Relocate or a line in the way, NoTarget for Relocate without a point (R110,
R111, R113, R123). -/
def Obligations.LiftCommandsTakenOrRefused : Prop :=
  ((∀ s : State, portFree .console s → s.engine.state ≠ .fault → s.engine.queue.length < 4 →
        (∃ t, exec (.liftLast .console) s = .next t ∧ jobTaken (correctionJob .console .last 0 0 none) .console 0x40 s t)
        ∧ (∃ t, exec (.liftWord .console) s = .next t
          ∧ jobTaken (correctionJob .console .word 0 0
              (if consoleDirect s then some s.composer.position else none)) .console 0x41 s t)
        ∧ (∃ t, exec (.liftLine .console) s = .next t ∧ jobTaken (correctionJob .console .line 0 0 none) .console 0x42 s t)
        ∧ (∀ (n : Byte) (x : Half), 1 ≤ n.toNat → n.toNat ≤ 7 → x.toNat ≤ 1559 → s.lift.away = false →
            (∀ j ∈ s.engine.queue, j.isLiftBack = false) → lineInTheWay s = false →
            ∃ t, exec (.liftBack .console n x) s = .next t
              ∧ jobTaken (correctionJob .console .back n.toNat x.toNat none) .console 0x43 s t)
        ∧ (∀ (x : Nat) (y : Int), s.lift.point = some (x, y) → (∀ j ∈ s.engine.queue, j.relocate = false) →
            ∃ t, exec (.relocate .console) s = .next t ∧ jobTaken (relocateJob x) .console 0x45 s t))
      ∧ (∀ s : State, portFree .link s → s.engine.state ≠ .fault → s.engine.queue.length < 4 →
        ∃ t, exec (.retractLine .link) s = .next t ∧ jobTaken (correctionJob .link .retract 0 0 none) .link 0x44 s t)
      ∧ (∀ (p : Port) (command : LiftCommand) (n x : Nat) (r : Option Nat), (correctionJob p command n x r).orders = []
          ∧ (correctionJob p command n x r).kind = .correction ∧ (correctionJob p command n x r).serial = none)
      ∧ (∀ x : Nat, (relocateJob x).orders = [.move x] ∧ (relocateJob x).kind = .motion))
    ∧ ((∀ s : State, portFree .console s → (s.engine.state = .fault ∨ 4 ≤ s.engine.queue.length) →
        (∃ t, exec (.liftLast .console) s = .next t ∧ blockOnly .console 0x40 (.plain .busy) s t)
        ∧ (∃ t, exec (.liftWord .console) s = .next t ∧ blockOnly .console 0x41 (.plain .busy) s t)
        ∧ (∃ t, exec (.liftLine .console) s = .next t ∧ blockOnly .console 0x42 (.plain .busy) s t)
        ∧ (∃ t, exec (.relocate .console) s = .next t ∧ blockOnly .console 0x45 (.plain .busy) s t))
      ∧ (∀ s : State, portFree .link s → (s.engine.state = .fault ∨ 4 ≤ s.engine.queue.length) →
        ∃ t, exec (.retractLine .link) s = .next t ∧ blockOnly .link 0x44 (.plain .busy) s t)
      ∧ (∀ (n : Byte) (x : Half) (s : State), portFree .console s → ∃ t, exec (.liftBack .console n x) s = .next t
        ∧ ((n.toNat < 1 ∨ 7 < n.toNat ∨ 1559 < x.toNat) → blockOnly .console 0x43 (.plain .range) s t)
        ∧ (1 ≤ n.toNat → n.toNat ≤ 7 → x.toNat ≤ 1559 → s.lift.away = true →
            blockOnly .console 0x43 (.plain .away) s t)
        ∧ (1 ≤ n.toNat → n.toNat ≤ 7 → x.toNat ≤ 1559 → s.lift.away = false →
            (s.engine.state = .fault ∨ 4 ≤ s.engine.queue.length ∨ (∃ j ∈ s.engine.queue, j.isLiftBack = true)
              ∨ lineInTheWay s = true) →
            blockOnly .console 0x43 (.plain .busy) s t))
      ∧ (∀ s : State, portFree .console s → s.engine.state ≠ .fault → s.engine.queue.length < 4 →
        ∃ t, exec (.relocate .console) s = .next t
        ∧ ((∃ j ∈ s.engine.queue, j.relocate = true) → blockOnly .console 0x45 (.plain .busy) s t)
        ∧ ((∀ j ∈ s.engine.queue, j.relocate = false) → s.lift.point = none →
            blockOnly .console 0x45 (.plain .noTarget) s t)))

/-- IGNORE_SUSPECT removes the entry of its index, whose Suspect record in the working line becomes Good, or answers
NoTarget; ADD_WORD and ADD_WORD_BY_INDEX insert the word's record in order and withdraw its suspects (Done),
withdraw them only (Already), or refuse with Full, Range, NoTarget or Busy; on Done and on Already every Suspect
record of the word in the working line becomes Good (R142, R147, R148, R141). -/
def Obligations.SuspectAndAddWordCommands : Prop :=
  (∀ (p : Port) (i : Byte) (s : State), portFree p s → ∃ t, exec (.ignoreSuspect p i) s = .next t
      ∧ (s.spelling.suspects[i.toNat]? = none → blockOnly p 0x51 (.plain .noTarget) s t)
      ∧ (∀ x, s.spelling.suspects[i.toNat]? = some x →
          blockDone [.spelling, .line] p 0x51 (.plain .done) s t
            ∧ t.spelling = { s.spelling with suspects := s.spelling.suspects.eraseIdx i.toNat }
            ∧ t.line = { s.line with words := t.line.words }
            ∧ ((x.place = .record ∨ x.serial ≠ s.line.serial) → t.line = s.line)
            ∧ (x.place = .working → x.serial = s.line.serial → t.line.words = s.line.words.map fun w =>
                if w.first = x.first ∧ w.status = .suspect then { w with status := .good } else w)))
    ∧ (∀ (p : Port) (i : Byte) (w : List Byte) (s : State), portFree p s → 1 ≤ w.length → w.length ≤ 30 →
      listFrozen s = true →
      (∃ t, exec (.addWord p w) s = .next t ∧ blockOnly p 0x53 (.plain .busy) s t)
      ∧ (∃ t, exec (.addWordByIndex p i) s = .next t ∧ blockOnly p 0x52 (.plain .busy) s t))
    ∧ (∀ (p : Port) (i : Byte) (s : State), portFree p s → listFrozen s = false →
      s.spelling.suspects[i.toNat]? = none →
      ∃ t, exec (.addWordByIndex p i) s = .next t ∧ blockOnly p 0x52 (.plain .noTarget) s t)
    ∧ (∀ (p : Port) (w : List Byte) (s : State), portFree p s → 1 ≤ w.length → w.length ≤ 30 → listFrozen s = false →
      (wordForm w = false ∨ 24 < w.length) →
      ∃ t, exec (.addWord p w) s = .next t ∧ blockOnly p 0x53 (.plain .range) s t)
    ∧ (∀ (c : Instr) (p : Port) (code : Byte) (w : List Byte) (s : State), portFree p s → listFrozen s = false →
      wordForm w = true → w.length ≤ 24 →
      ((c = .addWord p w ∧ code = 0x53) ∨ (∃ i x, c = .addWordByIndex p i ∧ code = 0x52
        ∧ s.spelling.suspects[i.toNat]? = some x ∧ x.letters = w)) →
      let named (x : WordRecord) : Bool :=
        let letters := (if x.joined then (s.line.joined.map (·.letters)).getD [] else [])
          ++ ((s.line.cells.drop x.first).take x.count).map (·.code)
        fingerprint letters == fingerprint w && letters.length == w.length
      let settled : List WordRecord := s.line.words.map fun x =>
        if x.status = .suspect ∧ named x = true then { x with status := .good } else x
      ∃ t, exec c s = .next t
      ∧ (s.spelling.userWords.any (·.matches w) = true →
          blockDone [.spelling, .line] p code (.plain .already) s t
            ∧ t.line = { s.line with words := settled }
            ∧ t.spelling.userWords = s.spelling.userWords
            ∧ ∀ x ∈ t.spelling.suspects ++ t.spelling.printWait,
                ¬ (x.fingerprint = fingerprint w ∧ x.length = w.length))
      ∧ (s.spelling.userWords.any (·.matches w) = false →
          s.partition.userWords ≤ s.spelling.userWords.length → blockOnly p code (.plain .full) s t)
      ∧ (s.spelling.userWords.any (·.matches w) = false →
          s.spelling.userWords.length < s.partition.userWords →
          blockDone [.spelling, .line] p code (.plain .done) s t
            ∧ t.spelling.userWords = insertUser
                ⟨fingerprint w, w.length, primaryValue w, firstUpper w⟩ s.spelling.userWords
            ∧ t.spelling.queue = s.spelling.queue
            ∧ (∀ x ∈ t.spelling.suspects ++ t.spelling.printWait,
                ¬ (x.fingerprint = fingerprint w ∧ x.length = w.length))
            ∧ t.line = { s.line with words := settled }))

/-- REMOVE_WORD: Busy while the store is Starting or a save is in progress, Range for letters of the wrong form,
NoTarget with no record of the word's F and L; else the records of that F and L leave the list, the others keep
their order, and nothing settled is rechecked (R149). -/
def Obligations.RemoveWordTakesTheRecordAway : Prop :=
  ∀ (p : Port) (w : List Byte) (s : State), portFree p s → 1 ≤ w.length → w.length ≤ 30 →
    ∃ t, exec (.removeWord p w) s = .next t
    ∧ ((s.store.state = .starting ∨ s.store.save.isSome = true) → blockOnly p 0x54 (.plain .busy) s t)
    ∧ (s.store.state ≠ .starting → s.store.save = none → (wordForm w = false ∨ 24 < w.length) →
        blockOnly p 0x54 (.plain .range) s t)
    ∧ (s.store.state ≠ .starting → s.store.save = none → wordForm w = true → w.length ≤ 24 →
        (∀ u ∈ s.spelling.userWords, ¬ (u.fingerprint = fingerprint w ∧ u.length = w.length)) →
        blockOnly p 0x54 (.plain .noTarget) s t)
    ∧ (s.store.state ≠ .starting → s.store.save = none → wordForm w = true → w.length ≤ 24 →
        (∃ u ∈ s.spelling.userWords, u.fingerprint = fingerprint w ∧ u.length = w.length) →
        blockDone [.spelling] p 0x54 (.plain .done) s t
          ∧ t.spelling = { s.spelling with userWords := s.spelling.userWords.filter fun u =>
              !(u.fingerprint == fingerprint w && u.length == w.length) })
    ∧ (∀ u ∈ s.spelling.userWords, userGood [u] w = true → u.matches w = true)
    ∧ (userGood (s.spelling.userWords.filter (!·.matches w)) w = false)

/-- SAVE_USER_WORDS: Busy while Starting or saving, NoTarget while Absent or Faulted or with NoUserArea; else Started,
with the steps of the save and the issuer kept, and on a free link with no wheel load waiting the first sector erase
begins at once under its limit of 50 ticks of R15 (counted from the grant: log entry 32). The steps of a save: the
two erases, one program for each page that holds record bytes (page 0 from byte 8 on, the last to the last record
byte, together all record bytes in order), and the header with its magic, count and check value; a record's 8 bytes
carry the fingerprint, the length, the primary value and the first-upper flag, most significant byte first (R13,
R14, R15, R16, R147). -/
def Obligations.SaveUserWordsStarts : Prop :=
  (∀ (p : Port) (s : State), portFree p s → ∃ t, exec (.saveUserWords p) s = .next t
    ∧ ((s.store.state = .starting ∨ (s.store.state = .present ∧ s.store.save.isSome = true)) →
        blockOnly p 0x55 (.plain .busy) s t)
    ∧ ((s.store.state = .absent ∨ s.store.state = .faulted
        ∨ (s.store.state = .present ∧ s.store.save = none ∧ s.store.flags.noUserArea = true)) →
        blockOnly p 0x55 (.plain .noTarget) s t)
    ∧ (∀ u, s.store.state = .present → s.store.save = none → s.store.flags.noUserArea = false →
        s.store.userArea = some u →
        blockDone [.store] p 0x55 (.plain .started) s t
          ∧ t.store.save = some { issuer := p, steps := saveSteps u.base s.spelling.userWords }
          ∧ (saveSteps u.base s.spelling.userWords).take 2 = [.sectorErase u.base, .sectorErase (u.base + 4096)]
          ∧ (s.store.link.isSome = true → t.store.link = s.store.link)
          ∧ (s.store.link = none → s.store.wheelOp = none →
              t.store.link = some { owner := .save, op := .sectorErase u.base, limit := some 51 })))
    ∧ (∀ (base : Nat) (users : List UserWord),
      let n := users.length
      let records := users.flatMap (·.bytes)
      let pages := ((saveSteps base users).drop 2).take (if n = 0 then 0 else (8 + 8 * n + 255) / 256)
      saveSteps base users = [.sectorErase base, .sectorErase (base + 4096)] ++ pages
          ++ [.pageProgram base ([0x55, 0x57, BitVec.ofNat 8 (n / 256), BitVec.ofNat 8 n]
            ++ (let sum := records.foldl (fun m b => m + b.toNat) 0
                [BitVec.ofNat 8 (sum / 16777216), BitVec.ofNat 8 (sum / 65536), BitVec.ofNat 8 (sum / 256),
                  BitVec.ofNat 8 sum]))]
        ∧ pages.length = (if n = 0 then 0 else (8 + 8 * n + 255) / 256)
        ∧ (∀ k < pages.length, pages[k]? = some (.pageProgram (base + max 8 (256 * k))
            ((records.drop (256 * k - 8)).take (if k = 0 then 248 else 256))))
        ∧ records.length = 8 * n)
    ∧ (∀ u : UserWord, u.fingerprint < 16777216 → u.length < 256 → u.primary < 65536 →
      u.bytes.length = 8 ∧ number (u.bytes.take 3) = u.fingerprint ∧ number ((u.bytes.drop 3).take 1) = u.length
        ∧ number ((u.bytes.drop 4).take 2) = u.primary ∧ number ((u.bytes.drop 6).take 1) = (if u.capital then 1 else 0)
        ∧ number (u.bytes.drop 7) = 0)

/-- CHECK_WORD from the link: Full with two queries outstanding, Range for a wrong form; else Started with the next tag,
answered at once (Unchecked for more than 24 codes or no lexicon, also for a word of the user word list: log entry
57; else Good from the user word list) or kept as a query, which joins the spell queue when it has room. The lexicon
read of a lookup: Found is Good, for a capital word only if first-upper; a free slot ends the search, a full bucket
goes on to the next of at most 4 while its Continued flag is set; a query is answered with Check Result, and a word
not found counts as Good if the user word list has taken it meanwhile (for a query log entry 59); a Suspect result
of a word of the working line, its record still there or gone with the carry of a Wrap (log entry 23), requests the
Suspect tone, sends Suspect Found to the line's port and stands on the suspect list (R150, R151, R138, R135, R134,
R137, R148, R139, R166). -/
def Obligations.CheckWordAnswersOrQueues : Prop :=
  (∀ (w : List Byte) (s : State), portFree .link s → 1 ≤ w.length → w.length ≤ 30 →
    ∃ t, exec (.checkWord .link w) s = .next t
    ∧ (2 ≤ s.spelling.queries.length → blockOnly .link 0x56 (.plain .full) s t)
    ∧ (s.spelling.queries.length < 2 → wordForm w = false → blockOnly .link 0x56 (.plain .range) s t)
    ∧ (s.spelling.queries.length < 2 → wordForm w = true →
        (∀ result, queryAtOnce w s = some result →
          t.spelling = { s.spelling with queryTag := (s.spelling.queryTag + 1) % 256 }
            ∧ t.link.queue = (s.link.notice (Notice.checkResult s.spelling.queryTag result)).queue
                ++ [({ status := .started, data := [BitVec.ofNat 8 s.spelling.queryTag] } : Reply).block 0x56]
            ∧ displayFollows s t ∧ holdFollows s t
            ∧ changesOnly [.link, .spelling, .restTimer, .display, .holdTimer] s t)
        ∧ (24 < w.length → queryAtOnce w s = some 2)
        ∧ (s.store.lexiconAvailable = false → queryAtOnce w s = some 2)
        ∧ (w.length ≤ 24 → s.store.lexiconAvailable = true → userGood s.spelling.userWords w = true →
            queryAtOnce w s = some 0)
        ∧ (queryAtOnce w s = none → s.line.phase ≠ .checking → s.spelling.queries = [] →
            s.spelling.queue.length < 8 →
            t.spelling.queries = [{ tag := s.spelling.queryTag, letters := w, queued := true }]
              ∧ t.spelling.queryTag = (s.spelling.queryTag + 1) % 256
              ∧ t.spelling.queue.length = s.spelling.queue.length + 1
              ∧ answered .link 0x56
                  { status := .started, data := [BitVec.ofNat 8 s.spelling.queryTag] } s t
              ∧ changesOnly [.link, .spelling, .store, .restTimer, .display, .holdTimer] s t)))
    ∧ (∀ (x : LinkOp) (e : SpellEntry) (rest : List SpellEntry) (bytes : List Byte) (q : Query) (s : State),
      s.store.link = some x → x.owner = .lookup → bytes.length = x.op.answer → s.spelling.queue = e :: rest →
      e.inFlight = true → e.stale = false → (∀ y ∈ rest, y.inFlight = false) → e.origin = .query → e.tag = q.tag →
      s.spelling.queries = [q] → s.line.phase ≠ .checking →
      ∃ t, exec (.storeOpComplete bytes) s = .next t
      ∧ (verdict e bytes = .good → t.spelling.queries = [] ∧ t.link = s.link.notice (Notice.checkResult q.tag 0))
      ∧ (verdict e bytes = .suspect → t.spelling.queries = []
          ∧ t.link = s.link.notice (Notice.checkResult q.tag
              (if userGood s.spelling.userWords e.letters = true then 0 else 1)))
      ∧ (verdict e bytes = .goOn → t.link = s.link
          ∧ t.spelling.queue.head?.map (fun y => (y.letters, y.probes, y.bucket)) =
              some (e.letters, e.probes + 1, (e.bucket + 1) % s.store.buckets))
      ∧ changesOnly [.link, .spelling, .store, .display, .holdTimer] s t)
    ∧ (∀ (e : SpellEntry) (before after : List Slot) (z : Slot) (capital : Bool),
      (∀ y ∈ before, y.fingerprint ≠ 0 ∧ ¬ (y.fingerprint = e.fingerprint ∧ y.length = e.length)) →
      (z.fingerprint = e.fingerprint → z.length = e.length → z.capital = capital →
        probeSlots e.fingerprint e.length (before ++ z :: after) = .found capital)
      ∧ (z.fingerprint = 0 → e.fingerprint ≠ 0 →
        probeSlots e.fingerprint e.length (before ++ z :: after) = .notFound)
      ∧ probeSlots e.fingerprint e.length before = .full)
    ∧ (∀ (e : SpellEntry) (bytes : List Byte),
      (verdict e bytes = .good ↔ ∃ capital, probeSlots e.fingerprint e.length (slotsOf bytes) = .found capital
        ∧ (capital = false ∨ firstUpper e.letters = true))
      ∧ (verdict e bytes = .goOn ↔ probeSlots e.fingerprint e.length (slotsOf bytes) = .full
        ∧ continuedFlag e (slotsOf bytes) = true ∧ e.probes + 1 < 4))
    ∧ (∀ (x : LinkOp) (e : SpellEntry) (rest : List SpellEntry) (bytes : List Byte) (p : Port) (s : State),
      s.store.link = some x → x.owner = .lookup → bytes.length = x.op.answer → s.spelling.queue = e :: rest →
      e.inFlight = true → e.stale = false → (∀ y ∈ rest, y.inFlight = false) → e.origin = .line p →
      s.spelling.queries = [] → s.line.phase ≠ .free → s.line.phase ≠ .checking → e.serial = s.line.serial →
      s.lift.away = false → verdict e bytes = .suspect → userGood s.spelling.userWords e.letters = false →
      ∃ t, exec (.storeOpComplete bytes) s = .next t
      ∧ t.tones = s.tones.request .suspect
      ∧ t.port p = (s.port p).notice (Notice.suspectFound e.serial e.first e.count e.letters)
      ∧ t.line = { s.line with words := s.line.words.map fun w =>
          if w.first = e.first ∧ w.generation = e.generation then { w with status := .suspect } else w }
      ∧ t.spelling.suspects.getLast? = some
          { serial := e.serial, place := .working, first := e.first, count := e.count, letters := e.letters
            fingerprint := e.fingerprint, length := e.length, continued := e.continued }
      ∧ changesOnly [.ofPort p, .line, .tones, .spelling, .store, .display, .holdTimer] s t)

/-- SHOW_MESSAGE: Range for a code outside the set; from the console the overlay is placed, with Message Withdrawn to
the link when the link's stood; from the link Busy under the console's, else placed; OVERLAY_EXPIRY removes a timed
overlay and leaves an untimed one (R162, R163). -/
def Obligations.ShowMessagePlacesAnOverlay : Prop :=
  (∀ (p : Port) (d : Byte) (text : List Byte) (s : State), portFree p s → text.length ≤ 28 →
      (∃ c ∈ text, overlayCode c = false) →
      ∃ t, exec (.showMessage p d text) s = .next t ∧ t.display.overlay = s.display.overlay
        ∧ blockOnly p 0x60 (.plain .range) s t)
    ∧ (∀ (d : Byte) (text : List Byte) (s : State), portFree .console s → text.length ≤ 28 →
      (∀ c ∈ text, overlayCode c = true) → ∃ t, exec (.showMessage .console d text) s = .next t
      ∧ t.display.overlay = some { text := text, owner := .console, remaining := d.toNat * 10 }
      ∧ t.display = displayNow { t with display := { s.display with overlay := t.display.overlay } }
      ∧ answered .console 0x60 (.plain .done) s t ∧ restAfterBlock s t
      ∧ (linkOverlay s = false → t.link = s.link)
      ∧ (linkOverlay s = true → t.link = s.link.notice Notice.messageWithdrawn)
      ∧ changesOnly [.console, .link, .restTimer, .display, .holdTimer] s t)
    ∧ (∀ (d : Byte) (text : List Byte) (s : State), portFree .link s → text.length ≤ 28 →
      (∀ c ∈ text, overlayCode c = true) → ∃ t, exec (.showMessage .link d text) s = .next t
      ∧ (consoleOverlay s = true → t.display.overlay = s.display.overlay ∧ blockOnly .link 0x60 (.plain .busy) s t)
      ∧ (consoleOverlay s = false →
          t.display.overlay = some { text := text, owner := .link, remaining := d.toNat * 10 }
            ∧ t.display = displayNow { t with display := { s.display with overlay := t.display.overlay } }
            ∧ blockDone [.display] .link 0x60 (.plain .done) s t))
    ∧ (∀ (o : Overlay) (s : State), s.display.overlay = some o → 0 < o.remaining →
      ∃ t, exec .overlayExpiry s = .next t ∧ t.display.overlay = none
        ∧ t.display = displayNow { t with display := { s.display with overlay := none } }
        ∧ changesOnly [.display, .holdTimer] s t)
    ∧ (∀ (o : Overlay) (s : State), s.display.overlay = some o → o.remaining = 0 →
      exec .overlayExpiry s = .next s)

/-- CLEAR_MESSAGE removes the sender's overlay (Done); with none or the other port's it changes nothing (NoTarget); a
port reset removes the overlay its port owns and no other, Restart removes any, none of them with a Message
Withdrawn (R164). -/
def Obligations.ClearMessageRemovesItsOwn : Prop :=
  (∀ (p : Port) (s : State), portFree p s → ∃ t, exec (.clearMessage p) s = .next t
      ∧ (ownsOverlay p s = true → t.display.overlay = none
          ∧ t.display = displayNow { t with display := { s.display with overlay := none } }
          ∧ blockDone [.display] p 0x61 (.plain .done) s t)
      ∧ (ownsOverlay p s = false →
          t.display.overlay = s.display.overlay ∧ blockOnly p 0x61 (.plain .noTarget) s t))
    ∧ (∀ (p : Port) (s : State), ∃ t, exec (.portReset p) s = .next t
      ∧ (ownsOverlay p s = true → t.display.overlay = none)
      ∧ (ownsOverlay p s = false → t.display.overlay = s.display.overlay)
      ∧ (t.port p).holds 0xB0 = 0 ∧ (t.port (Port.other p)).holds 0xB0 = (s.port (Port.other p)).holds 0xB0)
    ∧ (∀ s : State, portFree .console s → ∃ t, exec (.restart .console) s = .next t
      ∧ t.display.overlay = none ∧ t.console.holds 0xB0 = 0 ∧ t.link.holds 0xB0 = 0)
    ∧ (∀ (p : Port) (s : State), ownsOverlay p s = true ↔
        ∃ o, s.display.overlay = some o ∧ o.owner = p)

/-- SET_TONES stores a tone's divider and duty, divider 1 and Clamped for 0, Range for another tone or duty, and leaves
a sounding tone as it is; TONE_END only silences; a request starts from silence or over a tone of lower priority and
is dropped otherwise (R166, R167). -/
def Obligations.TonesAndTheirVoices : Prop :=
  (∀ (tone divider duty : Byte) (s : State), portFree .console s →
      ∃ t, exec (.setTones .console tone divider duty) s = .next t
      ∧ ((toneOf tone = none ∨ dutyOf duty = none) → blockOnly .console 0x62 (.plain .range) s t)
      ∧ (∀ name d, toneOf tone = some name → dutyOf duty = some d →
          t.tones = s.tones.setVoice name { divider := max 1 divider.toNat, duty := d }
            ∧ t.tones.sounding = s.tones.sounding
            ∧ t.tones.voice name = { divider := max 1 divider.toNat, duty := d }
            ∧ (∀ other, other ≠ name → t.tones.voice other = s.tones.voice other)
            ∧ blockDone [.tones] .console 0x62
                (if divider = 0 then { status := .clamped, data := [1] } else .plain .done) s t))
    ∧ (∀ s : State, exec .toneEnd s = .next { s with tones := { s.tones with sounding := none } })
    ∧ (∀ (t : ToneUnit) (name : ToneName), t.sounding = none →
        t.request name = { t with sounding := some { tone := name, remaining := name.length, voice := t.voice name } })
    ∧ (∀ (t : ToneUnit) (name : ToneName) (x : Sounding), t.sounding = some x →
        (name.priority ≤ x.tone.priority → t.request name = t)
          ∧ (x.tone.priority < name.priority →
              t.request name = { t with sounding := some { tone := name, remaining := name.length, voice := t.voice name } }))

/-- COMPOSE_STROKE of a Character on the console's Direct-mode line: the compose position grows by its advance and one
Stroke Job is appended with the strikes of its cell that lie on the platen, or a Move to the new compose position if
there is none; an overstrike replaces the cell at the position and counts an edit, another Character is inserted in
position order; a missing character is reported; an overstrike, and a Character inserted before the last cell, which
leaves the line unmapped, drop the lookups and the Working suspects of the line and divide its word list anew; the
first Character of the line whose right edge falls in the margin zone requests the Bell tone; past the margin it is
refused with Margin, and else, with 160 cells and no cell there, with Full (in this order: log entry 48), and makes
no job. The strikes: the main strike if the code is present, one unit to the right the bold strike if Bold and on
the platen, and the underscores if Underline. Advance, strike offset, strike width, space width and underscore width
are those of the table of R51, and a missing character advances by the space width (R25, R29, R30, R36, R51, R52,
R53, R55, R59, R62, R66, R131). -/
def Obligations.DirectCharacterIsStruck : Prop :=
  (∀ (code : Byte) (k : Stroke) (rest : List Stroke) (m : PetalMap) (s : State),
    s.line.phase = .composing → s.line.holder = some .console → s.line.mode = .direct →
    s.composer.consoleRing = k :: rest → k.kind = .character code → s.engine.petalMap = some m →
    s.engine.queue.length < 4 → s.engine.state ≠ .fault →
    let x := s.composer.position
    let w := advanceOf s.format m code
    let limit := if s.line.marginRelease then 1560 else s.format.right
    let held := s.line.cells.findIdx? (·.position == x)
    let c := newCell s.line.cells .character code k x w
    let i := held.getD (s.line.cells.filter (·.position < x)).length
    let strikes := cellStrikes s.format m s.line.rise i c
    let refused (st : Status) (t : State) : Prop :=
      t.composer = { s.composer with
          consoleRing := rest
          consoleRefusals := { code := some st, count := min 255 (s.composer.consoleRefusals.count + 1) } }
        ∧ t.engine = s.engine ∧ t.line.cells = s.line.cells ∧ t.tones = s.tones.request .refuse
    ∃ t, exec .composeStroke s = .next t
    ∧ (limit < x + w → refused .margin t)
    ∧ (x + w ≤ limit → held = none → 160 ≤ s.line.cells.length → refused .full t)
    ∧ (x + w ≤ limit → (held.isSome = true ∨ s.line.cells.length < 160) →
        t.composer = { s.composer with consoleRing := rest, position := x + w }
          ∧ t.line.serial = s.line.serial ∧ t.line.holder = s.line.holder ∧ t.line.rise = s.line.rise
          ∧ t.line.cells = (if held.isSome then s.line.cells.set i c
              else s.line.cells.take i ++ c :: s.line.cells.drop i)
          ∧ t.line.generation = (if held.isSome then (s.line.generation + 1) % 65536 else s.line.generation)
          ∧ t.line.cursor = (t.line.cells.filter (·.position < x + w)).length
          ∧ t.line.bell = (s.line.bell || inZone s.format (x + w))
          ∧ t.tones = (if s.line.bell = false ∧ inZone s.format (x + w) = true then s.tones.request .bell else s.tones)
          ∧ t.engine.queue = s.engine.queue ++ [{ Job.empty .stroke .console with
              serial := some s.line.serial
              orders := match strikes.filter fun z => z.position + z.width ≤ 1560 with
                | [] => [.move (x + w)]
                | kept => kept.map .strike
              dropped := if strikes.all fun z => z.position + z.width ≤ 1560 then 0 else 1 }]
          ∧ (held.isSome = true ∨ i < s.line.cells.length → editedSpelling s t
            ∧ t.line.unmapped = (s.line.unmapped || held.isNone))
          ∧ t.console = (if (m.find code).isNone then
              s.console.notice (Notice.missingCharacter code s.line.serial) else s.console)
          ∧ (s.engine.state ≠ .resting → t.engine = { s.engine with queue := t.engine.queue }
              ∧ t.restTimer = s.restTimer))
    ∧ displayFollows s t
    ∧ changesOnly [.composer, .engine, .line, .spelling, .store, .console, .display, .tones, .holdTimer, .restTimer] s t)
    ∧ (∀ (f : FormatRecord) (m : PetalMap) (rise : Int) (i : Nat) (c : Cell) (g : Glyph), c.kind = .character →
      m.find c.code = some g →
      let q := (c.position + (metrics f m g).offset).toNat
      let main : Strike :=
        { position := q, petal := g.petal, energy := g.cls + f.impression.offset, width := (metrics f m g).strikeWidth,
          code := g.code, cell := i, rise := rise, pass := .main }
      cellStrikes f m rise i c =
        main :: (if c.bold = true ∧ q + 1 + (metrics f m g).strikeWidth ≤ 1560
            then [{ main with position := q + 1, pass := .bold }] else [])
          ++ (if c.underline then underscoreStrikes f m rise i c.position c.width else []))
    ∧ (∀ (f : FormatRecord) (m : PetalMap) (rise : Int) (i : Nat) (c : Cell), c.kind = .character →
      m.find c.code = none →
      cellStrikes f m rise i c = if c.underline then underscoreStrikes f m rise i c.position c.width else [])
    ∧ (∀ (f : FormatRecord) (m : PetalMap) (rise : Int) (i p w : Nat), 0 < underscoreWidth m →
      let u := underscoreWidth m
      (∀ z ∈ underscoreStrikes f m rise i p w, z.petal = m.underscore.petal ∧ z.width = u ∧ z.cell = i
          ∧ z.rise = rise ∧ z.pass = .underscore ∧ z.energy = m.underscore.cls + f.impression.offset)
        ∧ (underscoreStrikes f m rise i p w).map (·.position) =
          (if w ≤ u then [p]
           else (List.range (w / u)).map (fun n => p + n * u) ++ (if w % u = 0 then [] else [p + w - u])))
    ∧ (∀ (f : FormatRecord) (m : PetalMap) (g : Glyph),
      (∀ x ∈ [(PitchClass.ten, (12 : Nat)), (.twelve, 10), (.fifteen, 8)], m.pitch = x.1 →
        metrics f m g = { advance := x.2, offset := 0, strikeWidth := x.2 } ∧ spaceWidth f m = x.2
          ∧ underscoreWidth m = x.2)
      ∧ (m.pitch = .proportional → f.spacing = .proportional →
        metrics f m g = { advance := g.width, offset := 0, strikeWidth := g.width } ∧ spaceWidth f m = m.spaceWidth
          ∧ underscoreWidth m = m.underscore.width)
      ∧ (∀ x ∈ [(Spacing.fixed10, (12 : Nat)), (.fixed12, 10), (.fixed15, 8)], m.pitch = .proportional → f.spacing = x.1 →
        (metrics f m g).advance = x.2 ∧ (metrics f m g).strikeWidth = g.width
          ∧ 2 * (metrics f m g).offset ≤ (x.2 : Int) - g.width ∧ (x.2 : Int) - g.width < 2 * (metrics f m g).offset + 2
          ∧ spaceWidth f m = x.2 ∧ underscoreWidth m = m.underscore.width))
    ∧ (∀ (f : FormatRecord) (m : PetalMap) (code : Byte),
      (m.find code = none → advanceOf f m code = spaceWidth f m ∧ ∀ g ∈ m.glyphs, g.code ≠ code)
      ∧ (∀ g, m.find code = some g → advanceOf f m code = (metrics f m g).advance ∧ g ∈ m.glyphs ∧ g.code = code))

/-- COMPOSE_STROKE of a Character on a Line-mode line in Composing with fewer than 160 cells whose new extent stays
within Rm inserts a cell at the cursor, moves the cursor one right, and increments the edit generation exactly when
the insertion is not at the end; no job is made. The same for a Space and a Tab, and for all three on a Held line,
which returns to Composing; an insertion not at the end drops the lookups and the Working suspects of the line and
divides its word list anew; one at the end leaves the suspects alone and every waiting lookup in its place, and a
Space, Tab or hyphen there completes the word before it: a checkable word not tried before is Good from the user word
list, stays Unchecked with eight lookups queued, is Unavailable without a lexicon, or is Queued with its lookup
behind the others, while any other cell at the end queues no word; a Space or Tab at the end is taken up to 1560, any
other cell up to Rm, or up to 1560 once Margin Release is set, and else (but for the Character that wraps) is refused
with Margin; a cell that would be taken is refused with Full at 160 cells; the first Character at the end whose right
edge is in the margin zone rings the bell (R25, R31, R33, R35, R36, R39, R128, R129, R130, R131, R136, R141). -/
def Obligations.LineCharacterIsInserted : Prop :=
  (∀ (p : Port) (code : Byte) (k : Stroke) (rest : List Stroke) (m : PetalMap) (s : State),
    s.line.phase = .composing → s.line.holder = some p → s.line.mode = .line → (s.lift.away = false ∨ p = .console) →
    s.composer.ring p = k :: rest → k.kind = .character code → s.engine.petalMap = some m →
    s.line.cells.length < 160 → s.line.cursor ≤ s.line.cells.length →
    extentOf s.format.left (layFrom s.format m s.format.left (insertAt s.line.cells s.line.cursor
      (newCell s.line.cells .character code k 0 0))) ≤ s.format.right →
    ∃ t, exec .composeStroke s = .next t
    ∧ t.line.cells.length = s.line.cells.length + 1
    ∧ t.line.cells.map (·.content) = (insertAt s.line.cells s.line.cursor
        (newCell s.line.cells .character code k 0 0)).map (·.content)
    ∧ t.line.cursor = s.line.cursor + 1
    ∧ t.line.generation =
        (if s.line.cursor = s.line.cells.length then s.line.generation else (s.line.generation + 1) % 65536)
    ∧ t.line.phase = .composing ∧ t.line.holder = s.line.holder ∧ t.line.serial = s.line.serial
    ∧ t.composer.ring p = rest ∧ t.composer.ring (Port.other p) = s.composer.ring (Port.other p)
    ∧ t.composer.nextSerial = s.composer.nextSerial
    ∧ changesOnly [.composer, .line, .spelling, .store, .display, .tones, .holdTimer] s t)
    ∧ (∀ (p : Port) (kind : CellKind) (code : Byte) (k : Stroke) (rest : List Stroke) (m : PetalMap) (s : State),
      (s.line.phase = .composing ∨ s.line.phase = .held) → s.line.holder = some p → s.line.mode = .line → (s.lift.away = false ∨ p = .console) →
      s.composer.ring p = k :: rest → s.engine.petalMap = some m → s.line.cursor ≤ s.line.cells.length →
      ((kind = .character ∧ k.kind = .character code) ∨ (kind = .space ∧ code = 0x20 ∧ k.kind = .space)
        ∨ (kind = .tab ∧ code = 0x09 ∧ k.kind = .function .tab)) →
      let cells := insertAt s.line.cells s.line.cursor (newCell s.line.cells kind code k 0 0)
      let extent := extentOf s.format.left (layFrom s.format m s.format.left cells)
      let atEnd := s.line.cursor = s.line.cells.length
      let wraps := kind = .character ∧ atEnd ∧ s.line.marginRelease = false ∧ s.format.wrapOf p = true
      let taken := if kind ≠ .character ∧ atEnd then extent ≤ 1560
        else extent ≤ s.format.right ∨ (s.line.marginRelease = true ∧ extent ≤ 1560)
      let refused (st : Status) (t : State) : Prop :=
        t.line = { s.line with phase := .composing } ∧ t.tones = s.tones.request .refuse ∧ t.composer.ring p = rest
          ∧ t.composer.refusals p = { code := some st, count := min 255 ((s.composer.refusals p).count + 1) }
      ∃ t, exec .composeStroke s = .next t
      ∧ (taken → s.line.cells.length < 160 →
          t.line.cells = layFrom s.format m s.format.left cells ∧ t.line.cursor = s.line.cursor + 1
            ∧ t.composer.ring p = rest ∧ t.composer.position = positionAt s.format.left t.line.cells t.line.cursor
            ∧ t.line.generation = (if atEnd then s.line.generation else (s.line.generation + 1) % 65536)
            ∧ t.line.phase = .composing ∧ t.line.holder = s.line.holder ∧ t.line.serial = s.line.serial
            ∧ t.line.marginRelease = s.line.marginRelease
            ∧ (¬ atEnd → editedSpelling s t)
            ∧ (atEnd → extendedSpelling p (newCell s.line.cells kind code k 0 0) s t)
            ∧ (let rings := kind = .character ∧ atEnd ∧ s.line.bell = false ∧ s.format.right - s.format.zone ≤ extent
                  ∧ extent < s.format.right
               t.line.bell = (s.line.bell || decide rings)
                 ∧ t.tones = (if rings then s.tones.request .bell else s.tones)))
      ∧ (taken → 160 ≤ s.line.cells.length → refused .full t)
      ∧ (¬ taken → ¬ wraps → refused .margin t)
      ∧ t.engine = s.engine
      ∧ changesOnly [.composer, .line, .spelling, .store, .display, .tones, .holdTimer] s t)

/-- COMPOSE_STROKE on a Free line: the port to be served is the one whose head alone can be taken, and the one that is
not the last holder when both can; a head stroke that is Delete or a cursor move is refused with NoLine, and the line
stays Free and the fragments pending; any other head stroke claims the line for its port with the next serial, in
Line mode for the link and in the Entry Mode for the console (a Return may end the claim in the same step), and
resolves both pending fragments: the port's own is joined to the line, to be checked alone when the stroke's cell
begins no word there, and the other port's is checked alone. On any line COMPOSE_STROKE does nothing when neither
head stroke can be taken (log entry 3), which is so for a ring that is empty, with the map Unloaded, with the line
Ending or held by the other port, for the link's ring while Away, and for a stroke that would be composed in Direct
mode with the Print Queue full or the engine in Fault (R24, R26, R19, R20, R25, R37, R41, R144). -/
def Obligations.ClaimOrRefusalOnAFreeLine : Prop :=
  (∀ (k : Stroke) (rest : List Stroke) (m : PetalMap) (s : State),
    s.line.phase = .free → s.lift.away = false → s.composer.linkRing = k :: rest → s.engine.petalMap = some m →
    (headWaits .console s ∨ s.composer.lastHolder = some .console) → ∃ t, exec .composeStroke s = .next t
    ∧ (k.edits = true → t.line = s.line ∧ t.engine = s.engine ∧ (∀ q, t.spelling.fragment q = s.spelling.fragment q)
        ∧ t.composer = { s.composer with
            linkRing := rest
            linkRefusals := { code := some .noLine, count := min 255 (s.composer.linkRefusals.count + 1) } }
        ∧ t.tones = s.tones.request .refuse)
    ∧ (k.edits = false → t.line.holder = some .link ∧ t.line.serial = s.composer.nextSerial ∧ t.line.mode = .line
        ∧ t.line.phase ≠ .free
        ∧ t.composer.nextSerial = (if 65535 ≤ s.composer.nextSerial then 1 else s.composer.nextSerial + 1)
        ∧ t.composer.linkRing = rest ∧ t.composer.consoleRing = s.composer.consoleRing
        ∧ t.composer.lastHolder = s.composer.lastHolder ∧ t.engine = s.engine ∧ fragmentsResolved .link k s t)
    ∧ changesOnly [.composer, .line, .spelling, .store, .console, .link, .display, .tones, .holdTimer] s t)
    ∧ (∀ (k : Stroke) (rest : List Stroke) (m : PetalMap) (s : State),
    s.line.phase = .free → s.lift.away = false → s.composer.consoleRing = k :: rest → s.engine.petalMap = some m →
    (s.composer.linkRing = [] ∨ s.composer.lastHolder ≠ some .console) →
    (s.options.entryMode = .line ∨ (s.engine.queue.length < 4 ∧ s.engine.state ≠ .fault)) →
    ∃ t, exec .composeStroke s = .next t
    ∧ (k.edits = true → t.line = s.line ∧ t.engine = s.engine ∧ (∀ q, t.spelling.fragment q = s.spelling.fragment q)
        ∧ t.composer = { s.composer with
            consoleRing := rest
            consoleRefusals := { code := some .noLine, count := min 255 (s.composer.consoleRefusals.count + 1) } }
        ∧ t.tones = s.tones.request .refuse)
    ∧ (k.edits = false →
        t.composer.nextSerial = (if 65535 ≤ s.composer.nextSerial then 1 else s.composer.nextSerial + 1)
        ∧ t.composer.consoleRing = rest ∧ t.composer.linkRing = s.composer.linkRing ∧ fragmentsResolved .console k s t)
    ∧ (k.edits = false → k.kind ≠ .function .carriageReturn →
        t.line.holder = some .console ∧ t.line.serial = s.composer.nextSerial ∧ t.line.mode = s.options.entryMode
        ∧ t.line.phase = .composing ∧ t.composer.lastHolder = s.composer.lastHolder)
    ∧ changesOnly [.composer, .engine, .line, .spelling, .store, .console, .display, .tones, .holdTimer, .restTimer] s t)
    ∧ (∀ s : State, headWaits .console s → headWaits .link s → exec .composeStroke s = .next s)

/-- LINE_CONVERSION of a Line-mode line, when its conditions hold: a Line Job of the line's serial and holder is
appended, a Move to its first strike (L without one), the strikes of the laid-out cells that lie on the platen in
cell order, and the line-spacing Feed; missing characters and a skipped justification are reported (in this order:
log entry 50); the line becomes Free, or after a Wrap the claim passes to a new serial holding the carry; a waiting
Direct-mode line is released with its line-ending Move and Feed; without the conditions nothing happens (log entry
3). The layout: centered with the Center flag and no Tab; justified after a Wrap with Justify on, by equal additions
in the gaps, the rightmost one unit more, unless there is no gap, no shortfall or too large an addition; else flush
left. In a justified line the additions stand at the first Spaces of the gaps only, sum to the shortfall, differ by
at most one with the larger ones rightmost, and bring the right edge of the last Character to Rm (R38, R20, R52,
R54, R56, R57, R58, R59, R60, R61, R62, R140). -/
def Obligations.LineConversionMakesALineJob : Prop :=
  (∀ (p : Port) (m : PetalMap) (s : State), s.line.phase = .waiting → s.line.holder = some p → s.line.mode = .line →
      s.engine.petalMap = some m → s.engine.queue.length < 4 → s.engine.state ≠ .fault →
      let layout := layoutAtConversion s.format m s.line (s.format.justifyOf p)
      let strikes := (lineStrikes s.format m 0 layout.cells).1
      let missing := (missingCodes m layout.cells).foldl
        (fun v c => v.notice (Notice.missingCharacter c s.line.serial)) (s.port p)
      ∃ t, exec .lineConversion s = .next t
      ∧ t.engine.queue = s.engine.queue ++ [{ Job.empty .line p with
          serial := some s.line.serial
          orders := .move (match strikes with | k :: _ => k.position | [] => s.format.left)
            :: strikes.map .strike ++ [.feed s.format.lineSpacing]
          dropped := (lineStrikes s.format m 0 layout.cells).2 }]
      ∧ t.port p = (if layout.skipped then missing.notice (Notice.justifySkipped s.line.serial) else missing)
      ∧ t.port (Port.other p) = s.port (Port.other p)
      ∧ s.line.serial ∈ t.spelling.printing
      ∧ (s.line.carry = none → t.line = .free
          ∧ t.composer = { s.composer with lastHolder := some p, position := s.format.left })
      ∧ (∀ carry, s.line.carry = some carry → t.line.phase = .composing ∧ t.line.holder = some p
          ∧ t.line.mode = .line ∧ t.line.serial = s.composer.nextSerial
          ∧ t.line.cells.map (·.content) = carry.map (·.content) ∧ t.line.cursor = carry.length
          ∧ t.line.bell = false ∧ t.line.carry = none ∧ t.composer.lastHolder = s.composer.lastHolder)
      ∧ changesOnly [.composer, .engine, .line, .spelling, .store, .console, .link, .display, .tones, .holdTimer,
          .restTimer] s t)
    ∧ (∀ s : State, s.line.phase = .waiting → s.line.holder = some .console → s.line.mode = .direct →
      s.engine.petalMap.isSome = true → s.engine.queue.length < 4 → s.engine.state ≠ .fault →
      ∃ t, exec .lineConversion s = .next t
      ∧ t.engine.queue = s.engine.queue ++ [{ Job.empty .stroke .console with
          serial := some s.line.serial, lineEnding := true
          orders := [.move s.format.left, .feed (s.format.lineSpacing + s.line.rise)] }]
      ∧ t.line = .free ∧ t.composer = { s.composer with lastHolder := some .console, position := s.format.left }
      ∧ changesOnly [.composer, .engine, .line, .spelling, .store, .display, .holdTimer, .restTimer] s t)
    ∧ (∀ s : State, (s.line.phase ≠ .waiting ∨ s.engine.petalMap = none ∨ 4 ≤ s.engine.queue.length
        ∨ s.engine.state = .fault) → exec .lineConversion s = .next s)
    ∧ (∀ (f : FormatRecord) (m : PetalMap) (l : WorkingLine) (on : Bool),
      let plain := layFrom f m f.left l.cells
      let total := (plain.map (·.width)).sum
      let gaps := gapStarts plain
      let short := f.right - lastCharacterEdge plain
      let layout := layoutAtConversion f m l on
      (l.center = true → (∀ c ∈ l.cells, c.kind ≠ .tab) → layout.skipped = false
          ∧ layout.cells = layFrom f m
              (if total ≤ f.right - f.left then f.left + (f.right - f.left - total) / 2 else f.left) l.cells)
        ∧ (l.center = true → (∃ c ∈ l.cells, c.kind = .tab) → layout = ⟨plain, false⟩)
        ∧ (l.center = false → (l.endCause ≠ some .wrap ∨ on = false) → layout = ⟨plain, false⟩)
        ∧ (l.center = false → l.endCause = some .wrap → on = true →
            ((gaps = [] ∨ f.right ≤ lastCharacterEdge plain) → layout = ⟨plain, false⟩)
            ∧ (gaps ≠ [] → lastCharacterEdge plain < f.right →
                let largest := if short % gaps.length = 0 then short / gaps.length else short / gaps.length + 1
                (3 * spaceWidth f m < largest → layout = ⟨plain, true⟩)
                ∧ (largest ≤ 3 * spaceWidth f m → layout.skipped = false
                    ∧ layout.cells = layWith f m f.left (l.cells.zip
                        (additions l.cells.length gaps (short / gaps.length) (short % gaps.length)))))))
    ∧ (∀ (f : FormatRecord) (m : PetalMap) (laid : List Cell),
      (lineStrikes f m 0 laid).1 = laid.zipIdx.flatMap fun c =>
          (cellStrikes f m 0 c.2 c.1).filter fun z => z.position + z.width ≤ 1560)
    ∧ (∀ (f : FormatRecord) (m : PetalMap) (cells : List Cell),
      let plain := layFrom f m f.left cells
      let gaps := gapStarts plain
      let short := f.right - lastCharacterEdge plain
      let extra := additions cells.length gaps (short / gaps.length) (short % gaps.length)
      let justified := layWith f m f.left (cells.zip extra)
      (∀ i < cells.length, i ∈ gaps ↔ 0 < i ∧ (cells[i]?.map (·.kind)) = some .space
          ∧ (cells[i - 1]?.map (·.kind)) = some .character ∧ (∀ c ∈ cells.drop i, c.kind ≠ .tab)
          ∧ ∃ c ∈ cells.drop i, c.kind = .character)
        ∧ gaps.Pairwise (· < ·) ∧ (∀ i ∈ gaps, i < cells.length) ∧ extra.length = cells.length
        ∧ (∀ i < cells.length, i ∉ gaps → extra[i]? = some 0)
        ∧ (gaps ≠ [] → lastCharacterEdge plain < f.right →
          extra.sum = short
            ∧ (∀ i ∈ gaps, ∀ j ∈ gaps, i < j → extra.getD i 0 ≤ extra.getD j 0 ∧ extra.getD j 0 ≤ extra.getD i 0 + 1)
            ∧ lastCharacterEdge justified = f.right
            ∧ justified.map (·.content) = cells.map (·.content)
            ∧ (justified.zip plain).zipIdx.all (fun c => c.1.1.width == c.1.2.width + extra.getD c.2 0) = true))

/-- JOB_START in Ready with the map Loaded: with ribbon, a waiting job whose first order is a Strike makes the engine
Working, with the wheel turning the shorter way and the carrier moving only where needed and the hammer firing at
once when neither is; so does a job that begins with any order, a Move, a Feed and an Eject among them; a Move to
where the carrier stands and a Feed of 0 complete as they begin and the next order begins; a lone Eject with the
page at its end completes as it begins and ends its job; a Relocate job begins with the Move to the Relocate Point
and its Feeds from where the platen stands; with no ribbon a job that is no Correction job waits and the engine
enters SupplyOut (log entry 15). A Correction job is resolved first, whatever the ribbon: it is refused with the
first failing check of R115 and leaves the queue, or gets its orders, sets the Relocate Point, and for Lift Back
starts Away. Without the conditions the engine is as it was (log entry 3). The targets of Lift Word are the entries
of the word of its anchor, the rightmost visible entry left of the reference, the newest of them at equal position,
or with no reference the newest visible one; those of Lift Back the entries of the word whose extent contains its
position, in the record n back; those of Lift Last the newest stroke group; without anchor or word there is no
target. The words of a record are the runs of visible entries without a gap, left to right, each with the
underscores that overlap it most, the word further left on a tie. The orders lift the targets right to left, newest
first at equal position, in Feeds of at most 20, and end at the home height (R67, R69, R88, R101, R102, R112, R113,
R115, R116, R120, R121, R123). -/
def Obligations.JobStartBeginsTheFirstOrder : Prop :=
  (∀ (j : Job) (rest : List Job) (k : Strike) (orders : List Order) (s : State),
      s.engine.state = .ready → s.engine.petalMap.isSome = true → s.engine.queue = j :: rest → 0 < s.engine.ribbon →
      j.started = false → j.correction = none → j.relocate = false → j.next = 0 → j.orders = .strike k :: orders →
      s.engine.wheelMove = none → s.engine.carrierMove = none → s.engine.petal < 96 → k.petal < 96 →
      ∃ t, exec .jobStart s = .next t
      ∧ t.engine = { s.engine with
          state := .working
          queue := { j with started := true } :: rest
          wheelMove :=
            if s.engine.petal = k.petal then none
            else if (k.petal + 96 - s.engine.petal) % 96 ≤ 48 then
              some ⟨k.petal, true, (k.petal + 96 - s.engine.petal) % 96, 16⟩
            else
              some ⟨k.petal, false, 96 - (k.petal + 96 - s.engine.petal) % 96, 16⟩
          carrierMove := if s.engine.carrier = k.position then none else some { target := k.position, limit := 61 }
          hammer := if s.engine.petal = k.petal ∧ s.engine.carrier = k.position then .pulse k.energy
            else s.engine.hammer }
      ∧ t.restTimer = none ∧ eventFrame [.engine, .restTimer] s t)
    ∧ (∀ (j : Job) (rest : List Job) (s : State), s.engine.state = .ready → s.engine.petalMap.isSome = true →
        s.engine.queue = j :: rest → j.started = false → j.correction = none → s.engine.ribbon = 0 →
        ∃ t, exec .jobStart s = .next t
        ∧ t.engine = { s.engine with state := .supplyOut } ∧ t.restTimer = none
        ∧ eventFrame [.engine, .restTimer] s t)
    ∧ (∀ s : State, (s.engine.state ≠ .ready ∨ s.engine.petalMap = none ∨ s.engine.queue = []) →
        ∃ t, exec .jobStart s = .next t ∧ t.engine = s.engine ∧ eventFrame [] s t)
    ∧ (∀ (j : Job) (c : Correction) (reason : LiftReason) (s : State), s.engine.state = .ready →
        s.engine.petalMap.isSome = true → s.engine.queue = [j] → j.started = false → j.correction = some c →
        s.lift.owed = false → s.line.phase ≠ .checking →
        ((findTarget c s = none ∧ reason = .noTarget)
          ∨ ∃ g, findTarget c s = some g ∧ liftCheck c.command g [] s = some reason) →
        ∃ t, exec .jobStart s = .next t
        ∧ t.engine = { s.engine with queue := [] } ∧ t.restTimer = restLength s.options
        ∧ t.port j.source = (s.port j.source).notice ⟨0xA9, [c.command.code, BitVec.ofNat 8 reason.code]⟩
        ∧ t.tones = (if j.source = .console then s.tones.request .refuse else s.tones)
        ∧ eventFrame [.engine, .restTimer, .tones, .ofPort j.source] s t)
    ∧ (∀ (j : Job) (rest : List Job) (c : Correction) (g : Target) (s : State), s.engine.state = .ready →
        s.engine.petalMap.isSome = true → s.engine.queue = j :: rest → j.started = false → j.next = 0 →
        j.correction = some c → findTarget c s = some g → liftCheck c.command g rest s = none →
        let set := !s.lift.away && (s.lift.point.isNone || s.lift.strikeSeen)
        let resolved : Job := { j with
          started := true, serial := some g.record.serial, orders := correctionOrders c.command g s.engine.platen
          correction := some { c with target := some g.record.name } }
        ∃ t, exec .jobStart s = .next t ∧ t.restTimer = none
        ∧ t.lift.point = (if set then some (s.composer.position, s.engine.platen) else s.lift.point)
        ∧ t.lift.strikeSeen = (s.lift.strikeSeen && !set)
        ∧ (s.engine.ribbon = 0 → t.engine = { s.engine with queue := resolved :: rest, state := .supplyOut }
            ∧ t.memory = s.memory)
        ∧ (0 < s.engine.ribbon → t.engine.state = .working
            ∧ (t.engine.queue = resolved :: rest ∨ (resolved.orders.head? = some (.feed 0)
                ∧ t.engine.queue = { resolved with next := 1 } :: rest)))
        ∧ (c.command ≠ .back → t.lift.away = s.lift.away ∧ t.composer.position = s.composer.position
            ∧ t.line.holder = s.line.holder ∧ t.line.cells = s.line.cells)
        ∧ (c.command = .back → t.lift.away = true ∧ t.lift.target = some g.record.name
            ∧ t.line = awayLine g.record.serial ∧ t.composer.nextSerial = s.composer.nextSerial
            ∧ (∀ e ∈ g.entries, t.composer.position ≤ e.position)
            ∧ ∃ e ∈ g.entries, t.composer.position = e.position))
    ∧ (∀ (c : LiftCommand) (g : Target) (behind : List Job) (s : State),
        let found := g.entries ≠ [] ∧ (c = .retract ∨ withinReach s.engine.platen g.record = true)
          ∧ targetIncomplete c g = false
        let handed := c = .back → lineCanBeHanded s behind = true
        let wheel := ∀ e ∈ g.entries, s.engine.petalMap.map (·.wheelId) = some e.wheelId
        let liftable := ∀ e ∈ g.entries, e.liftable = true
        let tape := g.entries.length ≤ s.engine.tape
        (liftCheck c g behind s = some .noTarget ↔ ¬ found)
          ∧ (liftCheck c g behind s = some .lineHeld ↔ found ∧ ¬ handed)
          ∧ (liftCheck c g behind s = some .wrongWheel ↔ found ∧ handed ∧ ¬ wheel)
          ∧ (liftCheck c g behind s = some .unliftable ↔ found ∧ handed ∧ wheel ∧ ¬ liftable)
          ∧ (liftCheck c g behind s = some .tapeOut ↔ found ∧ handed ∧ wheel ∧ liftable ∧ ¬ tape)
          ∧ (liftCheck c g behind s = none ↔ found ∧ handed ∧ wheel ∧ liftable ∧ tape))
    ∧ (∀ (c : Correction) (g : Target) (s : State), findTarget c s = some g →
        (c.command = .line → s.memory.current = some g.record ∧ g.entries = g.record.entries)
          ∧ (c.command = .last → s.memory.current = some g.record ∧ g.entries <:+ g.record.entries
              ∧ (∀ e ∈ g.entries, ∀ e' ∈ g.entries, e.cell = e'.cell)
              ∧ (∀ e ∈ g.entries.drop 1, e.pass ≠ .main)
              ∧ (g.record.entries ≠ [] → ∃ e, g.entries.head? = some e ∧ (e.pass = .main ∨
                ∀ y, (g.record.entries.take (g.record.entries.length - g.entries.length)).getLast? = some y →
                  y.cell ≠ e.cell)))
          ∧ (c.command = .word → s.memory.current = some g.record ∧ ∃ w ∈ g.record.words, g.word = some w
              ∧ g.entries = g.record.entries.filter (w.entries.contains ·)
              ∧ ∃ e ∈ w.entries, e.pass ≠ .underscore
                ∧ (c.reference = none → (g.record.entries.filter (·.pass != .underscore)).getLast? = some e)
                ∧ (∀ x, c.reference = some x → e.position < x
                  ∧ (∀ y ∈ g.record.entries, y.pass ≠ .underscore → y.position < x → y.position ≤ e.position)
                  ∧ (g.record.entries.filter fun y => y.pass != .underscore && y.position == e.position).getLast? = some e))
          ∧ (c.command = .back → s.memory.back c.offset = some g.record ∧ ∃ w ∈ g.record.words, g.word = some w
              ∧ g.entries = g.record.entries.filter (w.entries.contains ·)
              ∧ w.left ≤ c.position ∧ c.position < w.right)
          ∧ (c.command = .retract → g.record.source = .link ∧ withinReach s.engine.platen g.record = true
              ∧ g.entries = g.record.entries
              ∧ ∃ older newer, s.memory.records = older ++ g.record :: newer
                ∧ ∀ r ∈ newer, ¬ (r.source = .link ∧ withinReach s.engine.platen r = true)))
    ∧ (∀ (c : Correction) (s : State), findTarget c s = none →
        (c.command = .last ∨ c.command = .line → s.memory.current = none)
          ∧ (∀ r, s.memory.current = some r → c.command = .word →
              ∀ y ∈ r.entries, y.pass ≠ .underscore → ∃ x, c.reference = some x ∧ x ≤ y.position)
          ∧ (∀ r, s.memory.back c.offset = some r → c.command = .back →
              ∀ w ∈ r.words, ¬ (w.left ≤ c.position ∧ c.position < w.right))
          ∧ (c.command = .retract →
              ∀ r ∈ s.memory.records, ¬ (r.source = .link ∧ withinReach s.engine.platen r = true)))
    ∧ (∀ r : LineRecord,
        r.words.Pairwise (fun w y => w.right < y.left)
          ∧ (∀ e ∈ r.entries, e.pass ≠ .underscore → ∃ w ∈ r.words, e ∈ w.entries)
          ∧ ∀ w ∈ r.words,
            let letters := w.entries.filter (·.pass != .underscore)
            (∀ e ∈ w.entries, e ∈ r.entries)
              ∧ (∃ e ∈ letters, e.position = w.left) ∧ (∃ e ∈ letters, e.position + e.width = w.right)
              ∧ (∀ e ∈ letters, w.left ≤ e.position ∧ e.position + e.width ≤ w.right
                ∧ (e.position = w.left ∨ ∃ y ∈ letters, y.position < e.position ∧ e.position ≤ y.position + y.width))
              ∧ (∀ e ∈ r.entries, e.pass ≠ .underscore → e ∉ w.entries →
                e.position + e.width < w.left ∨ w.right < e.position)
              ∧ (∀ u ∈ r.entries, u.pass = .underscore →
                let shared (y : PaperWord) := min (u.position + u.width) y.right - max u.position y.left
                (u ∈ w.entries ↔ 0 < shared w
                  ∧ ∀ y ∈ r.words, shared y ≤ shared w ∧ (shared y = shared w → w.left ≤ y.left))))
    ∧ (∀ (c : LiftCommand) (g : Target) (platen : Int), g.entries ≠ [] →
        let orders := correctionOrders c g platen
        let lifts := orders.filterMap fun o => match o with | .lift _ e => some e | _ => none
        (∀ n, .feed n ∈ orders → n.natAbs ≤ 20)
          ∧ (orders.map fun o => match o with | .feed n => n | _ => 0).sum =
              (if c = .back then g.record.vertical else platen) - platen
          ∧ (∃ n, orders.head? = some (.feed n)) ∧ (∃ n, orders.getLast? = some (.feed n))
          ∧ (∀ o ∈ orders, (∃ n, o = .feed n) ∨ ∃ e, o = .lift g.record.name e)
          ∧ lifts.Pairwise (fun a b => b.position ≤ a.position)
          ∧ ∀ x, lifts.filter (·.position == x) = (g.entries.filter (·.position == x)).reverse)
    ∧ (∀ (j : Job) (rest : List Job) (o : Order) (s : State), s.engine.state = .ready →
        s.engine.petalMap.isSome = true → s.engine.queue = j :: rest → 0 < s.engine.ribbon → j.started = false →
        j.correction = none → (j.relocate = true → s.lift.point = none) → j.orders[j.next]? = some o →
        ∃ t, exec .jobStart s = .next t
        ∧ (o.takesTime s = true → t.restTimer = none
            ∧ t.engine = orderBegun o { s.engine with state := .working, queue := { j with started := true } :: rest }
              ∧ eventFrame [.engine, .restTimer] s t)
        ∧ (∀ o', j.orders[j.next + 1]? = some o' → o'.takesTime s = true →
            (o = .move s.engine.carrier ∨ (o = .feed 0 ∧ -64 ≤ s.engine.platen ∧ s.engine.platen ≤ 8191
              ∧ s.engine.platen ≤ s.engine.pageLines)) →
            t.restTimer = none ∧ t.engine = orderBegun o' { s.engine with
                state := .working, queue := { j with started := true, next := j.next + 1 } :: rest }
              ∧ t.memory = (if o = .feed 0 ∧ s.memory.openRecord.isSome then { s.memory with
                  openRecord := none, resumeRecord := s.memory.openRecord } else s.memory)
              ∧ eventFrame [.engine, .memory, .restTimer] s t))
    ∧ (∀ (j : Job) (s : State), s.engine.state = .ready → s.engine.petalMap.isSome = true → s.engine.queue = [j] →
        0 < s.engine.ribbon → j.started = false → j.correction = none → j.relocate = false → j.kind = .motion →
        j.orders = [.eject] → j.next = 0 → s.format.pageLength ≤ s.engine.platen → s.lift.owed = false →
        (j.source = .link ∨ s.line.phase ≠ .checking) → ∃ t, exec .jobStart s = .next t
        ∧ t.engine = { s.engine with platen := 0, pageLines := 0, pageEnd := false, queue := [] }
        ∧ t.memory = { s.memory with records := [], openRecord := none, resumeRecord := none, returnRecord := none }
        ∧ t.lift = { s.lift with point := none } ∧ t.restTimer = restLength s.options
        ∧ t.port j.source = (s.port j.source).notice (Notice.lineDone 0 0 0))
    ∧ (∀ (j : Job) (rest : List Job) (x : Nat) (y : Int) (s : State), s.engine.state = .ready →
        s.engine.petalMap.isSome = true → s.engine.queue = j :: rest → 0 < s.engine.ribbon → j.started = false →
        j.correction = none → j.relocate = true → j.next = 0 → s.lift.point = some (x, y) →
        s.engine.wheelMove = none → s.engine.carrierMove = none →
        let d := y - s.engine.platen
        let head (next : Nat) : Job := { j with started := true, orders := .move x :: feedsOf d, next := next }
        ∃ t, exec .jobStart s = .next t
        ∧ (s.engine.carrier ≠ x → t.engine = { s.engine with
            state := .working, queue := head 0 :: rest, carrierMove := some { target := x, limit := 61 } })
        ∧ (s.engine.carrier = x → d ≠ 0 → t.engine = { s.engine with
            state := .working, queue := head 1 :: rest
            platenMove := some (.feed (if d.natAbs ≤ 20 then d else if 0 < d then 20 else -20)) })
        ∧ (s.engine.carrier ≠ x ∨ d ≠ 0 → eventFrame [.engine, .restTimer] s t))
    ∧ (∀ d : Int,
        feedsOf d ≠ [] ∧ (∀ o ∈ feedsOf d, ∃ n, o = .feed n ∧ n.natAbs ≤ 20)
          ∧ ((feedsOf d).map fun o => match o with | .feed n => n | _ => 0).sum = d
          ∧ ∀ o ∈ (feedsOf d).dropLast, o = .feed (if 0 < d then 20 else -20))

/-- WHEEL_SETTLED and CARRIER_ARRIVED set the position they report, and the second of the two fires the hammer of a
Strike or raises the tape of a Lift; CARRIER_ARRIVED completes a Move: the next order begins, or with no ribbon the
engine enters SupplyOut, or after the last order of a lone job the job ends (a Stroke Job into the Direct tally, a
Motion job with Line Done of serial 0, a cancelled one with Line Cancelled) and the engine is Ready; in WheelChange
CARRIER_ARRIVED only stands the carrier at 780; TAPE_RAISED fires with the entry's energy plus 2, at most 12;
HAMMER_PULSE_END starts the hammer limit; a report nothing awaits is disregarded (log entry 2) (R67, R68, R69, R70,
R71, R72, R85, R88, R90, R117). -/
def Obligations.MotionReportsLeadToTheHammer : Prop :=
  (∀ (w : WheelMove) (k : Strike) (s : State), s.engine.wheelMove = some w → s.engine.state = .working →
      currentOrder s = some (.strike k) → ∃ t, exec .wheelSettled s = .next t
      ∧ t.engine = { s.engine with
          petal := w.target, wheelMove := none
          hammer := if s.engine.carrierMove = none then .pulse k.energy else s.engine.hammer }
      ∧ eventFrame [.engine] s t)
    ∧ (∀ (c : CarrierMove) (k : Strike) (s : State), s.engine.carrierMove = some c → s.engine.state = .working →
      currentOrder s = some (.strike k) → ∃ t, exec .carrierArrived s = .next t
      ∧ t.engine = { s.engine with
          carrier := c.target, carrierMove := none
          hammer := if s.engine.wheelMove = none then .pulse k.energy else s.engine.hammer }
      ∧ eventFrame [.engine] s t)
    ∧ (∀ (c : CarrierMove) (r : Nat) (e : StrikeEntry) (s : State), s.engine.carrierMove = some c →
      s.engine.state = .working → currentOrder s = some (.lift r e) → s.engine.wheelMove = none →
      ∃ t, exec .carrierArrived s = .next t
      ∧ t.engine = { s.engine with carrier := c.target, carrierMove := none, tapeGuide := .rising 4 }
      ∧ eventFrame [.engine] s t)
    ∧ (∀ (c : CarrierMove) (s : State), s.engine.carrierMove = some c → s.engine.state = .wheelChange →
      ∃ t, exec .carrierArrived s = .next t
      ∧ t.engine = { s.engine with carrier := c.target, carrierMove := none } ∧ eventFrame [.engine] s t)
    ∧ (∀ (n r : Nat) (e : StrikeEntry) (s : State), s.engine.tapeGuide = .rising n →
      currentOrder s = some (.lift r e) →
      exec .tapeRaised s = .next { s with engine := { s.engine with
        tapeGuide := .up, hammer := .pulse (min 12 (e.energy + 2)) } })
    ∧ (∀ (n : Nat) (s : State), s.engine.hammer = .pulse n →
      exec .hammerPulseEnd s = .next { s with engine := { s.engine with hammer := .returning 4 } })
    ∧ (∀ s : State, (s.engine.wheelMove = none → exec .wheelSettled s = .next s)
      ∧ (s.engine.carrierMove = none → exec .carrierArrived s = .next s)
      ∧ (s.engine.hammer = .idle → exec .hammerPulseEnd s = .next s ∧ exec .hammerReturned s = .next s)
      ∧ (s.engine.tapeGuide = .down → exec .tapeRaised s = .next s)
      ∧ (s.engine.platenMove = none → exec .platenStopped s = .next s))
    ∧ (∀ (w : WheelMove) (r : Nat) (e : StrikeEntry) (s : State), s.engine.wheelMove = some w →
      s.engine.state = .working → currentOrder s = some (.lift r e) →
      ∃ t, exec .wheelSettled s = .next t
      ∧ t.engine = { s.engine with
          petal := w.target, wheelMove := none
          tapeGuide := if s.engine.carrierMove = none then .rising 4 else s.engine.tapeGuide }
      ∧ eventFrame [.engine] s t)
    ∧ (∀ (c : CarrierMove) (x : Nat) (j : Job) (rest : List Job) (s : State), s.engine.carrierMove = some c →
      s.engine.state = .working → s.engine.queue = j :: rest → j.started = true → j.orders[j.next]? = some (.move x) →
      let there : Engine := { s.engine with carrier := c.target, carrierMove := none }
      let goneOn : Engine := { there with queue := { j with next := j.next + 1 } :: rest }
      let ended : Engine := { there with queue := [], state := .ready }
      let report (b : Block) (t : State) : Prop := t.restTimer = restLength s.options
        ∧ (j.source = .link ∨ s.line.phase ≠ .checking → t.port j.source = (s.port j.source).notice b)
      ∃ t, exec .carrierArrived s = .next t
      ∧ (∀ o, j.orders[j.next + 1]? = some o → j.cancelled = false →
          o.takesTime { s with engine := there } = true → 0 < s.engine.ribbon →
          t.engine = orderBegun o goneOn ∧ eventFrame [.engine] s t)
      ∧ (∀ o, j.orders[j.next + 1]? = some o → j.cancelled = false → s.engine.ribbon = 0 →
          t.engine = { goneOn with state := .supplyOut } ∧ t.restTimer = none ∧ eventFrame [.engine, .restTimer] s t)
      ∧ (j.cancelled = false → j.orders[j.next + 1]? = none → rest = [] → s.lift.owed = false → j.kind = .stroke →
          j.lineEnding = false →
          t.engine = { ended with tally := s.engine.tally.adding (j.serial.getD 0) j }
            ∧ t.restTimer = restLength s.options ∧ eventFrame [.engine, .restTimer] s t)
      ∧ (j.cancelled = false → j.orders[j.next + 1]? = none → rest = [] → s.lift.owed = false → j.kind = .motion →
          j.relocate = false → t.engine = ended ∧ report (Notice.lineDone 0 0 0) t)
      ∧ (j.cancelled = true → rest = [] → s.lift.owed = false → j.correction = none →
          t.engine = ended ∧ report (Notice.lineCancelled (j.serial.getD 0) j.struck) t))

/-- HAMMER_RETURNED for a Strike that another Strike follows: the ribbon count falls by one, a strike entry with the
order's fields goes to Correction Memory, the strike-seen flag is set, a Main strike counts as struck, and the next
order begins if ribbon is left, else the engine enters SupplyOut; whatever order follows, it begins likewise, Supply
Low at a ribbon count of 500 goes to both ports, and after the last order of a lone Stroke Job the job is summed
into the Direct tally and the engine is Ready; for a Lift that a Feed follows: the tape count falls by one (Supply
Low at 100) and the guide drops, the entry leaves its record, the job counts it and keeps the leftmost position, no
suspect that covers its cell stays, and a Main entry of the Direct-mode line takes its Character cell with it (the
first in position order, should two match: log entry 53) (R73, R88, R95, R105, R118, R120, R141, R67, R68, R69). -/
def Obligations.HammerReturnedRecordsTheStrike : Prop :=
  (∀ (n : Nat) (j : Job) (rest : List Job) (k k' : Strike) (s : State),
    s.engine.hammer = .returning n → s.engine.state = .working → s.engine.queue = j :: rest → j.cancelled = false →
    j.started = true → j.orders[j.next]? = some (.strike k) → j.orders[j.next + 1]? = some (.strike k') →
    ∃ t, exec .hammerReturned s = .next t
    ∧ t.engine.ribbon = s.engine.ribbon - 1 ∧ t.engine.tape = s.engine.tape
    ∧ t.engine.queue = { j with
        next := j.next + 1, struck := if k.pass = .main then j.struck + 1 else j.struck } :: rest
    ∧ t.engine.state = (if s.engine.ribbon ≤ 1 then .supplyOut else .working)
    ∧ t.lift = { s.lift with strikeSeen := true }
    ∧ t.memory = (recordStrike (j.serial.getD 0) j.source s.engine.platen
        { name := 0, position := k.position, width := k.width, rise := k.rise,
          wheelId := (s.engine.petalMap.map (·.wheelId)).getD 0, petal := k.petal, energy := k.energy, code := k.code,
          cell := k.cell, pass := k.pass, liftable := s.engine.ribbonKind == .correctable } s).memory
    ∧ t.engine.platen = s.engine.platen ∧ t.engine.petalMap = s.engine.petalMap
    ∧ changesOnly [.console, .link, .line, .engine, .memory, .lift, .spelling, .store, .display, .tones, .holdTimer,
        .restTimer] s t)
    ∧ (∀ (n : Nat) (j : Job) (rest : List Job) (c : Correction) (r : Nat) (e : StrikeEntry) (d : Int) (s : State),
      s.engine.hammer = .returning n → s.engine.state = .working → s.engine.queue = j :: rest → j.cancelled = false →
      j.started = true → j.correction = some c → j.orders[j.next]? = some (.lift r e) →
      j.orders[j.next + 1]? = some (.feed d) → d ≠ 0 → 0 < s.engine.ribbon →
      let serial := j.serial.getD 0
      let cell := s.line.cells.findIdx? fun x => x.kind == .character && x.code == e.code
        && x.position ≤ e.position + e.width / 2 && e.position + e.width / 2 < x.position + x.width
      ∃ t, exec .hammerReturned s = .next t
      ∧ t.engine = { s.engine with
          tape := s.engine.tape - 1, tapeGuide := .down, hammer := .idle, platenMove := some (.feed d)
          queue := { j with
            next := j.next + 1
            correction := some { c with
              lifted := c.lifted + 1
              leftmost := some (match c.leftmost with | none => e.position | some y => min y e.position) } } :: rest }
      ∧ t.memory = { s.memory with records := s.memory.records.map fun x =>
          if x.name = r then { x with entries := x.entries.filter (·.name != e.name) } else x }
      ∧ t.lift = s.lift
      ∧ t.link = (if s.engine.tape = 101 then s.link.notice (Notice.supplyLow s.engine.ribbon 100) else s.link)
      ∧ (∀ x ∈ t.spelling.suspects ++ t.spelling.printWait,
          ¬ (x.serial = serial ∧ x.first ≤ e.cell ∧ e.cell < x.first + x.count))
      ∧ ((s.line.holder = none ∨ s.line.mode = .line ∨ s.line.serial ≠ serial ∨ e.pass ≠ .main ∨ cell = none) →
          t.line.cells = s.line.cells ∧ t.line.generation = s.line.generation)
      ∧ (∀ i, s.line.holder.isSome = true → s.line.mode = .direct → s.line.serial = serial → e.pass = .main →
          cell = some i →
          t.line.cells = s.line.cells.eraseIdx i
            ∧ t.line.generation = (s.line.generation + 1) % 65536
            ∧ t.line.cursor = (t.line.cells.filter (·.position < s.composer.position)).length)
      ∧ changesOnly [.console, .link, .line, .engine, .memory, .spelling, .store, .display, .tones, .holdTimer] s t)
    ∧ (∀ (n : Nat) (j : Job) (rest : List Job) (k : Strike) (s : State),
      s.engine.hammer = .returning n → s.engine.state = .working → s.engine.queue = j :: rest → j.cancelled = false →
      j.started = true → j.orders[j.next]? = some (.strike k) →
      let serial := j.serial.getD 0
      let after : Job := { j with next := j.next + 1, struck := if k.pass = .main then j.struck + 1 else j.struck }
      let struck : Engine := { s.engine with
        ribbon := s.engine.ribbon - 1, hammer := .idle, queue := after :: rest }
      let entered := (recordStrike serial j.source s.engine.platen
        { name := 0, position := k.position, width := k.width, rise := k.rise,
          wheelId := (s.engine.petalMap.map (·.wheelId)).getD 0, petal := k.petal, energy := k.energy, code := k.code,
          cell := k.cell, pass := k.pass, liftable := s.engine.ribbonKind == .correctable } s).memory
      let low (v : PortState) : PortState :=
        if s.engine.ribbon = 501 then v.notice (Notice.supplyLow 500 s.engine.tape) else v
      let reported (t : State) : Prop := t.link = low s.link ∧ (s.line.phase ≠ .checking → t.console = low s.console)
      ∃ t, exec .hammerReturned s = .next t
      ∧ (∀ o, j.orders[j.next + 1]? = some o → 2 ≤ s.engine.ribbon → o.takesTime { s with engine := struck } = true →
          t.engine = orderBegun o struck ∧ t.memory = entered ∧ t.lift = { s.lift with strikeSeen := true }
            ∧ reported t ∧ t.restTimer = s.restTimer)
      ∧ (∀ o, j.orders[j.next + 1]? = some o → s.engine.ribbon ≤ 1 →
          t.engine = { struck with state := .supplyOut } ∧ t.memory = entered
            ∧ t.lift = { s.lift with strikeSeen := true } ∧ reported t ∧ t.restTimer = none)
      ∧ (j.orders[j.next + 1]? = none → j.kind = .stroke → j.lineEnding = false → rest = [] → s.lift.owed = false →
          t.engine = { struck with queue := [], state := .ready, tally := s.engine.tally.adding serial after }
            ∧ t.memory = entered ∧ t.lift = { s.lift with strikeSeen := true } ∧ reported t
            ∧ t.restTimer = restLength s.options))

/-- A strike that continues the open record, with an entry free, is appended to that record and no other record changes;
with the pool empty and no closed record, it goes unrecorded and the range of the open record widens to cover it. A
strike that does not fit the open record goes to the resume record if it fits that, which becomes the open record;
else a new record opens for it behind the others, the oldest of eight leaving; with no entry free the oldest record
that is not the one the strike goes to leaves, and the next if that freed none, whether the strike continues the
open record, resumes one or opens a new one; with no other record held it goes unrecorded there. A record that
leaves takes the references to it and the suspects of place Record of its serial along. Of the entries of a cell of
a line: none is answered when no record of its serial is held, else the list, in age order of the records and strike
order within, which may be empty; a suspect is on the paper when some entry of a record of its serial carries one of
its cells (R95, R97, R98, R99, R100, R141, R104, R140). -/
def Obligations.StrikeEntryIsAppended : Prop :=
  (∀ (serial : Nat) (source : Port) (platen : Int) (e : StrikeEntry) (name : Nat) (r : LineRecord) (s : State),
    s.memory.openRecord = some name → s.memory.record name = some r → r.serial = serial →
    r.vertical = platen + e.rise →
    (0 < s.freeEntries →
      (recordStrike serial source platen e s).memory = { s.memory with
        records := s.memory.records.map fun x =>
          if x.name = name then { x with entries := x.entries ++ [{ e with name := s.memory.nextEntry }] } else x
        nextEntry := s.memory.nextEntry + 1 })
    ∧ (s.freeEntries = 0 → (∀ x ∈ s.memory.records, x.name = name) →
      (recordStrike serial source platen e s).memory = { s.memory with
        records := s.memory.records.map fun x =>
          if x.name = name then { x with unrecorded := some (match x.unrecorded with
            | none => (e.position, e.position + e.width)
            | some (a, b) => (min a e.position, max b (e.position + e.width))) } else x }))
    ∧ (∀ (serial : Nat) (source : Port) (platen : Int) (e : StrikeEntry) (s : State),
      let u := recordStrike serial source platen e s
      let fits (ref : Option Nat) : Bool := (ref.bind s.memory.record).any fun r =>
        r.serial == serial && r.vertical == platen + e.rise
      let m := s.memory
      let fresh : LineRecord :=
        { name := m.nextRecord, serial := serial, source := source, vertical := platen + e.rise, unrecorded := none,
          entries := [] }
      let struck (name : Nat) (records : List LineRecord) : List LineRecord := records.map fun x =>
        if x.name = name then { x with entries := x.entries ++ [{ e with name := m.nextEntry }] } else x
      let without (r : LineRecord) (records : List LineRecord) : List LineRecord := records.filter (·.name != r.name)
      let cleared (r : LineRecord) (ref : Option Nat) : Option Nat := if ref = some r.name then none else ref
      let kept (r : LineRecord) : List Suspect :=
        s.spelling.suspects.filter fun x => !(x.place == .record && x.serial == r.serial)
      let dropped (r : LineRecord) : State := { s with
        memory := { m with
          records := without r m.records, openRecord := cleared r m.openRecord,
          resumeRecord := cleared r m.resumeRecord, returnRecord := cleared r m.returnRecord },
        spelling := { s.spelling with suspects := kept r } }
      let widened (name : Nat) (records : List LineRecord) : List LineRecord := records.map fun x =>
        if x.name = name then { x with unrecorded := some (match x.unrecorded with
          | none => (e.position, e.position + e.width)
          | some (a, b) => (min a e.position, max b (e.position + e.width))) } else x
      changesOnly [.memory, .spelling] s u
      ∧ u.spelling = { s.spelling with suspects := u.spelling.suspects }
      ∧ (∀ name, m.resumeRecord = some name → fits m.openRecord = false → fits (some name) = true → 0 < s.freeEntries →
          u.memory = { m with
              records := struck name m.records, openRecord := some name, resumeRecord := none
              nextEntry := m.nextEntry + 1 }
            ∧ u.spelling = s.spelling)
      ∧ (fits m.openRecord = false → fits m.resumeRecord = false → m.records.length < 8 → 0 < s.freeEntries →
          u.memory = { m with
              records := struck m.nextRecord (m.records ++ [fresh]), openRecord := some m.nextRecord
              resumeRecord := none, nextRecord := m.nextRecord + 1, nextEntry := m.nextEntry + 1 }
            ∧ u.spelling = s.spelling)
      ∧ (∀ r, m.records.head? = some r → fits m.openRecord = false → fits m.resumeRecord = false → 8 ≤ m.records.length →
          ((without r m.records).map (·.entries.length)).sum < s.partition.pool →
          u.memory = { m with
              records := struck m.nextRecord (without r m.records ++ [fresh]), openRecord := some m.nextRecord
              resumeRecord := none, returnRecord := cleared r m.returnRecord
              nextRecord := m.nextRecord + 1, nextEntry := m.nextEntry + 1 }
            ∧ u.spelling.suspects = kept r)
      ∧ (∀ name, m.openRecord = some name → fits (some name) = true → s.freeEntries = 0 →
          ∀ r, m.records.find? (·.name != name) = some r →
          (((without r m.records).map (·.entries.length)).sum < s.partition.pool →
            u.memory = { m with
                records := struck name (without r m.records), resumeRecord := cleared r m.resumeRecord
                returnRecord := cleared r m.returnRecord, nextEntry := m.nextEntry + 1 }
              ∧ u.spelling.suspects = kept r)
          ∧ (s.partition.pool ≤ ((without r m.records).map (·.entries.length)).sum →
            u = recordStrike serial source platen e { s with
              memory := { m with
                records := without r m.records, resumeRecord := cleared r m.resumeRecord
                returnRecord := cleared r m.returnRecord }
              spelling := { s.spelling with suspects := kept r } }))
      ∧ (∀ r, m.records.head? = some r → fits m.openRecord = false → fits m.resumeRecord = false →
          m.records.length = 8 → u = recordStrike serial source platen e (dropped r))
      ∧ (s.freeEntries = 0 → fits m.openRecord = false → fits m.resumeRecord = false → m.records.length < 8 →
          (∀ r, m.records.find? (·.name != m.nextRecord) = some r →
            u = recordStrike serial source platen e (dropped r))
          ∧ (m.records.find? (·.name != m.nextRecord) = none →
            u.memory = { m with
                records := widened m.nextRecord (m.records ++ [fresh]), openRecord := some m.nextRecord
                resumeRecord := none, nextRecord := m.nextRecord + 1 }
              ∧ u.spelling = s.spelling))
      ∧ (∀ name, m.resumeRecord = some name → s.freeEntries = 0 → fits m.openRecord = false → fits (some name) = true →
          (∀ r, m.records.find? (·.name != name) = some r → u = recordStrike serial source platen e (dropped r))
          ∧ (m.records.find? (·.name != name) = none →
            u.memory = { m with
                records := widened name m.records, openRecord := some name, resumeRecord := none }
              ∧ u.spelling = s.spelling)))
    ∧ (∀ (serial first count : Nat) (s : State),
      (s.memory.entriesOf serial first = none ↔ ∀ r ∈ s.memory.records, r.serial ≠ serial)
      ∧ (∀ entries, s.memory.entriesOf serial first = some entries →
          entries = s.memory.records.flatMap fun r => if r.serial = serial then r.entries.filter (·.cell = first) else [])
      ∧ (s.memory.onPaper serial first count = true ↔ ∃ r ∈ s.memory.records, r.serial = serial
          ∧ ∃ e ∈ r.entries, first ≤ e.cell ∧ e.cell < first + count))

/-- PLATEN_STOPPED for a Feed that a Strike follows: the platen position changes by the count clamped to -64..8191, the
page line count rises to it if it is greater, the open record closes and becomes the resume record, and the next
order begins; a Feed that raises the count to the page length or beyond with the flag clear sets the flag and sends
Page End with the count to the port of the job; the last Feed of a lone Line Job ends it with Line Done of its
serial, struck and dropped, that of a lone Stroke Job adds it to the Direct tally, which a line-ending job reports
and clears, and Line Done of a console line asks for the Done tone; completing the Eject of a lone Form Feed makes a
new top of page, empties Correction Memory, reports Line Done with serial 0 and leaves the engine Ready; the last
Feed of a lone Correction job ends it with Lift Done (Complete), sets the compose position to the leftmost lifted
one for Lift Last, Word and Line while the console is composing in Direct mode, and reopens the target of a Lift
Back; the last Feed of a lone Relocate job restores the record, ends Away, clears the Relocate Point and sets the
compose position when the console then composes in Direct mode (else it stays: log entry 46); with jobs behind it
while Away, the Stroke Jobs of the reopened serial leave and are reported with Line Cancelled after its Line Done,
oldest first (log entry 56), they clear the Direct tally, and the engine goes on with the first job that is left
(R67, R68, R74, R75, R76, R96, R106, R107, R119, R122, R124, R168). -/
def Obligations.PlatenStoppedMovesThePage : Prop :=
  (∀ (n : Int) (j : Job) (rest : List Job) (k : Strike) (s : State),
      s.engine.platenMove = some (.feed n) → s.engine.state = .working → s.engine.queue = j :: rest →
      j.cancelled = false → j.started = true → j.orders[j.next + 1]? = some (.strike k) → 0 < s.engine.ribbon →
      ∃ t, exec .platenStopped s = .next t
      ∧ t.engine.platen = max (-64) (min 8191 (s.engine.platen + n))
      ∧ t.engine.pageLines = max s.engine.pageLines (max (-64) (min 8191 (s.engine.platen + n)))
      ∧ t.engine.queue = { j with next := j.next + 1 } :: rest ∧ t.engine.state = .working
      ∧ t.engine.platenMove = none
      ∧ (∀ name, s.memory.openRecord = some name →
          t.memory = { s.memory with openRecord := none, resumeRecord := some name })
      ∧ (s.memory.openRecord = none → t.memory = s.memory)
      ∧ eventFrame [.engine, .memory, .console, .link] s t)
    ∧ (∀ (j : Job) (s : State), s.engine.platenMove = some .eject → s.engine.queue = [j] → j.kind = .motion →
      j.orders = [.eject] → j.next = 0 → j.started = true → j.cancelled = false → j.relocate = false →
      s.lift.owed = false → ∃ t, exec .platenStopped s = .next t
      ∧ t.engine = { s.engine with
          platen := 0, pageLines := 0, pageEnd := false, platenMove := none, queue := [], state := .ready }
      ∧ t.memory = { s.memory with records := [], openRecord := none, resumeRecord := none, returnRecord := none }
      ∧ t.lift = { s.lift with point := none } ∧ t.restTimer = restLength s.options
      ∧ (j.source = .link → t.link = s.link.notice (Notice.lineDone 0 0 0))
      ∧ (j.source = .console → s.line.phase ≠ .checking → t.console = s.console.notice (Notice.lineDone 0 0 0))
      ∧ changesOnly [.ofPort j.source, .engine, .memory, .lift, .restTimer, .spelling, .store, .line, .console, .tones,
          .display, .holdTimer] s t)
    ∧ (∀ (n : Int) (j : Job) (c : Correction) (s : State),
      s.engine.platenMove = some (.feed n) → s.engine.queue = [j] → j.kind = .correction → j.correction = some c →
      j.started = true → j.cancelled = false → j.orders.length = j.next + 1 → s.lift.owed = false →
      max (-64) (min 8191 (s.engine.platen + n)) ≤ s.engine.pageLines →
      let composing := (s.line.holder = some .console ∧ s.line.mode = .direct)
        ∨ (s.line.phase = .free ∧ s.options.entryMode = .direct)
      ∃ t, exec .platenStopped s = .next t
      ∧ t.engine = { s.engine with
          platen := max (-64) (min 8191 (s.engine.platen + n)), platenMove := none, queue := [], state := .ready }
      ∧ t.restTimer = restLength s.options
      ∧ (j.source = .link ∨ s.line.phase ≠ .checking →
          t.port j.source = (s.port j.source).notice (Notice.liftDone c.command.code 0 c.lifted (c.leftmost.getD 0)))
      ∧ (∀ x, c.leftmost = some x → (c.command = .last ∨ c.command = .word ∨ c.command = .line) → composing →
          t.composer = { s.composer with position := x })
      ∧ ((c.leftmost = none ∨ c.command = .back ∨ c.command = .retract ∨ ¬ composing) → t.composer = s.composer)
      ∧ ((c.command ≠ .back ∨ c.target = none) →
          (∀ name, s.memory.openRecord = some name →
            t.memory = { s.memory with openRecord := none, resumeRecord := some name })
          ∧ (s.memory.openRecord = none → t.memory = s.memory))
      ∧ (∀ name, c.command = .back → c.target = some name → (s.memory.records.any (·.name == name)) = true →
          t.memory = { s.memory with
            openRecord := some name, resumeRecord := none
            returnRecord := match s.memory.openRecord with | some o => some o | none => s.memory.resumeRecord })
      ∧ t.lift = s.lift)
    ∧ (∀ (n : Int) (x : Nat) (j : Job) (s : State),
      s.engine.platenMove = some (.feed n) → s.engine.queue = [j] → j.kind = .motion → j.relocate = true →
      j.source = .console → j.started = true → j.cancelled = false → j.next = 1 → j.orders = [.move x, .feed n] →
      max (-64) (min 8191 (s.engine.platen + n)) ≤ s.engine.pageLines → ∃ t, exec .platenStopped s = .next t
      ∧ t.engine = { s.engine with
          platen := max (-64) (min 8191 (s.engine.platen + n)), platenMove := none, queue := [], state := .ready }
      ∧ t.memory = { s.memory with openRecord := s.memory.returnRecord, resumeRecord := none, returnRecord := none }
      ∧ t.lift.away = false ∧ t.lift.point = none ∧ t.lift.owed = false
      ∧ (s.line.phase ≠ .checking → t.console = s.console.notice (Notice.lineDone 0 0 0))
      ∧ (s.lift.away = true → t.line = .free ∧ t.composer = { s.composer with
          lastHolder := some .console
          position := if s.options.entryMode = .direct then x else s.composer.position })
      ∧ (s.lift.away = false → t.line.cells = s.line.cells ∧ t.line.holder = s.line.holder
          ∧ t.composer = { s.composer with
              position := if (s.line.holder = some .console ∧ s.line.mode = .direct)
                  ∨ (s.line.phase = .free ∧ s.options.entryMode = .direct) then x else s.composer.position }))
    ∧ (∀ (n : Int) (j : Job) (rest : List Job) (o : Order) (s : State),
      s.engine.platenMove = some (.feed n) → s.engine.state = .working → s.engine.queue = j :: rest →
      j.cancelled = false → j.started = true → j.orders[j.next + 1]? = some o → 0 < s.engine.ribbon →
      let p := max (-64) (min 8191 (s.engine.platen + n))
      let ends := s.engine.pageLines < p ∧ s.format.pageLength ≤ p ∧ s.engine.pageEnd = false
      let turned : Engine := { s.engine with
        platen := p, pageLines := max s.engine.pageLines p, pageEnd := s.engine.pageEnd || decide ends,
        platenMove := none, queue := { j with next := j.next + 1 } :: rest }
      o.takesTime { s with engine := turned } = true → ∃ t, exec .platenStopped s = .next t
      ∧ t.engine = orderBegun o turned
      ∧ (ends → (j.source = .link ∨ s.line.phase ≠ .checking) →
          t.port j.source = (s.port j.source).notice (Notice.pageEnd (j.serial.getD 0) p))
      ∧ (ends → eventFrame [.engine, .memory, .ofPort j.source] s t)
      ∧ (¬ ends → eventFrame [.engine, .memory] s t))
    ∧ (∀ (n : Int) (j : Job) (s : State),
      s.engine.platenMove = some (.feed n) → s.engine.state = .working → s.engine.queue = [j] →
      j.cancelled = false → j.started = true → j.orders[j.next + 1]? = none → s.lift.owed = false →
      (j.kind = .line ∨ j.kind = .stroke) → max (-64) (min 8191 (s.engine.platen + n)) ≤ s.engine.pageLines →
      let serial := j.serial.getD 0
      let sums := s.engine.tally.adding serial j
      let reports := j.kind = .line ∨ j.lineEnding = true
      let done := if j.kind = .line then Notice.lineDone serial j.struck j.dropped
        else Notice.lineDone serial sums.struck sums.dropped
      ∃ t, exec .platenStopped s = .next t
      ∧ t.engine = { s.engine with
          platen := max (-64) (min 8191 (s.engine.platen + n)), platenMove := none, queue := [], state := .ready
          tally := if j.kind = .line then s.engine.tally else if j.lineEnding then ⟨0, 0, 0⟩ else sums }
      ∧ t.restTimer = restLength s.options
      ∧ (reports → (j.source = .link ∨ s.line.phase ≠ .checking) →
          t.port j.source = (s.port j.source).notice done)
      ∧ (reports → t.spelling.printing = s.spelling.printing.filter (· ≠ serial))
      ∧ (s.line.phase ≠ .checking → t.tones = (if reports ∧ j.source = .console ∧ serial ≠ 0 ∧ s.options.doneTone = true
          then s.tones.request .done else s.tones))
      ∧ (¬ reports → eventFrame [.engine, .memory, .restTimer] s t))
    ∧ (∀ (n : Int) (x : Nat) (j : Job) (rest : List Job) (s : State),
      s.engine.platenMove = some (.feed n) → s.engine.state = .working → s.engine.queue = j :: rest →
      j.kind = .motion → j.relocate = true → j.source = .console → j.started = true → j.cancelled = false → j.next = 1 →
      j.orders = [.move x, .feed n] → max (-64) (min 8191 (s.engine.platen + n)) ≤ s.engine.pageLines →
      let leaves (i : Job) : Bool := s.lift.away && i.kind == .stroke && i.serial == some s.line.serial
      let gone := rest.filter leaves
      let left := rest.filter (!leaves ·)
      let turned : Engine := { s.engine with
        platen := max (-64) (min 8191 (s.engine.platen + n)), platenMove := none, queue := left
        tally := if gone.isEmpty then s.engine.tally else ⟨0, 0, 0⟩ }
      let settled (t : State) : Prop := t.lift.away = false ∧ t.lift.point = none ∧ t.lift.owed = false
        ∧ (s.lift.away = true → t.line = .free)
        ∧ ((∀ i ∈ gone, i.correction = none) →
          t.memory = { s.memory with openRecord := s.memory.returnRecord, resumeRecord := none, returnRecord := none }
            ∧ (s.lift.away = true → t.composer = { s.composer with
                lastHolder := some .console
                position := if s.options.entryMode = .direct then x else s.composer.position }))
        ∧ (s.line.phase ≠ .checking →
          t.console = (s.console.notice (Notice.lineDone 0 0 0)).afterCancel .console gone
            ∧ t.link = s.link.afterCancel .link gone)
      ∃ t, exec .platenStopped s = .next t
      ∧ (left = [] → t.engine = { turned with state := .ready } ∧ t.restTimer = restLength s.options ∧ settled t)
      ∧ (∀ i, left.head? = some i → i.started = false → i.correction = none → s.engine.ribbon = 0 →
          t.engine = { turned with state := .supplyOut } ∧ t.restTimer = none ∧ settled t)
      ∧ (∀ i, left.head? = some i → i.started = false → i.correction = none → 0 < s.engine.ribbon →
          ∀ o, i.orders[i.next]? = some o → o.takesTime { s with engine := turned } = true →
          t.engine = orderBegun o { turned with queue := { i with started := true } :: left.drop 1 }
            ∧ t.restTimer = none ∧ settled t))

/-- HOME_REACHED puts the carrier at 0 and the wheel seeks its index; INDEX_FOUND puts petal 0 at the print point and,
in a full homing, makes a new top of page; hub 0, or a hub with no table in a Present store that has a Wheel Set,
ends in WheelFault; with the store Starting the table request waits, with it Absent or Faulted the fallback map is
Loaded; with NoWheelSet set in a Present store the fallback map is Loaded too; a hub in the index is read once the
arbiter grants the link; after Wheel Mounted the same, with page and Correction Memory as they were; a wake that
finds the same wheel keeps its map, and one that finds another discards the queue as a console Cancel Printing does
(the jobs reported oldest first: log entry 56), has the map Unloaded, and asks for the new table; HOME_REACHED in
another stage leaves the state alone (log entry 2); the table read for a waiting request ends the homing: Loaded
with the table's map, or WheelFault BadTable when the table does not pass, which it does only with its checksum, the
hub's id and petals in range (R79, R81, R82, R86, R8, R9, R10, R16, R90, R108). -/
def Obligations.HomingFindsCarrierAndWheel : Prop :=
  (∀ (h : Homing) (s : State), s.engine.homing = some h →
      (h.stage = .carrier → exec .homeReached s = .next { s with engine := { s.engine with
        carrier := 0, homing := some { h with stage := .wheel } } })
      ∧ (h.stage ≠ .carrier → exec .homeReached s = .next s))
    ∧ (∀ (hub : BitVec 6) (h : Homing) (s : State), s.engine.homing = some h → h.stage = .wheel → h.full = true →
      ∃ t, exec (.indexFound hub) s = .next t
      ∧ t.engine.petal = 0 ∧ t.engine.platen = 0 ∧ t.engine.pageLines = 0 ∧ t.engine.pageEnd = false
      ∧ t.engine.homingLimit = none ∧ t.engine.carrier = s.engine.carrier ∧ t.memory.records = []
      ∧ t.lift.point = none
      ∧ changesOnly [.console, .link, .line, .composer, .engine, .memory, .lift, .spelling, .store, .display, .tones,
          .holdTimer, .restTimer] s t
      ∧ (hub = 0 → t.engine.state = .wheelFault ∧ t.engine.petalMap = none
          ∧ t.link = s.link.notice (Notice.wheelFault 0 2))
      ∧ (hub ≠ 0 → s.store.state = .starting → t.engine.state = s.engine.state
          ∧ t.engine.petalMap = s.engine.petalMap ∧ t.store.wheelRequest = some hub.toNat)
      ∧ (hub ≠ 0 → (s.store.state = .absent ∨ s.store.state = .faulted) →
          t.engine.petalMap = some (fallbackMap hub.toNat)
            ∧ t.engine.state = (if s.engine.ribbon = 0 then .supplyOut else .ready)
            ∧ t.link = s.link.notice (Notice.wheelLoaded hub.toNat 12) ∧ t.display.live = true)
      ∧ (hub ≠ 0 → s.store.state = .present → s.store.flags.noWheelSet = false → s.store.table hub.toNat = none →
          t.engine.state = .wheelFault ∧ t.engine.petalMap = none
            ∧ t.link = s.link.notice (Notice.wheelFault hub.toNat 0)))
    ∧ (∀ (hub : BitVec 6) (h : Homing) (m : PetalMap) (s : State), s.engine.homing = some h → h.stage = .wheel →
      h.full = false → h.wake = true → s.engine.petalMap = some m → m.wheelId = hub.toNat →
      ∃ t, exec (.indexFound hub) s = .next t
      ∧ t.engine = { s.engine with
          petal := 0, homing := none, homingLimit := none
          state := if s.engine.ribbon = 0 then .supplyOut else .ready }
      ∧ changesOnly [.engine, .line, .composer, .spelling, .store, .console, .tones, .display, .holdTimer,
          .restTimer] s t)
    ∧ (∀ (x : LinkOp) (h : Nat) (bytes : List Byte) (s : State), s.store.link = some x → x.owner = .wheel →
      bytes.length = x.op.answer → s.store.wheelRequest = some h → ∃ t, exec (.storeOpComplete bytes) s = .next t
      ∧ t.engine.homing = none ∧ t.engine.homingLimit = none ∧ t.store.wheelRequest = none ∧ t.display.live = true
      ∧ (∀ m, mapOfTable h bytes = some m → t.engine.petalMap = some m
          ∧ t.engine.state = (if s.engine.ribbon = 0 then .supplyOut else .ready)
          ∧ t.link = s.link.notice ⟨0xAC, [BitVec.ofNat 8 h, BitVec.ofNat 8 m.pitch.code]⟩)
      ∧ (mapOfTable h bytes = none → t.engine.petalMap = none ∧ t.engine.state = .wheelFault
          ∧ t.link = s.link.notice ⟨0xAD, [BitVec.ofNat 8 h, 1]⟩)
      ∧ changesOnly [.console, .link, .line, .composer, .engine, .spelling, .store, .display, .tones, .holdTimer,
          .restTimer] s t)
    ∧ (∀ (h : Nat) (bytes : List Byte) (m : PetalMap), mapOfTable h bytes = some m →
      number (bytes.drop 388) = (bytes.take 388).foldl (fun n b => n + b.toNat) 0 % 4294967296
      ∧ (bytes.head?.map (·.toNat)) = some h ∧ m.wheelId = h
      ∧ 4 ≤ m.spaceWidth ∧ m.spaceWidth ≤ 24
      ∧ (∀ g ∈ m.underscore :: m.glyphs, 0x21 ≤ g.code.toNat ∧ g.code.toNat ≤ 0xFE ∧ g.petal < 96
          ∧ 4 ≤ g.width ∧ g.width ≤ 24 ∧ 1 ≤ g.cls ∧ g.cls ≤ 4)
      ∧ m.glyphs.Pairwise (fun a b => a.code ≠ b.code))
    ∧ (∀ (hub : BitVec 6) (h : Homing) (s : State), s.engine.homing = some h → h.stage = .wheel →
      (h.full = true ∨ h.wake = false) → hub ≠ 0 → s.store.state = .present → ∃ t, exec (.indexFound hub) s = .next t
      ∧ (s.store.flags.noWheelSet = true → t.engine.petalMap = some (fallbackMap hub.toNat)
          ∧ t.engine.homing = none ∧ t.engine.state = (if s.engine.ribbon = 0 then .supplyOut else .ready)
          ∧ (s.spelling.queries = [] → t.link = s.link.notice (Notice.wheelLoaded hub.toNat 12)))
      ∧ (∀ n, s.store.table hub.toNat = some n → ∀ w, s.store.wheelSet = some w → s.store.flags.noWheelSet = false →
          t.engine.state = s.engine.state ∧ t.engine.petalMap = s.engine.petalMap
            ∧ t.engine.homing = some { h with stage := .table } ∧ t.engine.homingLimit = none
            ∧ t.store = { s.store with
                wheelRequest := some hub.toNat
                link := match s.store.link with
                  | some x => some x
                  | none => some { owner := .wheel, op := .straightRead (w.base + 4 + 392 * n) 392, limit := none } }))
    ∧ (∀ (hub : BitVec 6) (h : Homing) (s : State), s.engine.homing = some h → h.stage = .wheel → h.full = false →
      h.wake = false → ∃ t, exec (.indexFound hub) s = .next t
      ∧ t.engine.petal = 0 ∧ t.engine.homingLimit = none ∧ t.engine.carrier = s.engine.carrier
      ∧ t.engine.platen = s.engine.platen ∧ t.engine.pageLines = s.engine.pageLines
      ∧ t.engine.pageEnd = s.engine.pageEnd ∧ t.engine.queue = s.engine.queue
      ∧ changesOnly [.console, .link, .line, .composer, .engine, .spelling, .store, .display, .tones, .holdTimer,
          .restTimer] s t
      ∧ (hub = 0 → t.engine.state = .wheelFault ∧ t.engine.petalMap = none)
      ∧ (hub ≠ 0 → s.store.state = .starting → t.engine.state = s.engine.state
          ∧ t.engine.petalMap = s.engine.petalMap ∧ t.store.wheelRequest = some hub.toNat)
      ∧ (hub ≠ 0 → (s.store.state = .absent ∨ s.store.state = .faulted) →
          t.engine.petalMap = some (fallbackMap hub.toNat)
            ∧ t.engine.state = (if s.engine.ribbon = 0 then .supplyOut else .ready))
      ∧ (hub ≠ 0 → s.store.state = .present → s.store.flags.noWheelSet = false → s.store.table hub.toNat = none →
          t.engine.petalMap = none ∧ t.engine.state = .wheelFault))
    ∧ (∀ (hub : BitVec 6) (h : Homing) (m : PetalMap) (s : State), s.engine.homing = some h → h.stage = .wheel →
      h.full = false → h.wake = true → s.engine.petalMap = some m → m.wheelId ≠ hub.toNat →
      s.engine.state = .homing → s.lift.owed = false → (∀ j ∈ s.engine.queue, j.cancelled = false) →
      let cancelled := s.link.afterCancel .link s.engine.queue
      ∃ t, exec (.indexFound hub) s = .next t
      ∧ t.engine.queue = [] ∧ t.engine.petal = 0 ∧ t.engine.homingLimit = none ∧ t.engine.platen = s.engine.platen
      ∧ t.engine.tally = (if s.engine.queue.any (·.kind == .stroke) then ⟨0, 0, 0⟩ else s.engine.tally)
      ∧ (s.line.holder = some .console → s.line.mode = .direct → s.lift.away = false →
          s.engine.queue.any (fun j => j.kind == .stroke && j.serial == some s.line.serial) = true →
          t.line = .free ∧ t.composer.lastHolder = some .console)
      ∧ (hub = 0 → t.engine.state = .wheelFault ∧ t.engine.petalMap = none
          ∧ t.link = cancelled.notice (Notice.wheelFault 0 2))
      ∧ (hub ≠ 0 → s.store.state = .starting → t.engine.state = .homing ∧ t.engine.petalMap = none
          ∧ t.engine.homing = some { h with stage := .table } ∧ t.store.wheelRequest = some hub.toNat)
      ∧ (hub ≠ 0 → (s.store.state = .absent ∨ s.store.state = .faulted
            ∨ (s.store.state = .present ∧ s.store.flags.noWheelSet = true)) →
          t.engine.petalMap = some (fallbackMap hub.toNat)
            ∧ t.engine.state = (if s.engine.ribbon = 0 then .supplyOut else .ready))
      ∧ (∀ n, s.store.table hub.toNat = some n → ∀ w, s.store.wheelSet = some w → hub ≠ 0 → s.store.state = .present →
          s.store.flags.noWheelSet = false →
          t.engine.state = .homing ∧ t.engine.petalMap = none ∧ t.engine.homing = some { h with stage := .table }
            ∧ t.store.wheelRequest = some hub.toNat
            ∧ (s.store.link = none →
                t.store.link = some { owner := .wheel, op := .straightRead (w.base + 4 + 392 * n) 392, limit := none })))

/-- WHEEL_, CARRIER_, HAMMER_, TAPE_ and HOMING_LIMIT_EXPIRY, while their limit runs, put the engine into Fault: all
motion stopped, the queue empty and every job of it reported to the port it came from, oldest first (log entry 56),
with Line Cancelled (its serial and struck count) or, for a Correction job, Lift Done with outcome Fault (the lifted
count and leftmost position: log entry 54), the tally clear, Away and the Relocate Point gone, then Mechanism Fault
with the cause to both ports; while it does not run they change nothing (log entry 2; the lowered tape guide is log
entry 18) (R70, R71, R72, R79, R117, R89, R126). -/
def Obligations.LimitExpiriesEnterFault : Prop :=
  (∀ (c : Instr) (cause : Byte) (s : State),
      ((c = .wheelLimitExpiry ∧ cause = 1 ∧ s.engine.wheelMove.isSome = true)
        ∨ (c = .carrierLimitExpiry ∧ cause = 0 ∧ s.engine.carrierMove.isSome = true)
        ∨ (c = .hammerLimitExpiry ∧ cause = 0 ∧ ∃ n, s.engine.hammer = .returning n)
        ∨ (c = .tapeLimitExpiry ∧ cause = 0 ∧ ∃ n, s.engine.tapeGuide = .rising n)
        ∨ (c = .homingLimitExpiry ∧ cause = 2 ∧ s.engine.homingLimit.isSome = true)) →
      ∃ t, exec c s = .next t
      ∧ t.engine = { s.engine with
          queue := [], state := .fault, homing := none, homingLimit := none, wheelMove := none, carrierMove := none
          hammer := .idle, tapeGuide := .down, platenMove := none, tally := .clear }
      ∧ t.restTimer = none ∧ t.lift.away = false
      ∧ (s.lift.away = true → t.lift.point = none ∧ t.lift.owed = false)
      ∧ (enabled s.link.enable 0xAB = true → ({ kind := 0xAB, data := [cause] } : Block) ∈ t.link.queue)
      ∧ t.link = (s.link.afterFault .link s.engine.queue).notice ⟨0xAB, [cause]⟩
      ∧ (s.line.phase ≠ .checking →
          t.console = (s.console.afterFault .console s.engine.queue).notice ⟨0xAB, [cause]⟩)
      ∧ (s.line.holder = some .console → s.line.mode = .direct → t.line = .free
          ∧ t.composer.position = s.format.left ∧ t.composer.lastHolder = some .console)
      ∧ changesOnly [.console, .link, .line, .composer, .engine, .memory, .lift, .spelling, .store, .display, .tones,
          .holdTimer, .restTimer] s t)
    ∧ (∀ s : State, (s.engine.wheelMove = none → exec .wheelLimitExpiry s = .next s)
      ∧ (s.engine.carrierMove = none → exec .carrierLimitExpiry s = .next s)
      ∧ ((∀ n, s.engine.hammer ≠ .returning n) → exec .hammerLimitExpiry s = .next s)
      ∧ ((∀ n, s.engine.tapeGuide ≠ .rising n) → exec .tapeLimitExpiry s = .next s)
      ∧ (s.engine.homingLimit = none → exec .homingLimitExpiry s = .next s))

/-- REST_TIMER_EXPIRY in Ready with nothing queued puts the engine to rest (with a job waiting it does not: log entry
16); HOLD_LIMIT_EXPIRY, while the limit runs, ends the held line with cause Forced, Waiting, and tells its holder
with Line Forced; BUSY_LIMIT_EXPIRY while a poll runs completes: the store is Faulted and the link, the start-up,
the save and the wheel request are dropped; with no timer running none of them does anything (log entry 2) (R83,
R27, R28, R15, R8). -/
def Obligations.RestAndHoldExpiries : Prop :=
  (∀ s : State, s.restTimer.isSome = true → s.engine.state = .ready → s.engine.queue = [] →
      ∃ t, exec .restTimerExpiry s = .next t
      ∧ t.engine = { s.engine with state := .resting } ∧ t.restTimer = none
      ∧ changesOnly [.engine, .restTimer, .display, .holdTimer] s t)
    ∧ (∀ s : State, (s.restTimer = none ∨ s.engine.state ≠ .ready ∨ s.engine.queue ≠ []) →
      exec .restTimerExpiry s = .next s)
    ∧ (∀ (p : Port) (s : State), s.holdTimer.isSome = true → s.line.holder = some p →
      ∃ t, exec .holdLimitExpiry s = .next t
      ∧ t.line.phase = .waiting ∧ t.line.endCause = some .forced ∧ t.line.holder = some p
      ∧ t.line.serial = s.line.serial ∧ t.line.cells = s.line.cells ∧ t.line.cursor = s.line.cursor
      ∧ t.holdTimer = none
      ∧ t.port p = (s.port p).notice (Notice.lineForced s.line.serial) ∧ t.port (Port.other p) = s.port (Port.other p)
      ∧ changesOnly [.ofPort p, .line, .spelling, .store, .display, .holdTimer] s t)
    ∧ (∀ s : State, s.holdTimer = none → exec .holdLimitExpiry s = .next s)
    ∧ (∀ (x : LinkOp) (n : Nat) (s : State), s.store.link = some x → x.limit = some n →
      ∃ t, exec .busyLimitExpiry s = .next t
      ∧ t.store = { s.store with state := .faulted, link := none, save := none, startUp := none, wheelRequest := none })
    ∧ (∀ s : State, s.store.polling = false → exec .busyLimitExpiry s = .next s)

/-- STORE_OP_COMPLETE with bytes of the right count: after the reset pair the status read runs under 5 ticks; a rejected
directory header ends the start-up in Absent; the last step of a save ends it with Save Done (Succeeded) to its
issuer; with the wrong count or a free link nothing happens (log entry 5). A passed header leads to the section
entries, these to the accepted sections, the wheel index and the user words, which are loaded only when magic,
checksum, values and order are right, and to Present (a count of 0 still runs its read of 0 bytes: log entry 31; a
count above 1023 discards the list without the read; with no User Area accepted the start-up ends in Present after
the entries or the index). A directory header passes, and a User Area overlaps nothing, exactly by the bytes and
bounds of R4 and R11; a step of a save that is not its last leads to the next. BUSY_LIMIT_EXPIRY while a poll runs
faults the store and fails a save with Save Done (Failed) to its issuer, with none it does nothing (log entry 2;
that a limit runs from the grant is log entry 32) (R1, R2, R3, R4, R5, R6, R7, R11, R12, R14, R15, R147). -/
def Obligations.StoreOperationsGoOn : Prop :=
  (∀ (x : LinkOp) (s : State), s.store.link = some x → x.owner = .startUp → x.op = .resetPair →
      s.store.startUp = some .resetPair → ∃ t, exec (.storeOpComplete []) s = .next t
      ∧ t.store = { s.store with
          startUp := some .recovery, link := some { owner := .startUp, op := .statusRead, limit := some 6 } }
      ∧ eventFrame [.store] s t)
    ∧ (∀ (x : LinkOp) (bytes : List Byte) (s : State), s.store.link = some x → x.owner = .startUp →
      x.op = .straightRead 0 8 → s.store.startUp = some .readHeader → bytes.length = 8 → headerCount bytes = none →
      s.store.wheelRequest = none → s.spelling.queue = [] → s.spelling.queries = [] →
      ∃ t, exec (.storeOpComplete bytes) s = .next t
      ∧ t.store = { s.store with state := .absent, startUp := none, link := none }
      ∧ t.link = s.link.notice (Notice.storeState 2 s.store.flags.byte)
      ∧ changesOnly [.console, .link, .line, .spelling, .store, .display, .tones, .holdTimer] s t
      ∧ t.spelling.userWords = s.spelling.userWords)
    ∧ (∀ (x : LinkOp) (v : Save) (op : StoreOp) (s : State), s.store.link = some x → x.owner = .save → x.op = op →
      op.answer = 0 → s.store.save = some v → v.steps = [op] → ∃ t, exec (.storeOpComplete []) s = .next t
      ∧ t.store.save = none
      ∧ t.store.flags = { s.store.flags with discarded := false, truncated := false }
      ∧ t.store.state = s.store.state ∧ t.spelling.userWords = s.spelling.userWords
      ∧ (v.issuer = .link → t.link = s.link.notice (Notice.saveDone 0))
      ∧ (v.issuer = .console → s.line.phase ≠ .checking → t.console = s.console.notice (Notice.saveDone 0))
      ∧ changesOnly [.console, .link, .line, .spelling, .store, .display, .tones, .holdTimer] s t)
    ∧ (∀ (bytes : List Byte) (s : State), s.store.link = none → exec (.storeOpComplete bytes) s = .next s)
    ∧ (∀ (x : LinkOp) (bytes : List Byte) (s : State), s.store.link = some x → bytes.length ≠ x.op.answer →
      exec (.storeOpComplete bytes) s = .next s)
    ∧ (∀ (x : LinkOp) (n : Nat) (s : State), s.store.link = some x → x.limit = some n →
      ∃ t, exec .busyLimitExpiry s = .next t
      ∧ t.store.state = .faulted ∧ t.store.link = none ∧ t.store.save = none ∧ t.store.startUp = none
      ∧ t.store.flags = s.store.flags ∧ t.spelling.userWords = s.spelling.userWords ∧ t.spelling.queue = []
      ∧ (enabled s.link.enable 0xB2 = true →
          ({ kind := 0xB2, data := [3, s.store.flags.byte] } : Block) ∈ t.link.queue)
      ∧ changesOnly [.console, .link, .line, .composer, .engine, .spelling, .store, .display, .tones, .holdTimer,
          .restTimer] s t)
    ∧ (∀ s : State, s.store.polling = false → exec .busyLimitExpiry s = .next s)
    ∧ (∀ (x : LinkOp) (bytes : List Byte) (s : State), s.store.link = some x → x.owner = .startUp →
      bytes.length = x.op.answer → ∃ t, exec (.storeOpComplete bytes) s = .next t
      ∧ (s.store.startUp = some .recovery → t.store = { s.store with
          startUp := some .setWrap, link := some { owner := .startUp, op := .setWrap, limit := none } })
      ∧ (s.store.startUp = some .setWrap → t.store = { s.store with
          startUp := some .readHeader, link := some { owner := .startUp, op := .straightRead 0 8, limit := none } })
      ∧ (∀ n, s.store.startUp = some .readHeader → headerCount bytes = some n → t.store = { s.store with
          startUp := some .readEntries
          link := some { owner := .startUp, op := .straightRead 8 (12 * n), limit := none } })
      ∧ (∀ y u, s.store.startUp = some .readEntries → examine (rawEntries bytes) .none = .done y →
          y.userArea = some u → overlapFree u y = true → t.store = { s.store with
            lexicon := y.lexicon, wheelSet := none, userArea := some u, wheelIndex := []
            flags := { s.store.flags with noLexicon := y.lexicon.isNone, noWheelSet := true, noUserArea := false }
            startUp := some .userHeader
            link := some { owner := .startUp, op := .straightRead u.base 8, limit := none } })
      ∧ (∀ e y, s.store.startUp = some (.wheelHeader e [] y) → 1 ≤ number bytes → number bytes ≤ 32 →
          4 + 392 * number bytes ≤ e.length →
          t.store.wheelSet = some ⟨e.param, e.base, e.length⟩ ∧ t.store.flags.noWheelSet = false
            ∧ t.store.lexicon = y.lexicon ∧ t.store.wheelIndex = []
            ∧ t.store.startUp = some (.wheelIds 0 (number bytes))
            ∧ t.store.link = some { owner := .startUp, op := .straightRead (e.base + 4) 1, limit := none })
      ∧ (∀ i n w, s.store.startUp = some (.wheelIds i n) → s.store.wheelSet = some w → i + 1 < n →
          t.store = { s.store with
            wheelIndex :=
              if number bytes = 0 ∨ 63 < number bytes ∨ (s.store.wheelIndex.any (·.1 == number bytes)) = true
                then s.store.wheelIndex else s.store.wheelIndex ++ [(number bytes, i)]
            startUp := some (.wheelIds (i + 1) n)
            link := some { owner := .startUp, op := .straightRead (w.base + 4 + 392 * (i + 1)) 1, limit := none } })
      ∧ (∀ u, s.store.startUp = some .userHeader → s.store.userArea = some u → number ((bytes.drop 2).take 2) ≤ 1023 →
          t.store = { s.store with
            startUp := some (.userRecords (number ((bytes.drop 2).take 2)) (number (bytes.drop 4))
              (bytes.take 2 == [0x55, 0x57]))
            link := some { owner := .startUp, limit := none
                           op := .straightRead (u.base + 8) (number ((bytes.drop 2).take 2) * 8) } }))
    ∧ (∀ (x : LinkOp) (n check : Nat) (magic : Bool) (bytes : List Byte) (s : State), s.store.link = some x →
      x.owner = .startUp → bytes.length = x.op.answer → s.store.startUp = some (.userRecords n check magic) →
      s.store.wheelRequest = none → s.spelling.queue = [] → s.spelling.queries = [] →
      let fits := magic = true ∧ bytes.foldl (fun n b => n + b.toNat) 0 % 4294967296 = check
        ∧ (∀ u ∈ userRecords bytes, u.fingerprint ≠ 0 ∧ 2 ≤ u.length ∧ u.length ≤ 24)
        ∧ ascending (userRecords bytes) = true
      ∃ t, exec (.storeOpComplete bytes) s = .next t
      ∧ t.store.state = .present ∧ t.store.startUp = none
      ∧ (fits → t.spelling.userWords = (userRecords bytes).take s.partition.userWords
          ∧ t.store.flags = { s.store.flags with
              truncated := s.store.flags.truncated || decide (s.partition.userWords < (userRecords bytes).length) })
      ∧ (¬ fits → t.spelling.userWords = [] ∧ t.store.flags = { s.store.flags with discarded := true })
      ∧ t.link = s.link.notice ⟨0xB2, [1, t.store.flags.byte]⟩)
    ∧ (∀ (entries : List RawEntry) (y : Examination), examine entries .none = .done y → y.wheelSet = none
      ∧ (∀ l, y.lexicon = some l → ∃ e ∈ entries, e.kind = 1 ∧ l = ⟨e.param, e.base, e.length⟩
          ∧ 8 ≤ e.param ∧ e.param ≤ 16 ∧ e.length = 2 ^ e.param * 32 ∧ e.base % 32 = 0
          ∧ e.base + e.length ≤ 16777216)
      ∧ (∀ u, y.userArea = some u → ∃ e ∈ entries, e.kind = 3 ∧ u = ⟨e.param, e.base, e.length⟩ ∧ e.length = 8192
          ∧ e.base % 4096 = 0 ∧ e.base + e.length ≤ 16777216))
    ∧ (∀ (x : LinkOp) (v : Save) (op next : StoreOp) (more : List StoreOp) (s : State), s.store.link = some x →
      x.owner = .save → x.op = op → op.answer = 0 → s.store.save = some v → v.steps = op :: next :: more →
      s.store.state = .present → s.store.wheelOp = none → ∃ t, exec (.storeOpComplete []) s = .next t
      ∧ t.store = { s.store with
          save := some { v with steps := next :: more }
          link := some { owner := .save, op := next, limit := next.limit } }
      ∧ eventFrame [.store] s t)
    ∧ (∀ (bytes : List Byte),
      (∀ n : Nat, headerCount bytes = some n ↔ bytes.length = 8 ∧ bytes.take 5 = [0x4F, 0x48, 0x4C, 0x53, 0x01]
        ∧ (bytes[6]?).map (·.toNat) = some n ∧ 1 ≤ n ∧ n ≤ 8))
    ∧ (∀ (u : StoreSection) (y : Examination), overlapFree u y = true ↔ 4096 ≤ u.base
      ∧ (∀ l ∈ y.lexicon.toList ++ y.wheelSet.toList, u.base + u.length ≤ l.base ∨ l.base + l.length ≤ u.base))
    ∧ (∀ (x : LinkOp) (n : Nat) (v : Save) (s : State), s.store.link = some x → x.limit = some n →
      s.store.save = some v → ∃ t, exec .busyLimitExpiry s = .next t ∧ t.store.save = none
      ∧ (enabled (s.port v.issuer).enable 0xB1 = true →
          ({ kind := 0xB1, data := [1] } : Block) ∈ (t.port v.issuer).queue))
    ∧ (∀ (x : LinkOp) (bytes : List Byte) (s : State), s.store.link = some x → x.owner = .startUp →
      bytes.length = x.op.answer → s.store.wheelRequest = none → s.store.save = none → s.spelling.queue = [] →
      s.spelling.queries = [] → ∃ t, exec (.storeOpComplete bytes) s = .next t
      ∧ (s.store.startUp = some .userHeader → 1023 < number ((bytes.drop 2).take 2) →
          t.store = { s.store with
              state := .present, startUp := none, link := t.store.link, flags := { s.store.flags with discarded := true } }
            ∧ t.spelling.userWords = [] ∧ t.link = s.link.notice ⟨0xB2, [1, t.store.flags.byte]⟩
            ∧ (s.line.holder = none → t.store.link = none))
      ∧ (∀ y, s.store.startUp = some .readEntries → examine (rawEntries bytes) .none = .done y →
          (∀ u, y.userArea = some u → overlapFree u y = false) →
          t.store = { s.store with
              lexicon := y.lexicon, wheelSet := none, userArea := none, wheelIndex := []
              flags := { s.store.flags with noLexicon := y.lexicon.isNone, noWheelSet := true, noUserArea := true }
              state := .present, startUp := none, link := t.store.link }
            ∧ t.spelling.userWords = s.spelling.userWords
            ∧ t.link = s.link.notice ⟨0xB2, [1, t.store.flags.byte]⟩
            ∧ (s.line.holder = none → t.store.link = none))
      ∧ (∀ i n, s.store.startUp = some (.wheelIds i n) → n ≤ i + 1 →
          (s.store.userArea = none → t.store.state = .present ∧ t.store.startUp = none ∧ t.store.flags = s.store.flags
            ∧ (s.line.holder = none → t.store.link = none))
          ∧ (∀ u, s.store.userArea = some u → t.store.startUp = some .userHeader
            ∧ t.store.link = some { owner := .startUp, op := .straightRead u.base 8, limit := none })))

/-- BLINK_TOGGLE flips the blink phase, starts its 40 ticks again and leaves the image, and with nothing that blinks no
frame follows; FRAME_TRANSFER_END shows the snapshot and, with the dirty flag set, clears it and sends the image as
it then stands; with no transfer in flight it changes nothing (log entry 2). The image, once the start-up has ended
(before it is blank): the column digits hold the column of the compose position by the column scale, or their last
value with the map Unloaded; each annunciator is lit by its condition (WHEEL by its table, out while Homing: log
entry 75) and SPELL blinks with the lexicon unavailable; cells 0 to 27 show a standing overlay, and the rest the
window on the elements, whose start follows the cursor (without the bound 160 of R153: log entry 77). Outside Away the
elements are the cells of the line, with their marks, the blink of the Working suspects and the cursor of the line;
while Away those of the target record, the newest Main entry at each position with a blank in each gap, and the cursor
at the first element that ends past the compose position. A recomposition that changes the image begins a frame or
sets the dirty flag. A frame sends glyph, blank or box, mark and cursor, the annunciators in the blink phase, and
three right-aligned digits (R153, R154, R155,
R156, R157, R158, R159, R160, R161, R162, R64, R165). -/
def Obligations.BlinkAndFrames : Prop :=
  (∀ s : State, ∃ t, exec .blinkToggle s = .next t
      ∧ t.display.blinkOn = !s.display.blinkOn ∧ t.display.blinkTicks = 40 ∧ t.display.image = s.display.image
      ∧ t.display.window = s.display.window ∧ t.display.overlay = s.display.overlay
      ∧ (s.display.image.anyBlink = false →
          t.display.transfer = s.display.transfer ∧ t.display.dirty = s.display.dirty)
      ∧ (s.display.image.anyBlink = true → s.display.transfer = none →
          t.display.transfer = some (frameOf s.display.image (!s.display.blinkOn)))
      ∧ (s.display.image.anyBlink = true → s.display.transfer.isSome = true →
          t.display.transfer = s.display.transfer ∧ t.display.dirty = true)
      ∧ changesOnly [.display] s t)
    ∧ (∀ (f : Frame) (s : State), s.display.transfer = some f → ∃ t, exec .frameTransferEnd s = .next t
      ∧ t.display = { s.display with
          shown := f, dirty := false
          transfer := if s.display.dirty then some (frameOf s.display.image s.display.blinkOn) else none }
      ∧ changesOnly [.display] s t)
    ∧ (∀ s : State, s.display.transfer = none → exec .frameTransferEnd s = .next s)
    ∧ (∀ s : State,
      let img := imageNow s
      let lamp (b : Bool) : Lamp := if b then .lit else .out
      let linkHolds := s.line.holder = some .link
      let spelling := if linkHolds then s.options.linkSpelling else s.options.spelling
      let lexicon := s.store.state = .present ∧ s.store.flags.noLexicon = false
      (s.display.live = false → img = {
          cells := List.replicate 40 { code := none, blink := false, mark := false, cursor := false }
          lamps := ⟨.out, .out, .out, .out, .out, .out, .out, .out⟩
          digits := none })
      ∧ (s.display.live = true →
        (s.engine.petalMap = none → img.digits = some s.display.column)
        ∧ (∀ m, s.engine.petalMap = some m →
          (∀ x ∈ [(PitchClass.ten, (12 : Nat)), (.twelve, 10), (.fifteen, 8)], m.pitch = x.1 →
            img.digits = some (min 156 (s.composer.position / x.2 + 1)))
          ∧ (∀ x ∈ [(Spacing.fixed10, (12 : Nat)), (.fixed12, 10), (.fixed15, 8), (.proportional, 10)],
            m.pitch = .proportional → s.format.spacing = x.1 →
            img.digits = some (min 156 (s.composer.position / x.2 + 1))))
        ∧ (s.line.phase = .free → img.lamps.line = lamp (s.options.entryMode == .line))
        ∧ (s.line.phase ≠ .free → img.lamps.line = lamp (s.line.mode == .line))
        ∧ img.lamps.just = lamp (if linkHolds then s.format.linkJustify else s.format.consoleJustify)
        ∧ (spelling = false → img.lamps.spell = .out)
        ∧ (spelling = true → lexicon → img.lamps.spell = .lit)
        ∧ (spelling = true → ¬ lexicon → img.lamps.spell = .blinking)
        ∧ img.lamps.link = lamp (decide linkHolds) ∧ img.lamps.hold = lamp (s.line.phase == .held)
        ∧ img.lamps.rest = lamp (s.engine.state == .resting)
        ∧ img.lamps.wheel = lamp (s.engine.state == .wheelChange || s.engine.state == .wheelFault)
        ∧ img.lamps.away = lamp s.lift.away))
    ∧ (∀ s : State, s.display.live = true →
      let img := imageNow s
      let start (c : Nat) : Nat :=
        if s.display.window + 35 < c then c - 35 else if c < s.display.window + 4 then c - 4 else s.display.window
      let seen (elements : List (Option Byte × Bool × Bool)) (c k : Nat) : DisplayCell :=
        match elements[start c + k]? with
        | some e => { code := e.1, blink := e.2.1, mark := e.2.2, cursor := start c + k == c }
        | none => { code := none, blink := false, mark := false, cursor := start c + k == c }
      let shows (elements : List (Option Byte × Bool × Bool)) (c : Nat) : Prop :=
        img.cells.length = 40 ∧ ∀ k < 40, img.cells[k]? = some (match s.display.overlay with
          | none => seen elements c k
          | some o => if 28 ≤ k then seen elements c k else
              { code := match o.text[k]? with | some b => if b = 0x20 then none else some b | none => none
                blink := false, mark := false, cursor := false })
      let named (x : Suspect) (place : Place) (serial i : Nat) : Bool :=
        x.place == place && x.serial == serial && x.first ≤ i && i < x.first + x.count
      (s.lift.away = false → s.line.phase = .free → shows [] 0)
      ∧ (s.lift.away = false → s.line.phase ≠ .free →
          shows (s.line.cells.zipIdx.map fun c =>
            (if c.1.kind = .character then some c.1.code else none,
              s.spelling.suspects.any (named · .working s.line.serial c.2),
              c.1.underline && c.1.kind != .tab)) s.line.cursor)
      ∧ (s.lift.away = true → (∀ r ∈ s.memory.records, some r.name ≠ s.lift.target ∧ r.serial ≠ s.line.serial) →
          shows [] 0)
      ∧ (∀ r, s.memory.records.find? (fun r => some r.name == s.lift.target) = some r → s.lift.away = true →
          ∃ mains : List StrikeEntry, mains.Pairwise (fun a b => a.position < b.position)
            ∧ (∀ e ∈ mains, (r.entries.filter fun y => y.pass == .main && y.position == e.position).getLast? = some e)
            ∧ (∀ y ∈ r.entries, y.pass = .main → ∃ e ∈ mains, e.position = y.position)
            ∧ (let gap (i stop : Nat) : List Nat :=
                 match mains[i]? with | some y => if stop < y.position then [y.position] else [] | none => []
               let stops := mains.zipIdx.flatMap fun e =>
                 (e.1.position + e.1.width) :: gap (e.2 + 1) (e.1.position + e.1.width)
               shows (mains.zipIdx.flatMap fun e =>
                   (some e.1.code,
                     s.spelling.suspects.any (named · .record r.serial e.1.cell),
                     r.entries.any fun u => u.pass == .underscore && u.position < e.1.position + e.1.width
                       && e.1.position < u.position + u.width && 0 < u.width && 0 < e.1.width)
                   :: (gap (e.2 + 1) (e.1.position + e.1.width)).map fun _ => (none, false, false))
                 ((stops.findIdx? (s.composer.position < ·)).getD stops.length))))
    ∧ (∀ s : State,
      let d := displayNow s
      d.image = imageNow s ∧ d.blinkOn = s.display.blinkOn ∧ d.overlay = s.display.overlay
        ∧ (d.image = s.display.image → d.transfer = s.display.transfer ∧ d.dirty = s.display.dirty)
        ∧ (d.image ≠ s.display.image → s.display.transfer = none →
            d.transfer = some (frameOf d.image d.blinkOn) ∧ d.dirty = s.display.dirty)
        ∧ (d.image ≠ s.display.image → s.display.transfer.isSome = true →
            d.transfer = s.display.transfer ∧ d.dirty = true))
    ∧ (∀ (img : Image) (on : Bool),
      let sent := frameOf img on
      let lit (l : Lamp) : Bool := l == .lit || (l == .blinking && on)
      sent.cells.map (·.mark) = img.cells.map (·.mark) ∧ sent.cells.map (·.cursor) = img.cells.map (·.cursor)
        ∧ (∀ i < img.cells.length, ∀ c, img.cells[i]? = some c → ∃ x, sent.cells[i]? = some x
          ∧ (c.code = none ∨ (c.blink = true ∧ on = false) → x.shape = .blank)
          ∧ (∀ b, c.code = some b → (c.blink = false ∨ on = true) →
            (b.toNat ≤ 0x7E → x.shape = .glyph b)
            ∧ (0x7E < b.toNat → ∀ y, fold b = some y → x.shape = .glyph y)
            ∧ (0x7E < b.toNat → fold b = none → x.shape = .box)))
        ∧ sent.lamps = [lit img.lamps.line, lit img.lamps.just, lit img.lamps.spell, lit img.lamps.link,
            lit img.lamps.hold, lit img.lamps.rest, lit img.lamps.wheel, lit img.lamps.away]
        ∧ (img.digits = none → sent.digits = [none, none, none])
        ∧ (∀ v, img.digits = some v →
          (v < 10 → sent.digits = [none, none, some v])
          ∧ (10 ≤ v → v < 100 → sent.digits = [none, some (v / 10), some (v % 10)])
          ∧ (100 ≤ v → v < 1000 → sent.digits = [some (v / 100), some (v / 10 % 10), some (v % 10)])))

/-- COMPOSE_STROKE of the other strokes: in Direct mode Space (struck with its underscores when underlined; over a held
cell they carry the index of that cell: log entry 69), Backspace, Tab, Index, Margin Release and Return, with the job
and the compose position of the table of R29 or its refusal (a Space past the platen end with 160 cells is refused
with Margin: log entry 48); in Line mode Delete, which drops the lookups and the Working suspects of the line and
divides its word list anew, the cursor moves, Center, Margin Release, Return (at which the hold limit timer stops, so
that a line Held at once has its full length) and the refused Backspace and Index, and a Character that wraps, in
Composing or in Held (the cut line's cursor at its end: log entry 60; at 160 cells too: log entry 71) or is refused
with Margin, for want of a wrap Space (the last Space after the last Tab with a Character between) or because the
carry would not fit; in Held a Return (no word still Unchecked is tried at it: log entry 76), the cursor moves and the
strokes that return the line to Composing (its end cause stays until the next end: log entry 47). A line in Checking
after a Return or a lookup has its word results tested: Held with Line Held and the Refuse tone when all are settled
and one is Suspect, Waiting when none is; the word that a closing hyphen leaves as a fragment is left out of the test
(R143; that it may be settled or Suspect already: log entry 24) (R27, R29, R30, R31, R32, R34, R37, R39, R41, R143, R145, R146). -/
def Obligations.OtherStrokesAndLineEnds : Prop :=
  (∀ (k : Stroke) (rest : List Stroke) (m : PetalMap) (s : State),
    s.line.phase = .composing → s.line.holder = some .console → s.line.mode = .direct →
    s.composer.consoleRing = k :: rest → s.engine.petalMap = some m →
    s.engine.queue.length < 4 → s.engine.state ≠ .fault →
    let x := s.composer.position
    let w := spaceWidth s.format m
    let held := s.line.cells.findIdx? (·.position == x)
    let index := (s.line.cells.filter (·.position < x)).length
    let job (orders : List Order) : Job := { Job.empty .stroke .console with serial := some s.line.serial, orders := orders }
    ∃ t, exec .composeStroke s = .next t
    ∧ (k.kind = .space → k.underline = false → x + w ≤ 1560 → (held.isSome = true ∨ s.line.cells.length < 160) →
        t.engine.queue = s.engine.queue ++ [job [.move (x + w)]]
          ∧ t.composer = { s.composer with consoleRing := rest, position := x + w }
          ∧ t.line.cells = (if held.isSome then s.line.cells else s.line.cells.take index
              ++ newCell s.line.cells .space 0x20 k x w :: s.line.cells.drop index))
    ∧ (k.kind = .space → k.underline = true → x + w ≤ 1560 → (held.isSome = true ∨ s.line.cells.length < 160) →
        let strikes := underscoreStrikes s.format m s.line.rise (held.getD index) x w
        t.engine.queue = s.engine.queue ++ [{ job (match strikes.filter fun z => z.position + z.width ≤ 1560 with
              | [] => [.move (x + w)]
              | kept => kept.map .strike) with
            dropped := if strikes.all fun z => z.position + z.width ≤ 1560 then 0 else 1 }]
          ∧ t.composer = { s.composer with consoleRing := rest, position := x + w }
          ∧ t.line.cells = (if held.isSome then s.line.cells else s.line.cells.take index
              ++ newCell s.line.cells .space 0x20 k x w :: s.line.cells.drop index))
    ∧ (∀ x', ((k.kind = .function .tab ∧ s.format.tabs.find? (x < ·) = some x')
          ∨ (k.kind = .function .backspace ∧ (∀ c ∈ s.line.cells, c.position + c.width ≠ x) ∧ x' = x - w)
          ∨ (k.kind = .function .backspace ∧ ∃ c ∈ s.line.cells, c.position + c.width = x ∧ x' = x - c.width
              ∧ ∀ b ∈ s.line.cells, b.position + b.width = x → b ≠ c → b.stamp < c.stamp)) →
        t.engine.queue = s.engine.queue ++ [job [.move x']]
          ∧ t.composer = { s.composer with consoleRing := rest, position := x' } ∧ t.line.cells = s.line.cells)
    ∧ (∀ up : Bool, k.kind = .function (if up then .indexUp else .indexDown) →
        let rise : Int := if up then s.line.rise + 1 else s.line.rise - 1
        (-4 ≤ rise ∧ rise ≤ 4) →
        t.engine.queue = s.engine.queue ++ [job [.feed (if up then -1 else 1)]]
          ∧ t.line = { s.line with rise := rise }
          ∧ t.composer = { s.composer with consoleRing := rest })
    ∧ (k.kind = .function .marginRelease →
        t.engine = s.engine ∧ t.line = { s.line with marginRelease := true }
          ∧ t.composer = { s.composer with consoleRing := rest })
    ∧ (k.kind = .function .carriageReturn → s.lift.away = false →
        t.engine.queue = s.engine.queue ++ [{ job [.move s.format.left, .feed (s.format.lineSpacing + s.line.rise)] with
            lineEnding := true }]
          ∧ t.line = .free
          ∧ t.composer = { s.composer with
              consoleRing := rest, lastHolder := some .console, position := s.format.left }
          ∧ s.line.serial ∈ t.spelling.printing)
    ∧ (∀ st : Status, ((k.kind = .space ∧ 1560 < x + w ∧ st = .margin)
          ∨ (k.kind = .space ∧ x + w ≤ 1560 ∧ held = none ∧ 160 ≤ s.line.cells.length ∧ st = .full)
          ∨ (k.kind = .function .tab ∧ (∀ y ∈ s.format.tabs, y ≤ x) ∧ st = .range)
          ∨ (k.kind = .function .indexUp ∧ 4 < s.line.rise + 1 ∧ st = .range)
          ∨ (k.kind = .function .indexDown ∧ s.line.rise - 1 < -4 ∧ st = .range)
          ∨ (k.kind = .function .carriageReturn ∧ s.lift.away = true ∧ st = .away)
          ∨ ((k.kind = .function .center ∨ k.kind = .function .delete ∨ k.kind = .function .cursorLeft
              ∨ k.kind = .function .cursorRight) ∧ st = .notInMode)) →
        t.engine = s.engine ∧ t.line = s.line ∧ t.tones = s.tones.request .refuse
          ∧ t.composer = { s.composer with
              consoleRing := rest
              consoleRefusals := { code := some st, count := min 255 (s.composer.consoleRefusals.count + 1) } })
    ∧ changesOnly [.composer, .engine, .line, .spelling, .store, .display, .tones, .holdTimer, .restTimer] s t)
    ∧ (∀ (p : Port) (k : Stroke) (rest : List Stroke) (m : PetalMap) (s : State),
    (s.line.phase = .composing ∨ s.line.phase = .held) → s.line.holder = some p → s.line.mode = .line →
    (s.lift.away = false ∨ p = .console) → s.composer.ring p = k :: rest → s.engine.petalMap = some m →
    ∃ t, exec .composeStroke s = .next t
    ∧ (k.kind = .function .delete → 0 < s.line.cursor → s.line.cursor ≤ s.line.cells.length →
        t.line.cells.map (·.content) = (s.line.cells.eraseIdx (s.line.cursor - 1)).map (·.content)
          ∧ t.line.cursor = s.line.cursor - 1 ∧ t.line.generation = (s.line.generation + 1) % 65536
          ∧ editedSpelling s t)
    ∧ (k.kind = .function .delete → s.line.cursor = 0 →
        t.line = { s.line with phase := .composing } ∧ t.composer = s.composer.setRing p rest ∧ t.tones = s.tones)
    ∧ ((k.kind = .function .cursorLeft ∨ k.kind = .function .cursorRight) →
        t.line.cursor = (if k.kind = .function .cursorLeft then s.line.cursor - 1
            else min s.line.cells.length (s.line.cursor + 1))
          ∧ t.line.cells = layFrom s.format m s.format.left s.line.cells
          ∧ t.composer.position = positionAt s.format.left t.line.cells t.line.cursor
          ∧ t.line.phase = s.line.phase ∧ t.tones = s.tones)
    ∧ (k.kind = .function .center → t.line = { s.line with phase := .composing, center := true })
    ∧ (k.kind = .function .marginRelease → t.line = { s.line with phase := .composing, marginRelease := true })
    ∧ ((k.kind = .function .backspace ∨ k.kind = .function .indexUp ∨ k.kind = .function .indexDown) →
        t.line = { s.line with phase := .composing }
          ∧ t.composer.refusals p =
              { code := some .notInMode, count := min 255 ((s.composer.refusals p).count + 1) }
          ∧ t.tones = s.tones.request .refuse)
    ∧ (k.kind = .function .carriageReturn → s.line.phase = .held → t.line = { s.line with phase := .waiting })
    ∧ (k.kind = .function .carriageReturn → s.line.phase = .composing →
        t.line.cells = s.line.cells ∧ t.line.endCause = some .carriageReturn ∧ t.line.holder = some p
          ∧ (¬ (p = .console ∧ s.options.spellHold = true ∧ s.options.spelling = true) → t.line.phase = .waiting)
          ∧ (p = .console → s.options.spellHold = true → s.options.spelling = true →
              t.line.phase =
                (if (awaitedWords t).all (·.settled) then
                  (if (awaitedWords t).any (·.status == .suspect) then .held else .waiting) else .checking)))
    ∧ (t.engine = s.engine ∧ t.composer.ring p = rest ∧ t.composer.ring (Port.other p) = s.composer.ring (Port.other p))
    ∧ (k.kind = .function .carriageReturn → s.line.phase = .composing → t.holdTimer = holdNow { t with holdTimer := none })
    ∧ (¬ (k.kind = .function .carriageReturn ∧ s.line.phase = .composing) → holdFollows s t)
    ∧ changesOnly [.composer, .line, .spelling, .store, .console, .display, .tones, .holdTimer] s t)
    ∧ (∀ (p : Port) (code : Byte) (k : Stroke) (rest : List Stroke) (m : PetalMap) (i : Nat) (s : State),
    (s.line.phase = .composing ∨ s.line.phase = .held) → s.line.holder = some p → s.line.mode = .line → (s.lift.away = false ∨ p = .console) →
    s.composer.ring p = k :: rest → k.kind = .character code → s.engine.petalMap = some m →
    s.line.cursor = s.line.cells.length → s.line.marginRelease = false → s.format.wrapOf p = true →
    s.format.right < extentOf s.format.left (layFrom s.format m s.format.left
      (s.line.cells ++ [newCell s.line.cells .character code k 0 0])) →
    wrapSpace s.line.cells = some i →
    let carry := layFrom s.format m s.format.left
      (s.line.cells.drop (i + 1) ++ [newCell s.line.cells .character code k 0 0])
    ∃ t, exec .composeStroke s = .next t
    ∧ ((s.line.cells[i]?).map (·.kind) = some .space ∧ ∀ c ∈ s.line.cells.drop i, c.kind ≠ .tab)
    ∧ (s.format.right < extentOf s.format.left carry →
        t.line = { s.line with phase := .composing } ∧ (t.composer.refusals p).code = some .margin
          ∧ t.tones = s.tones.request .refuse)
    ∧ (extentOf s.format.left carry ≤ s.format.right →
        t.line.phase = .waiting ∧ t.line.endCause = some .wrap ∧ t.line.carry = some carry
          ∧ (∃ spaces, (s.line.cells.take i).map (·.content) = t.line.cells.map (·.content) ++ spaces
              ∧ ∀ x ∈ spaces, x.1 = .space)
          ∧ (t.line.cells.getLast?.map (·.kind)) ≠ some .space
          ∧ t.line.cursor = t.line.cells.length ∧ t.line.holder = some p ∧ t.line.serial = s.line.serial)
    ∧ t.engine = s.engine ∧ t.composer.ring p = rest)
    ∧ (∀ (x : LinkOp) (bytes : List Byte) (s : State), s.store.link = some x → x.owner = .lookup →
    bytes.length = x.op.answer → s.line.phase = .checking → ∃ t, exec (.storeOpComplete bytes) s = .next t
    ∧ t.line.phase =
        (if (awaitedWords t).all (·.settled) then
          (if (awaitedWords t).any (·.status == .suspect) then .held else .waiting) else .checking)
    ∧ (t.line.phase = .held → enabled s.console.enable 0xA4 = true →
        ({ kind := 0xA4, data := two s.line.serial
            ++ [BitVec.ofNat 8 (t.line.words.filter (·.status == .suspect)).length] } : Block) ∈ t.console.queue)
    ∧ (t.line.phase = .held → ∃ y, t.tones.sounding = some y ∧ y.tone = .refuse))
    ∧ (∀ (p : Port) (code : Byte) (k : Stroke) (rest : List Stroke) (m : PetalMap) (s : State),
    (s.line.phase = .composing ∨ s.line.phase = .held) → s.line.holder = some p → s.line.mode = .line →
    (s.lift.away = false ∨ p = .console) → s.composer.ring p = k :: rest → k.kind = .character code →
    s.engine.petalMap = some m → s.line.cursor = s.line.cells.length → s.line.marginRelease = false →
    s.format.wrapOf p = true →
    s.format.right < extentOf s.format.left (layFrom s.format m s.format.left
      (s.line.cells ++ [newCell s.line.cells .character code k 0 0])) →
    wrapSpace s.line.cells = none →
    ∃ t, exec .composeStroke s = .next t
    ∧ t.line = { s.line with phase := .composing } ∧ t.engine = s.engine ∧ t.tones = s.tones.request .refuse
    ∧ t.composer.ring p = rest
    ∧ t.composer.refusals p = { code := some .margin, count := min 255 ((s.composer.refusals p).count + 1) }
    ∧ changesOnly [.composer, .line, .spelling, .store, .display, .tones, .holdTimer] s t)
    ∧ (∀ (cells : List Cell) (i : Nat), wrapSpace cells = some i ↔
      (cells[i]?.map (·.kind)) = some .space ∧ (∀ c ∈ cells.drop (i + 1), c.kind = .character)
        ∧ ∃ j < i, (cells[j]?.map (·.kind)) = some .character ∧ ∀ c ∈ (cells.take i).drop j, c.kind ≠ .tab)
end

