-- ==== Sys2Proof/Laws/State.lean ====
section
/-! SUPPORT. The fields that each small update of State leaves alone: one lemma per field per update, so that no proof
unfolds a record update. -/

namespace Sys2Proof.Machine

/-! ### State.setPort -/

@[simp] theorem State.setPort_options (s : State) (p : Port) (v : PortState) : (s.setPort p v).options = s.options := by cases p <;> rfl
@[simp] theorem State.setPort_partition (s : State) (p : Port) (v : PortState) : (s.setPort p v).partition = s.partition := by cases p <;> rfl
@[simp] theorem State.setPort_format (s : State) (p : Port) (v : PortState) : (s.setPort p v).format = s.format := by cases p <;> rfl
@[simp] theorem State.setPort_line (s : State) (p : Port) (v : PortState) : (s.setPort p v).line = s.line := by cases p <;> rfl
@[simp] theorem State.setPort_composer (s : State) (p : Port) (v : PortState) : (s.setPort p v).composer = s.composer := by cases p <;> rfl
@[simp] theorem State.setPort_engine (s : State) (p : Port) (v : PortState) : (s.setPort p v).engine = s.engine := by cases p <;> rfl
@[simp] theorem State.setPort_memory (s : State) (p : Port) (v : PortState) : (s.setPort p v).memory = s.memory := by cases p <;> rfl
@[simp] theorem State.setPort_lift (s : State) (p : Port) (v : PortState) : (s.setPort p v).lift = s.lift := by cases p <;> rfl
@[simp] theorem State.setPort_spelling (s : State) (p : Port) (v : PortState) : (s.setPort p v).spelling = s.spelling := by cases p <;> rfl
@[simp] theorem State.setPort_store (s : State) (p : Port) (v : PortState) : (s.setPort p v).store = s.store := by cases p <;> rfl
@[simp] theorem State.setPort_display (s : State) (p : Port) (v : PortState) : (s.setPort p v).display = s.display := by cases p <;> rfl
@[simp] theorem State.setPort_tones (s : State) (p : Port) (v : PortState) : (s.setPort p v).tones = s.tones := by cases p <;> rfl
@[simp] theorem State.setPort_holdTimer (s : State) (p : Port) (v : PortState) : (s.setPort p v).holdTimer = s.holdTimer := by cases p <;> rfl
@[simp] theorem State.setPort_restTimer (s : State) (p : Port) (v : PortState) : (s.setPort p v).restTimer = s.restTimer := by cases p <;> rfl
@[simp] theorem State.setPort_pending (s : State) (p : Port) (v : PortState) : (s.setPort p v).pending = s.pending := by cases p <;> rfl

/-! ### State.notice -/

@[simp] theorem State.notice_options (s : State) (p : Port) (b : Block) : (s.notice p b).options = s.options := by cases p <;> rfl
@[simp] theorem State.notice_partition (s : State) (p : Port) (b : Block) : (s.notice p b).partition = s.partition := by cases p <;> rfl
@[simp] theorem State.notice_format (s : State) (p : Port) (b : Block) : (s.notice p b).format = s.format := by cases p <;> rfl
@[simp] theorem State.notice_line (s : State) (p : Port) (b : Block) : (s.notice p b).line = s.line := by cases p <;> rfl
@[simp] theorem State.notice_composer (s : State) (p : Port) (b : Block) : (s.notice p b).composer = s.composer := by cases p <;> rfl
@[simp] theorem State.notice_engine (s : State) (p : Port) (b : Block) : (s.notice p b).engine = s.engine := by cases p <;> rfl
@[simp] theorem State.notice_memory (s : State) (p : Port) (b : Block) : (s.notice p b).memory = s.memory := by cases p <;> rfl
@[simp] theorem State.notice_lift (s : State) (p : Port) (b : Block) : (s.notice p b).lift = s.lift := by cases p <;> rfl
@[simp] theorem State.notice_spelling (s : State) (p : Port) (b : Block) : (s.notice p b).spelling = s.spelling := by cases p <;> rfl
@[simp] theorem State.notice_store (s : State) (p : Port) (b : Block) : (s.notice p b).store = s.store := by cases p <;> rfl
@[simp] theorem State.notice_display (s : State) (p : Port) (b : Block) : (s.notice p b).display = s.display := by cases p <;> rfl
@[simp] theorem State.notice_tones (s : State) (p : Port) (b : Block) : (s.notice p b).tones = s.tones := by cases p <;> rfl
@[simp] theorem State.notice_holdTimer (s : State) (p : Port) (b : Block) : (s.notice p b).holdTimer = s.holdTimer := by cases p <;> rfl
@[simp] theorem State.notice_restTimer (s : State) (p : Port) (b : Block) : (s.notice p b).restTimer = s.restTimer := by cases p <;> rfl
@[simp] theorem State.notice_pending (s : State) (p : Port) (b : Block) : (s.notice p b).pending = s.pending := by cases p <;> rfl

/-! ### State.noticeBoth -/

@[simp] theorem State.noticeBoth_options (s : State) (b : Block) : (s.noticeBoth b).options = s.options := rfl
@[simp] theorem State.noticeBoth_partition (s : State) (b : Block) : (s.noticeBoth b).partition = s.partition := rfl
@[simp] theorem State.noticeBoth_format (s : State) (b : Block) : (s.noticeBoth b).format = s.format := rfl
@[simp] theorem State.noticeBoth_line (s : State) (b : Block) : (s.noticeBoth b).line = s.line := rfl
@[simp] theorem State.noticeBoth_composer (s : State) (b : Block) : (s.noticeBoth b).composer = s.composer := rfl
@[simp] theorem State.noticeBoth_engine (s : State) (b : Block) : (s.noticeBoth b).engine = s.engine := rfl
@[simp] theorem State.noticeBoth_memory (s : State) (b : Block) : (s.noticeBoth b).memory = s.memory := rfl
@[simp] theorem State.noticeBoth_lift (s : State) (b : Block) : (s.noticeBoth b).lift = s.lift := rfl
@[simp] theorem State.noticeBoth_spelling (s : State) (b : Block) : (s.noticeBoth b).spelling = s.spelling := rfl
@[simp] theorem State.noticeBoth_store (s : State) (b : Block) : (s.noticeBoth b).store = s.store := rfl
@[simp] theorem State.noticeBoth_display (s : State) (b : Block) : (s.noticeBoth b).display = s.display := rfl
@[simp] theorem State.noticeBoth_tones (s : State) (b : Block) : (s.noticeBoth b).tones = s.tones := rfl
@[simp] theorem State.noticeBoth_holdTimer (s : State) (b : Block) : (s.noticeBoth b).holdTimer = s.holdTimer := rfl
@[simp] theorem State.noticeBoth_restTimer (s : State) (b : Block) : (s.noticeBoth b).restTimer = s.restTimer := rfl
@[simp] theorem State.noticeBoth_pending (s : State) (b : Block) : (s.noticeBoth b).pending = s.pending := rfl

/-! ### State.reply -/

@[simp] theorem State.reply_options (s : State) (p : Port) (code : Byte) (r : Reply) : (s.reply p code r).options = s.options := by cases p <;> rfl
@[simp] theorem State.reply_partition (s : State) (p : Port) (code : Byte) (r : Reply) : (s.reply p code r).partition = s.partition := by cases p <;> rfl
@[simp] theorem State.reply_format (s : State) (p : Port) (code : Byte) (r : Reply) : (s.reply p code r).format = s.format := by cases p <;> rfl
@[simp] theorem State.reply_line (s : State) (p : Port) (code : Byte) (r : Reply) : (s.reply p code r).line = s.line := by cases p <;> rfl
@[simp] theorem State.reply_composer (s : State) (p : Port) (code : Byte) (r : Reply) : (s.reply p code r).composer = s.composer := by cases p <;> rfl
@[simp] theorem State.reply_engine (s : State) (p : Port) (code : Byte) (r : Reply) : (s.reply p code r).engine = s.engine := by cases p <;> rfl
@[simp] theorem State.reply_memory (s : State) (p : Port) (code : Byte) (r : Reply) : (s.reply p code r).memory = s.memory := by cases p <;> rfl
@[simp] theorem State.reply_lift (s : State) (p : Port) (code : Byte) (r : Reply) : (s.reply p code r).lift = s.lift := by cases p <;> rfl
@[simp] theorem State.reply_spelling (s : State) (p : Port) (code : Byte) (r : Reply) : (s.reply p code r).spelling = s.spelling := by cases p <;> rfl
@[simp] theorem State.reply_store (s : State) (p : Port) (code : Byte) (r : Reply) : (s.reply p code r).store = s.store := by cases p <;> rfl
@[simp] theorem State.reply_display (s : State) (p : Port) (code : Byte) (r : Reply) : (s.reply p code r).display = s.display := by cases p <;> rfl
@[simp] theorem State.reply_tones (s : State) (p : Port) (code : Byte) (r : Reply) : (s.reply p code r).tones = s.tones := by cases p <;> rfl
@[simp] theorem State.reply_holdTimer (s : State) (p : Port) (code : Byte) (r : Reply) : (s.reply p code r).holdTimer = s.holdTimer := by cases p <;> rfl
@[simp] theorem State.reply_restTimer (s : State) (p : Port) (code : Byte) (r : Reply) : (s.reply p code r).restTimer = s.restTimer := by cases p <;> rfl
@[simp] theorem State.reply_pending (s : State) (p : Port) (code : Byte) (r : Reply) : (s.reply p code r).pending = s.pending := by cases p <;> rfl

/-! ### State.tone -/

@[simp] theorem State.tone_console (s : State) (name : ToneName) : (s.tone name).console = s.console := rfl
@[simp] theorem State.tone_link (s : State) (name : ToneName) : (s.tone name).link = s.link := rfl
@[simp] theorem State.tone_options (s : State) (name : ToneName) : (s.tone name).options = s.options := rfl
@[simp] theorem State.tone_partition (s : State) (name : ToneName) : (s.tone name).partition = s.partition := rfl
@[simp] theorem State.tone_format (s : State) (name : ToneName) : (s.tone name).format = s.format := rfl
@[simp] theorem State.tone_line (s : State) (name : ToneName) : (s.tone name).line = s.line := rfl
@[simp] theorem State.tone_composer (s : State) (name : ToneName) : (s.tone name).composer = s.composer := rfl
@[simp] theorem State.tone_engine (s : State) (name : ToneName) : (s.tone name).engine = s.engine := rfl
@[simp] theorem State.tone_memory (s : State) (name : ToneName) : (s.tone name).memory = s.memory := rfl
@[simp] theorem State.tone_lift (s : State) (name : ToneName) : (s.tone name).lift = s.lift := rfl
@[simp] theorem State.tone_spelling (s : State) (name : ToneName) : (s.tone name).spelling = s.spelling := rfl
@[simp] theorem State.tone_store (s : State) (name : ToneName) : (s.tone name).store = s.store := rfl
@[simp] theorem State.tone_display (s : State) (name : ToneName) : (s.tone name).display = s.display := rfl
@[simp] theorem State.tone_holdTimer (s : State) (name : ToneName) : (s.tone name).holdTimer = s.holdTimer := rfl
@[simp] theorem State.tone_restTimer (s : State) (name : ToneName) : (s.tone name).restTimer = s.restTimer := rfl
@[simp] theorem State.tone_pending (s : State) (name : ToneName) : (s.tone name).pending = s.pending := rfl

/-! ### takeInHand -/

@[simp] theorem takeInHand_options (p : Port) (s : State) : (takeInHand p s).options = s.options := by cases p <;> rfl
@[simp] theorem takeInHand_partition (p : Port) (s : State) : (takeInHand p s).partition = s.partition := by cases p <;> rfl
@[simp] theorem takeInHand_format (p : Port) (s : State) : (takeInHand p s).format = s.format := by cases p <;> rfl
@[simp] theorem takeInHand_line (p : Port) (s : State) : (takeInHand p s).line = s.line := by cases p <;> rfl
@[simp] theorem takeInHand_composer (p : Port) (s : State) : (takeInHand p s).composer = s.composer := by cases p <;> rfl
@[simp] theorem takeInHand_engine (p : Port) (s : State) : (takeInHand p s).engine = s.engine := by cases p <;> rfl
@[simp] theorem takeInHand_memory (p : Port) (s : State) : (takeInHand p s).memory = s.memory := by cases p <;> rfl
@[simp] theorem takeInHand_lift (p : Port) (s : State) : (takeInHand p s).lift = s.lift := by cases p <;> rfl
@[simp] theorem takeInHand_spelling (p : Port) (s : State) : (takeInHand p s).spelling = s.spelling := by cases p <;> rfl
@[simp] theorem takeInHand_store (p : Port) (s : State) : (takeInHand p s).store = s.store := by cases p <;> rfl
@[simp] theorem takeInHand_display (p : Port) (s : State) : (takeInHand p s).display = s.display := by cases p <;> rfl
@[simp] theorem takeInHand_tones (p : Port) (s : State) : (takeInHand p s).tones = s.tones := by cases p <;> rfl
@[simp] theorem takeInHand_holdTimer (p : Port) (s : State) : (takeInHand p s).holdTimer = s.holdTimer := by cases p <;> rfl
@[simp] theorem takeInHand_restTimer (p : Port) (s : State) : (takeInHand p s).restTimer = s.restTimer := by cases p <;> rfl
@[simp] theorem takeInHand_pending (p : Port) (s : State) : (takeInHand p s).pending = s.pending := by cases p <;> rfl

/-! ### loseByte -/

@[simp] theorem loseByte_options (p : Port) (s : State) : (loseByte p s).options = s.options := by cases p <;> rfl
@[simp] theorem loseByte_partition (p : Port) (s : State) : (loseByte p s).partition = s.partition := by cases p <;> rfl
@[simp] theorem loseByte_format (p : Port) (s : State) : (loseByte p s).format = s.format := by cases p <;> rfl
@[simp] theorem loseByte_line (p : Port) (s : State) : (loseByte p s).line = s.line := by cases p <;> rfl
@[simp] theorem loseByte_composer (p : Port) (s : State) : (loseByte p s).composer = s.composer := by cases p <;> rfl
@[simp] theorem loseByte_engine (p : Port) (s : State) : (loseByte p s).engine = s.engine := by cases p <;> rfl
@[simp] theorem loseByte_memory (p : Port) (s : State) : (loseByte p s).memory = s.memory := by cases p <;> rfl
@[simp] theorem loseByte_lift (p : Port) (s : State) : (loseByte p s).lift = s.lift := by cases p <;> rfl
@[simp] theorem loseByte_spelling (p : Port) (s : State) : (loseByte p s).spelling = s.spelling := by cases p <;> rfl
@[simp] theorem loseByte_store (p : Port) (s : State) : (loseByte p s).store = s.store := by cases p <;> rfl
@[simp] theorem loseByte_display (p : Port) (s : State) : (loseByte p s).display = s.display := by cases p <;> rfl
@[simp] theorem loseByte_tones (p : Port) (s : State) : (loseByte p s).tones = s.tones := by cases p <;> rfl
@[simp] theorem loseByte_holdTimer (p : Port) (s : State) : (loseByte p s).holdTimer = s.holdTimer := by cases p <;> rfl
@[simp] theorem loseByte_restTimer (p : Port) (s : State) : (loseByte p s).restTimer = s.restTimer := by cases p <;> rfl
@[simp] theorem loseByte_pending (p : Port) (s : State) : (loseByte p s).pending = s.pending := by cases p <;> rfl

/-! ### refuseBlock -/

@[simp] theorem refuseBlock_options (p : Port) (code : Byte) (st : Status) (s : State) : (refuseBlock p code st s).options = s.options := by cases p <;> rfl
@[simp] theorem refuseBlock_partition (p : Port) (code : Byte) (st : Status) (s : State) : (refuseBlock p code st s).partition = s.partition := by cases p <;> rfl
@[simp] theorem refuseBlock_format (p : Port) (code : Byte) (st : Status) (s : State) : (refuseBlock p code st s).format = s.format := by cases p <;> rfl
@[simp] theorem refuseBlock_line (p : Port) (code : Byte) (st : Status) (s : State) : (refuseBlock p code st s).line = s.line := by cases p <;> rfl
@[simp] theorem refuseBlock_composer (p : Port) (code : Byte) (st : Status) (s : State) : (refuseBlock p code st s).composer = s.composer := by cases p <;> rfl
@[simp] theorem refuseBlock_engine (p : Port) (code : Byte) (st : Status) (s : State) : (refuseBlock p code st s).engine = s.engine := by cases p <;> rfl
@[simp] theorem refuseBlock_memory (p : Port) (code : Byte) (st : Status) (s : State) : (refuseBlock p code st s).memory = s.memory := by cases p <;> rfl
@[simp] theorem refuseBlock_lift (p : Port) (code : Byte) (st : Status) (s : State) : (refuseBlock p code st s).lift = s.lift := by cases p <;> rfl
@[simp] theorem refuseBlock_spelling (p : Port) (code : Byte) (st : Status) (s : State) : (refuseBlock p code st s).spelling = s.spelling := by cases p <;> rfl
@[simp] theorem refuseBlock_store (p : Port) (code : Byte) (st : Status) (s : State) : (refuseBlock p code st s).store = s.store := by cases p <;> rfl
@[simp] theorem refuseBlock_display (p : Port) (code : Byte) (st : Status) (s : State) : (refuseBlock p code st s).display = s.display := by cases p <;> rfl
@[simp] theorem refuseBlock_tones (p : Port) (code : Byte) (st : Status) (s : State) : (refuseBlock p code st s).tones = s.tones := by cases p <;> rfl
@[simp] theorem refuseBlock_holdTimer (p : Port) (code : Byte) (st : Status) (s : State) : (refuseBlock p code st s).holdTimer = s.holdTimer := by cases p <;> rfl
@[simp] theorem refuseBlock_restTimer (p : Port) (code : Byte) (st : Status) (s : State) : (refuseBlock p code st s).restTimer = s.restTimer := by cases p <;> rfl
@[simp] theorem refuseBlock_pending (p : Port) (code : Byte) (st : Status) (s : State) : (refuseBlock p code st s).pending = s.pending := by cases p <;> rfl

/-! ### assemble -/

@[simp] theorem assemble_options (p : Port) (bytes : List Byte) (s : State) : (assemble p bytes s).options = s.options := by cases p <;> rfl
@[simp] theorem assemble_partition (p : Port) (bytes : List Byte) (s : State) : (assemble p bytes s).partition = s.partition := by cases p <;> rfl
@[simp] theorem assemble_format (p : Port) (bytes : List Byte) (s : State) : (assemble p bytes s).format = s.format := by cases p <;> rfl
@[simp] theorem assemble_line (p : Port) (bytes : List Byte) (s : State) : (assemble p bytes s).line = s.line := by cases p <;> rfl
@[simp] theorem assemble_composer (p : Port) (bytes : List Byte) (s : State) : (assemble p bytes s).composer = s.composer := by cases p <;> rfl
@[simp] theorem assemble_engine (p : Port) (bytes : List Byte) (s : State) : (assemble p bytes s).engine = s.engine := by cases p <;> rfl
@[simp] theorem assemble_memory (p : Port) (bytes : List Byte) (s : State) : (assemble p bytes s).memory = s.memory := by cases p <;> rfl
@[simp] theorem assemble_lift (p : Port) (bytes : List Byte) (s : State) : (assemble p bytes s).lift = s.lift := by cases p <;> rfl
@[simp] theorem assemble_spelling (p : Port) (bytes : List Byte) (s : State) : (assemble p bytes s).spelling = s.spelling := by cases p <;> rfl
@[simp] theorem assemble_store (p : Port) (bytes : List Byte) (s : State) : (assemble p bytes s).store = s.store := by cases p <;> rfl
@[simp] theorem assemble_display (p : Port) (bytes : List Byte) (s : State) : (assemble p bytes s).display = s.display := by cases p <;> rfl
@[simp] theorem assemble_tones (p : Port) (bytes : List Byte) (s : State) : (assemble p bytes s).tones = s.tones := by cases p <;> rfl
@[simp] theorem assemble_holdTimer (p : Port) (bytes : List Byte) (s : State) : (assemble p bytes s).holdTimer = s.holdTimer := by cases p <;> rfl
@[simp] theorem assemble_restTimer (p : Port) (bytes : List Byte) (s : State) : (assemble p bytes s).restTimer = s.restTimer := by cases p <;> rfl
@[simp] theorem assemble_pending (p : Port) (bytes : List Byte) (s : State) : (assemble p bytes s).pending = s.pending := by cases p <;> rfl

/-! ### restartRest -/

@[simp] theorem restartRest_console (s : State) : (restartRest s).console = s.console := by unfold restartRest; split <;> rfl
@[simp] theorem restartRest_link (s : State) : (restartRest s).link = s.link := by unfold restartRest; split <;> rfl
@[simp] theorem restartRest_options (s : State) : (restartRest s).options = s.options := by unfold restartRest; split <;> rfl
@[simp] theorem restartRest_partition (s : State) : (restartRest s).partition = s.partition := by unfold restartRest; split <;> rfl
@[simp] theorem restartRest_format (s : State) : (restartRest s).format = s.format := by unfold restartRest; split <;> rfl
@[simp] theorem restartRest_line (s : State) : (restartRest s).line = s.line := by unfold restartRest; split <;> rfl
@[simp] theorem restartRest_composer (s : State) : (restartRest s).composer = s.composer := by unfold restartRest; split <;> rfl
@[simp] theorem restartRest_engine (s : State) : (restartRest s).engine = s.engine := by unfold restartRest; split <;> rfl
@[simp] theorem restartRest_memory (s : State) : (restartRest s).memory = s.memory := by unfold restartRest; split <;> rfl
@[simp] theorem restartRest_lift (s : State) : (restartRest s).lift = s.lift := by unfold restartRest; split <;> rfl
@[simp] theorem restartRest_spelling (s : State) : (restartRest s).spelling = s.spelling := by unfold restartRest; split <;> rfl
@[simp] theorem restartRest_store (s : State) : (restartRest s).store = s.store := by unfold restartRest; split <;> rfl
@[simp] theorem restartRest_display (s : State) : (restartRest s).display = s.display := by unfold restartRest; split <;> rfl
@[simp] theorem restartRest_tones (s : State) : (restartRest s).tones = s.tones := by unfold restartRest; split <;> rfl
@[simp] theorem restartRest_holdTimer (s : State) : (restartRest s).holdTimer = s.holdTimer := by unfold restartRest; split <;> rfl
@[simp] theorem restartRest_pending (s : State) : (restartRest s).pending = s.pending := by unfold restartRest; split <;> rfl

/-! ### refresh -/

@[simp] theorem refresh_console (s : State) : (refresh s).console = s.console := rfl
@[simp] theorem refresh_link (s : State) : (refresh s).link = s.link := rfl
@[simp] theorem refresh_options (s : State) : (refresh s).options = s.options := rfl
@[simp] theorem refresh_partition (s : State) : (refresh s).partition = s.partition := rfl
@[simp] theorem refresh_format (s : State) : (refresh s).format = s.format := rfl
@[simp] theorem refresh_line (s : State) : (refresh s).line = s.line := rfl
@[simp] theorem refresh_composer (s : State) : (refresh s).composer = s.composer := rfl
@[simp] theorem refresh_engine (s : State) : (refresh s).engine = s.engine := rfl
@[simp] theorem refresh_memory (s : State) : (refresh s).memory = s.memory := rfl
@[simp] theorem refresh_lift (s : State) : (refresh s).lift = s.lift := rfl
@[simp] theorem refresh_spelling (s : State) : (refresh s).spelling = s.spelling := rfl
@[simp] theorem refresh_store (s : State) : (refresh s).store = s.store := rfl
@[simp] theorem refresh_tones (s : State) : (refresh s).tones = s.tones := rfl
@[simp] theorem refresh_holdTimer (s : State) : (refresh s).holdTimer = s.holdTimer := rfl
@[simp] theorem refresh_restTimer (s : State) : (refresh s).restTimer = s.restTimer := rfl
@[simp] theorem refresh_pending (s : State) : (refresh s).pending = s.pending := rfl

/-! ### finish -/

@[simp] theorem finish_console (s : State) : (finish s).console = s.console := rfl
@[simp] theorem finish_link (s : State) : (finish s).link = s.link := rfl
@[simp] theorem finish_options (s : State) : (finish s).options = s.options := rfl
@[simp] theorem finish_partition (s : State) : (finish s).partition = s.partition := rfl
@[simp] theorem finish_format (s : State) : (finish s).format = s.format := rfl
@[simp] theorem finish_line (s : State) : (finish s).line = s.line := rfl
@[simp] theorem finish_composer (s : State) : (finish s).composer = s.composer := rfl
@[simp] theorem finish_engine (s : State) : (finish s).engine = s.engine := rfl
@[simp] theorem finish_memory (s : State) : (finish s).memory = s.memory := rfl
@[simp] theorem finish_lift (s : State) : (finish s).lift = s.lift := rfl
@[simp] theorem finish_spelling (s : State) : (finish s).spelling = s.spelling := rfl
@[simp] theorem finish_store (s : State) : (finish s).store = s.store := rfl
@[simp] theorem finish_tones (s : State) : (finish s).tones = s.tones := rfl
@[simp] theorem finish_restTimer (s : State) : (finish s).restTimer = s.restTimer := rfl
@[simp] theorem finish_pending (s : State) : (finish s).pending = s.pending := rfl

/-! ### setWord -/

@[simp] theorem setWord_console (first : Nat) (g : WordRecord → WordRecord) (s : State) : (setWord first g s).console = s.console := rfl
@[simp] theorem setWord_link (first : Nat) (g : WordRecord → WordRecord) (s : State) : (setWord first g s).link = s.link := rfl
@[simp] theorem setWord_options (first : Nat) (g : WordRecord → WordRecord) (s : State) : (setWord first g s).options = s.options := rfl
@[simp] theorem setWord_partition (first : Nat) (g : WordRecord → WordRecord) (s : State) : (setWord first g s).partition = s.partition := rfl
@[simp] theorem setWord_format (first : Nat) (g : WordRecord → WordRecord) (s : State) : (setWord first g s).format = s.format := rfl
@[simp] theorem setWord_composer (first : Nat) (g : WordRecord → WordRecord) (s : State) : (setWord first g s).composer = s.composer := rfl
@[simp] theorem setWord_engine (first : Nat) (g : WordRecord → WordRecord) (s : State) : (setWord first g s).engine = s.engine := rfl
@[simp] theorem setWord_memory (first : Nat) (g : WordRecord → WordRecord) (s : State) : (setWord first g s).memory = s.memory := rfl
@[simp] theorem setWord_lift (first : Nat) (g : WordRecord → WordRecord) (s : State) : (setWord first g s).lift = s.lift := rfl
@[simp] theorem setWord_spelling (first : Nat) (g : WordRecord → WordRecord) (s : State) : (setWord first g s).spelling = s.spelling := rfl
@[simp] theorem setWord_store (first : Nat) (g : WordRecord → WordRecord) (s : State) : (setWord first g s).store = s.store := rfl
@[simp] theorem setWord_display (first : Nat) (g : WordRecord → WordRecord) (s : State) : (setWord first g s).display = s.display := rfl
@[simp] theorem setWord_tones (first : Nat) (g : WordRecord → WordRecord) (s : State) : (setWord first g s).tones = s.tones := rfl
@[simp] theorem setWord_holdTimer (first : Nat) (g : WordRecord → WordRecord) (s : State) : (setWord first g s).holdTimer = s.holdTimer := rfl
@[simp] theorem setWord_restTimer (first : Nat) (g : WordRecord → WordRecord) (s : State) : (setWord first g s).restTimer = s.restTimer := rfl
@[simp] theorem setWord_pending (first : Nat) (g : WordRecord → WordRecord) (s : State) : (setWord first g s).pending = s.pending := rfl

/-! ### joinSpellQueue -/

@[simp] theorem joinSpellQueue_console (e : SpellEntry) (s : State) : (joinSpellQueue e s).console = s.console := rfl
@[simp] theorem joinSpellQueue_link (e : SpellEntry) (s : State) : (joinSpellQueue e s).link = s.link := rfl
@[simp] theorem joinSpellQueue_options (e : SpellEntry) (s : State) : (joinSpellQueue e s).options = s.options := rfl
@[simp] theorem joinSpellQueue_partition (e : SpellEntry) (s : State) : (joinSpellQueue e s).partition = s.partition := rfl
@[simp] theorem joinSpellQueue_format (e : SpellEntry) (s : State) : (joinSpellQueue e s).format = s.format := rfl
@[simp] theorem joinSpellQueue_line (e : SpellEntry) (s : State) : (joinSpellQueue e s).line = s.line := rfl
@[simp] theorem joinSpellQueue_composer (e : SpellEntry) (s : State) : (joinSpellQueue e s).composer = s.composer := rfl
@[simp] theorem joinSpellQueue_engine (e : SpellEntry) (s : State) : (joinSpellQueue e s).engine = s.engine := rfl
@[simp] theorem joinSpellQueue_memory (e : SpellEntry) (s : State) : (joinSpellQueue e s).memory = s.memory := rfl
@[simp] theorem joinSpellQueue_lift (e : SpellEntry) (s : State) : (joinSpellQueue e s).lift = s.lift := rfl
@[simp] theorem joinSpellQueue_store (e : SpellEntry) (s : State) : (joinSpellQueue e s).store = s.store := rfl
@[simp] theorem joinSpellQueue_display (e : SpellEntry) (s : State) : (joinSpellQueue e s).display = s.display := rfl
@[simp] theorem joinSpellQueue_tones (e : SpellEntry) (s : State) : (joinSpellQueue e s).tones = s.tones := rfl
@[simp] theorem joinSpellQueue_holdTimer (e : SpellEntry) (s : State) : (joinSpellQueue e s).holdTimer = s.holdTimer := rfl
@[simp] theorem joinSpellQueue_restTimer (e : SpellEntry) (s : State) : (joinSpellQueue e s).restTimer = s.restTimer := rfl
@[simp] theorem joinSpellQueue_pending (e : SpellEntry) (s : State) : (joinSpellQueue e s).pending = s.pending := rfl

/-! ### setFragment -/

@[simp] theorem setFragment_console (p : Port) (f : Option Fragment) (s : State) : (setFragment p f s).console = s.console := by cases p <;> rfl
@[simp] theorem setFragment_link (p : Port) (f : Option Fragment) (s : State) : (setFragment p f s).link = s.link := by cases p <;> rfl
@[simp] theorem setFragment_options (p : Port) (f : Option Fragment) (s : State) : (setFragment p f s).options = s.options := by cases p <;> rfl
@[simp] theorem setFragment_partition (p : Port) (f : Option Fragment) (s : State) : (setFragment p f s).partition = s.partition := by cases p <;> rfl
@[simp] theorem setFragment_format (p : Port) (f : Option Fragment) (s : State) : (setFragment p f s).format = s.format := by cases p <;> rfl
@[simp] theorem setFragment_line (p : Port) (f : Option Fragment) (s : State) : (setFragment p f s).line = s.line := by cases p <;> rfl
@[simp] theorem setFragment_composer (p : Port) (f : Option Fragment) (s : State) : (setFragment p f s).composer = s.composer := by cases p <;> rfl
@[simp] theorem setFragment_engine (p : Port) (f : Option Fragment) (s : State) : (setFragment p f s).engine = s.engine := by cases p <;> rfl
@[simp] theorem setFragment_memory (p : Port) (f : Option Fragment) (s : State) : (setFragment p f s).memory = s.memory := by cases p <;> rfl
@[simp] theorem setFragment_lift (p : Port) (f : Option Fragment) (s : State) : (setFragment p f s).lift = s.lift := by cases p <;> rfl
@[simp] theorem setFragment_store (p : Port) (f : Option Fragment) (s : State) : (setFragment p f s).store = s.store := by cases p <;> rfl
@[simp] theorem setFragment_display (p : Port) (f : Option Fragment) (s : State) : (setFragment p f s).display = s.display := by cases p <;> rfl
@[simp] theorem setFragment_tones (p : Port) (f : Option Fragment) (s : State) : (setFragment p f s).tones = s.tones := by cases p <;> rfl
@[simp] theorem setFragment_holdTimer (p : Port) (f : Option Fragment) (s : State) : (setFragment p f s).holdTimer = s.holdTimer := by cases p <;> rfl
@[simp] theorem setFragment_restTimer (p : Port) (f : Option Fragment) (s : State) : (setFragment p f s).restTimer = s.restTimer := by cases p <;> rfl
@[simp] theorem setFragment_pending (p : Port) (f : Option Fragment) (s : State) : (setFragment p f s).pending = s.pending := by cases p <;> rfl

/-! ### dropLineSpelling -/

@[simp] theorem dropLineSpelling_console (serial : Nat) (s : State) : (dropLineSpelling serial s).console = s.console := rfl
@[simp] theorem dropLineSpelling_link (serial : Nat) (s : State) : (dropLineSpelling serial s).link = s.link := rfl
@[simp] theorem dropLineSpelling_options (serial : Nat) (s : State) : (dropLineSpelling serial s).options = s.options := rfl
@[simp] theorem dropLineSpelling_partition (serial : Nat) (s : State) : (dropLineSpelling serial s).partition = s.partition := rfl
@[simp] theorem dropLineSpelling_format (serial : Nat) (s : State) : (dropLineSpelling serial s).format = s.format := rfl
@[simp] theorem dropLineSpelling_line (serial : Nat) (s : State) : (dropLineSpelling serial s).line = s.line := rfl
@[simp] theorem dropLineSpelling_composer (serial : Nat) (s : State) : (dropLineSpelling serial s).composer = s.composer := rfl
@[simp] theorem dropLineSpelling_engine (serial : Nat) (s : State) : (dropLineSpelling serial s).engine = s.engine := rfl
@[simp] theorem dropLineSpelling_memory (serial : Nat) (s : State) : (dropLineSpelling serial s).memory = s.memory := rfl
@[simp] theorem dropLineSpelling_lift (serial : Nat) (s : State) : (dropLineSpelling serial s).lift = s.lift := rfl
@[simp] theorem dropLineSpelling_store (serial : Nat) (s : State) : (dropLineSpelling serial s).store = s.store := rfl
@[simp] theorem dropLineSpelling_display (serial : Nat) (s : State) : (dropLineSpelling serial s).display = s.display := rfl
@[simp] theorem dropLineSpelling_tones (serial : Nat) (s : State) : (dropLineSpelling serial s).tones = s.tones := rfl
@[simp] theorem dropLineSpelling_holdTimer (serial : Nat) (s : State) : (dropLineSpelling serial s).holdTimer = s.holdTimer := rfl
@[simp] theorem dropLineSpelling_restTimer (serial : Nat) (s : State) : (dropLineSpelling serial s).restTimer = s.restTimer := rfl
@[simp] theorem dropLineSpelling_pending (serial : Nat) (s : State) : (dropLineSpelling serial s).pending = s.pending := rfl

/-! ### setPosition -/

@[simp] theorem setPosition_console (x : Nat) (s : State) : (setPosition x s).console = s.console := rfl
@[simp] theorem setPosition_link (x : Nat) (s : State) : (setPosition x s).link = s.link := rfl
@[simp] theorem setPosition_options (x : Nat) (s : State) : (setPosition x s).options = s.options := rfl
@[simp] theorem setPosition_partition (x : Nat) (s : State) : (setPosition x s).partition = s.partition := rfl
@[simp] theorem setPosition_format (x : Nat) (s : State) : (setPosition x s).format = s.format := rfl
@[simp] theorem setPosition_engine (x : Nat) (s : State) : (setPosition x s).engine = s.engine := rfl
@[simp] theorem setPosition_memory (x : Nat) (s : State) : (setPosition x s).memory = s.memory := rfl
@[simp] theorem setPosition_lift (x : Nat) (s : State) : (setPosition x s).lift = s.lift := rfl
@[simp] theorem setPosition_spelling (x : Nat) (s : State) : (setPosition x s).spelling = s.spelling := rfl
@[simp] theorem setPosition_store (x : Nat) (s : State) : (setPosition x s).store = s.store := rfl
@[simp] theorem setPosition_display (x : Nat) (s : State) : (setPosition x s).display = s.display := rfl
@[simp] theorem setPosition_tones (x : Nat) (s : State) : (setPosition x s).tones = s.tones := rfl
@[simp] theorem setPosition_holdTimer (x : Nat) (s : State) : (setPosition x s).holdTimer = s.holdTimer := rfl
@[simp] theorem setPosition_restTimer (x : Nat) (s : State) : (setPosition x s).restTimer = s.restTimer := rfl
@[simp] theorem setPosition_pending (x : Nat) (s : State) : (setPosition x s).pending = s.pending := rfl

/-! ### freeLine -/

@[simp] theorem freeLine_console (last : Port) (s : State) : (freeLine last s).console = s.console := rfl
@[simp] theorem freeLine_link (last : Port) (s : State) : (freeLine last s).link = s.link := rfl
@[simp] theorem freeLine_options (last : Port) (s : State) : (freeLine last s).options = s.options := rfl
@[simp] theorem freeLine_partition (last : Port) (s : State) : (freeLine last s).partition = s.partition := rfl
@[simp] theorem freeLine_format (last : Port) (s : State) : (freeLine last s).format = s.format := rfl
@[simp] theorem freeLine_engine (last : Port) (s : State) : (freeLine last s).engine = s.engine := rfl
@[simp] theorem freeLine_memory (last : Port) (s : State) : (freeLine last s).memory = s.memory := rfl
@[simp] theorem freeLine_lift (last : Port) (s : State) : (freeLine last s).lift = s.lift := rfl
@[simp] theorem freeLine_spelling (last : Port) (s : State) : (freeLine last s).spelling = s.spelling := rfl
@[simp] theorem freeLine_store (last : Port) (s : State) : (freeLine last s).store = s.store := rfl
@[simp] theorem freeLine_tones (last : Port) (s : State) : (freeLine last s).tones = s.tones := rfl
@[simp] theorem freeLine_holdTimer (last : Port) (s : State) : (freeLine last s).holdTimer = s.holdTimer := rfl
@[simp] theorem freeLine_restTimer (last : Port) (s : State) : (freeLine last s).restTimer = s.restTimer := rfl
@[simp] theorem freeLine_pending (last : Port) (s : State) : (freeLine last s).pending = s.pending := rfl

/-! ### putOnLink -/

@[simp] theorem putOnLink_console (owner : LinkOwner) (op : StoreOp) (s : State) : (putOnLink owner op s).console = s.console := rfl
@[simp] theorem putOnLink_link (owner : LinkOwner) (op : StoreOp) (s : State) : (putOnLink owner op s).link = s.link := rfl
@[simp] theorem putOnLink_options (owner : LinkOwner) (op : StoreOp) (s : State) : (putOnLink owner op s).options = s.options := rfl
@[simp] theorem putOnLink_partition (owner : LinkOwner) (op : StoreOp) (s : State) : (putOnLink owner op s).partition = s.partition := rfl
@[simp] theorem putOnLink_format (owner : LinkOwner) (op : StoreOp) (s : State) : (putOnLink owner op s).format = s.format := rfl
@[simp] theorem putOnLink_line (owner : LinkOwner) (op : StoreOp) (s : State) : (putOnLink owner op s).line = s.line := rfl
@[simp] theorem putOnLink_composer (owner : LinkOwner) (op : StoreOp) (s : State) : (putOnLink owner op s).composer = s.composer := rfl
@[simp] theorem putOnLink_engine (owner : LinkOwner) (op : StoreOp) (s : State) : (putOnLink owner op s).engine = s.engine := rfl
@[simp] theorem putOnLink_memory (owner : LinkOwner) (op : StoreOp) (s : State) : (putOnLink owner op s).memory = s.memory := rfl
@[simp] theorem putOnLink_lift (owner : LinkOwner) (op : StoreOp) (s : State) : (putOnLink owner op s).lift = s.lift := rfl
@[simp] theorem putOnLink_spelling (owner : LinkOwner) (op : StoreOp) (s : State) : (putOnLink owner op s).spelling = s.spelling := rfl
@[simp] theorem putOnLink_display (owner : LinkOwner) (op : StoreOp) (s : State) : (putOnLink owner op s).display = s.display := rfl
@[simp] theorem putOnLink_tones (owner : LinkOwner) (op : StoreOp) (s : State) : (putOnLink owner op s).tones = s.tones := rfl
@[simp] theorem putOnLink_holdTimer (owner : LinkOwner) (op : StoreOp) (s : State) : (putOnLink owner op s).holdTimer = s.holdTimer := rfl
@[simp] theorem putOnLink_restTimer (owner : LinkOwner) (op : StoreOp) (s : State) : (putOnLink owner op s).restTimer = s.restTimer := rfl
@[simp] theorem putOnLink_pending (owner : LinkOwner) (op : StoreOp) (s : State) : (putOnLink owner op s).pending = s.pending := rfl

/-! ### startWheelHoming -/

@[simp] theorem startWheelHoming_console (wake : Bool) (s : State) : (startWheelHoming wake s).console = s.console := rfl
@[simp] theorem startWheelHoming_link (wake : Bool) (s : State) : (startWheelHoming wake s).link = s.link := rfl
@[simp] theorem startWheelHoming_options (wake : Bool) (s : State) : (startWheelHoming wake s).options = s.options := rfl
@[simp] theorem startWheelHoming_partition (wake : Bool) (s : State) : (startWheelHoming wake s).partition = s.partition := rfl
@[simp] theorem startWheelHoming_format (wake : Bool) (s : State) : (startWheelHoming wake s).format = s.format := rfl
@[simp] theorem startWheelHoming_line (wake : Bool) (s : State) : (startWheelHoming wake s).line = s.line := rfl
@[simp] theorem startWheelHoming_composer (wake : Bool) (s : State) : (startWheelHoming wake s).composer = s.composer := rfl
@[simp] theorem startWheelHoming_memory (wake : Bool) (s : State) : (startWheelHoming wake s).memory = s.memory := rfl
@[simp] theorem startWheelHoming_lift (wake : Bool) (s : State) : (startWheelHoming wake s).lift = s.lift := rfl
@[simp] theorem startWheelHoming_spelling (wake : Bool) (s : State) : (startWheelHoming wake s).spelling = s.spelling := rfl
@[simp] theorem startWheelHoming_store (wake : Bool) (s : State) : (startWheelHoming wake s).store = s.store := rfl
@[simp] theorem startWheelHoming_display (wake : Bool) (s : State) : (startWheelHoming wake s).display = s.display := rfl
@[simp] theorem startWheelHoming_tones (wake : Bool) (s : State) : (startWheelHoming wake s).tones = s.tones := rfl
@[simp] theorem startWheelHoming_holdTimer (wake : Bool) (s : State) : (startWheelHoming wake s).holdTimer = s.holdTimer := rfl
@[simp] theorem startWheelHoming_pending (wake : Bool) (s : State) : (startWheelHoming wake s).pending = s.pending := rfl

/-! ### startFullHoming -/

@[simp] theorem startFullHoming_console (s : State) : (startFullHoming s).console = s.console := rfl
@[simp] theorem startFullHoming_link (s : State) : (startFullHoming s).link = s.link := rfl
@[simp] theorem startFullHoming_options (s : State) : (startFullHoming s).options = s.options := rfl
@[simp] theorem startFullHoming_partition (s : State) : (startFullHoming s).partition = s.partition := rfl
@[simp] theorem startFullHoming_format (s : State) : (startFullHoming s).format = s.format := rfl
@[simp] theorem startFullHoming_line (s : State) : (startFullHoming s).line = s.line := rfl
@[simp] theorem startFullHoming_composer (s : State) : (startFullHoming s).composer = s.composer := rfl
@[simp] theorem startFullHoming_memory (s : State) : (startFullHoming s).memory = s.memory := rfl
@[simp] theorem startFullHoming_lift (s : State) : (startFullHoming s).lift = s.lift := rfl
@[simp] theorem startFullHoming_spelling (s : State) : (startFullHoming s).spelling = s.spelling := rfl
@[simp] theorem startFullHoming_store (s : State) : (startFullHoming s).store = s.store := rfl
@[simp] theorem startFullHoming_display (s : State) : (startFullHoming s).display = s.display := rfl
@[simp] theorem startFullHoming_tones (s : State) : (startFullHoming s).tones = s.tones := rfl
@[simp] theorem startFullHoming_holdTimer (s : State) : (startFullHoming s).holdTimer = s.holdTimer := rfl
@[simp] theorem startFullHoming_pending (s : State) : (startFullHoming s).pending = s.pending := rfl

/-! ### appendJob -/

@[simp] theorem appendJob_console (j : Job) (s : State) : (appendJob j s).console = s.console := by unfold appendJob; dsimp only; split <;> rfl
@[simp] theorem appendJob_link (j : Job) (s : State) : (appendJob j s).link = s.link := by unfold appendJob; dsimp only; split <;> rfl
@[simp] theorem appendJob_options (j : Job) (s : State) : (appendJob j s).options = s.options := by unfold appendJob; dsimp only; split <;> rfl
@[simp] theorem appendJob_partition (j : Job) (s : State) : (appendJob j s).partition = s.partition := by unfold appendJob; dsimp only; split <;> rfl
@[simp] theorem appendJob_format (j : Job) (s : State) : (appendJob j s).format = s.format := by unfold appendJob; dsimp only; split <;> rfl
@[simp] theorem appendJob_line (j : Job) (s : State) : (appendJob j s).line = s.line := by unfold appendJob; dsimp only; split <;> rfl
@[simp] theorem appendJob_composer (j : Job) (s : State) : (appendJob j s).composer = s.composer := by unfold appendJob; dsimp only; split <;> rfl
@[simp] theorem appendJob_memory (j : Job) (s : State) : (appendJob j s).memory = s.memory := by unfold appendJob; dsimp only; split <;> rfl
@[simp] theorem appendJob_lift (j : Job) (s : State) : (appendJob j s).lift = s.lift := by unfold appendJob; dsimp only; split <;> rfl
@[simp] theorem appendJob_spelling (j : Job) (s : State) : (appendJob j s).spelling = s.spelling := by unfold appendJob; dsimp only; split <;> rfl
@[simp] theorem appendJob_store (j : Job) (s : State) : (appendJob j s).store = s.store := by unfold appendJob; dsimp only; split <;> rfl
@[simp] theorem appendJob_display (j : Job) (s : State) : (appendJob j s).display = s.display := by unfold appendJob; dsimp only; split <;> rfl
@[simp] theorem appendJob_tones (j : Job) (s : State) : (appendJob j s).tones = s.tones := by unfold appendJob; dsimp only; split <;> rfl
@[simp] theorem appendJob_holdTimer (j : Job) (s : State) : (appendJob j s).holdTimer = s.holdTimer := by unfold appendJob; dsimp only; split <;> rfl
@[simp] theorem appendJob_pending (j : Job) (s : State) : (appendJob j s).pending = s.pending := by unfold appendJob; dsimp only; split <;> rfl

/-! ### popHead -/

@[simp] theorem popHead_console (s : State) : (popHead s).console = s.console := rfl
@[simp] theorem popHead_link (s : State) : (popHead s).link = s.link := rfl
@[simp] theorem popHead_options (s : State) : (popHead s).options = s.options := rfl
@[simp] theorem popHead_partition (s : State) : (popHead s).partition = s.partition := rfl
@[simp] theorem popHead_format (s : State) : (popHead s).format = s.format := rfl
@[simp] theorem popHead_line (s : State) : (popHead s).line = s.line := rfl
@[simp] theorem popHead_composer (s : State) : (popHead s).composer = s.composer := rfl
@[simp] theorem popHead_memory (s : State) : (popHead s).memory = s.memory := rfl
@[simp] theorem popHead_lift (s : State) : (popHead s).lift = s.lift := rfl
@[simp] theorem popHead_spelling (s : State) : (popHead s).spelling = s.spelling := rfl
@[simp] theorem popHead_store (s : State) : (popHead s).store = s.store := rfl
@[simp] theorem popHead_display (s : State) : (popHead s).display = s.display := rfl
@[simp] theorem popHead_tones (s : State) : (popHead s).tones = s.tones := rfl
@[simp] theorem popHead_holdTimer (s : State) : (popHead s).holdTimer = s.holdTimer := rfl
@[simp] theorem popHead_restTimer (s : State) : (popHead s).restTimer = s.restTimer := rfl
@[simp] theorem popHead_pending (s : State) : (popHead s).pending = s.pending := rfl

/-! ### setHead -/

@[simp] theorem setHead_console (g : Job → Job) (s : State) : (setHead g s).console = s.console := by unfold setHead; split <;> rfl
@[simp] theorem setHead_link (g : Job → Job) (s : State) : (setHead g s).link = s.link := by unfold setHead; split <;> rfl
@[simp] theorem setHead_options (g : Job → Job) (s : State) : (setHead g s).options = s.options := by unfold setHead; split <;> rfl
@[simp] theorem setHead_partition (g : Job → Job) (s : State) : (setHead g s).partition = s.partition := by unfold setHead; split <;> rfl
@[simp] theorem setHead_format (g : Job → Job) (s : State) : (setHead g s).format = s.format := by unfold setHead; split <;> rfl
@[simp] theorem setHead_line (g : Job → Job) (s : State) : (setHead g s).line = s.line := by unfold setHead; split <;> rfl
@[simp] theorem setHead_composer (g : Job → Job) (s : State) : (setHead g s).composer = s.composer := by unfold setHead; split <;> rfl
@[simp] theorem setHead_memory (g : Job → Job) (s : State) : (setHead g s).memory = s.memory := by unfold setHead; split <;> rfl
@[simp] theorem setHead_lift (g : Job → Job) (s : State) : (setHead g s).lift = s.lift := by unfold setHead; split <;> rfl
@[simp] theorem setHead_spelling (g : Job → Job) (s : State) : (setHead g s).spelling = s.spelling := by unfold setHead; split <;> rfl
@[simp] theorem setHead_store (g : Job → Job) (s : State) : (setHead g s).store = s.store := by unfold setHead; split <;> rfl
@[simp] theorem setHead_display (g : Job → Job) (s : State) : (setHead g s).display = s.display := by unfold setHead; split <;> rfl
@[simp] theorem setHead_tones (g : Job → Job) (s : State) : (setHead g s).tones = s.tones := by unfold setHead; split <;> rfl
@[simp] theorem setHead_holdTimer (g : Job → Job) (s : State) : (setHead g s).holdTimer = s.holdTimer := by unfold setHead; split <;> rfl
@[simp] theorem setHead_restTimer (g : Job → Job) (s : State) : (setHead g s).restTimer = s.restTimer := by unfold setHead; split <;> rfl
@[simp] theorem setHead_pending (g : Job → Job) (s : State) : (setHead g s).pending = s.pending := by unfold setHead; split <;> rfl

/-! ### enterReady -/

@[simp] theorem enterReady_console (s : State) : (enterReady s).console = s.console := rfl
@[simp] theorem enterReady_link (s : State) : (enterReady s).link = s.link := rfl
@[simp] theorem enterReady_options (s : State) : (enterReady s).options = s.options := rfl
@[simp] theorem enterReady_partition (s : State) : (enterReady s).partition = s.partition := rfl
@[simp] theorem enterReady_format (s : State) : (enterReady s).format = s.format := rfl
@[simp] theorem enterReady_line (s : State) : (enterReady s).line = s.line := rfl
@[simp] theorem enterReady_composer (s : State) : (enterReady s).composer = s.composer := rfl
@[simp] theorem enterReady_memory (s : State) : (enterReady s).memory = s.memory := rfl
@[simp] theorem enterReady_lift (s : State) : (enterReady s).lift = s.lift := rfl
@[simp] theorem enterReady_spelling (s : State) : (enterReady s).spelling = s.spelling := rfl
@[simp] theorem enterReady_store (s : State) : (enterReady s).store = s.store := rfl
@[simp] theorem enterReady_display (s : State) : (enterReady s).display = s.display := rfl
@[simp] theorem enterReady_tones (s : State) : (enterReady s).tones = s.tones := rfl
@[simp] theorem enterReady_holdTimer (s : State) : (enterReady s).holdTimer = s.holdTimer := rfl
@[simp] theorem enterReady_pending (s : State) : (enterReady s).pending = s.pending := rfl

/-! ### enterSupplyOut -/

@[simp] theorem enterSupplyOut_console (s : State) : (enterSupplyOut s).console = s.console := rfl
@[simp] theorem enterSupplyOut_link (s : State) : (enterSupplyOut s).link = s.link := rfl
@[simp] theorem enterSupplyOut_options (s : State) : (enterSupplyOut s).options = s.options := rfl
@[simp] theorem enterSupplyOut_partition (s : State) : (enterSupplyOut s).partition = s.partition := rfl
@[simp] theorem enterSupplyOut_format (s : State) : (enterSupplyOut s).format = s.format := rfl
@[simp] theorem enterSupplyOut_line (s : State) : (enterSupplyOut s).line = s.line := rfl
@[simp] theorem enterSupplyOut_composer (s : State) : (enterSupplyOut s).composer = s.composer := rfl
@[simp] theorem enterSupplyOut_memory (s : State) : (enterSupplyOut s).memory = s.memory := rfl
@[simp] theorem enterSupplyOut_lift (s : State) : (enterSupplyOut s).lift = s.lift := rfl
@[simp] theorem enterSupplyOut_spelling (s : State) : (enterSupplyOut s).spelling = s.spelling := rfl
@[simp] theorem enterSupplyOut_store (s : State) : (enterSupplyOut s).store = s.store := rfl
@[simp] theorem enterSupplyOut_display (s : State) : (enterSupplyOut s).display = s.display := rfl
@[simp] theorem enterSupplyOut_tones (s : State) : (enterSupplyOut s).tones = s.tones := rfl
@[simp] theorem enterSupplyOut_holdTimer (s : State) : (enterSupplyOut s).holdTimer = s.holdTimer := rfl
@[simp] theorem enterSupplyOut_pending (s : State) : (enterSupplyOut s).pending = s.pending := rfl

/-! ### dropOverlay -/

@[simp] theorem dropOverlay_console (s : State) : (dropOverlay s).console = s.console := rfl
@[simp] theorem dropOverlay_link (s : State) : (dropOverlay s).link = s.link := rfl
@[simp] theorem dropOverlay_options (s : State) : (dropOverlay s).options = s.options := rfl
@[simp] theorem dropOverlay_partition (s : State) : (dropOverlay s).partition = s.partition := rfl
@[simp] theorem dropOverlay_format (s : State) : (dropOverlay s).format = s.format := rfl
@[simp] theorem dropOverlay_line (s : State) : (dropOverlay s).line = s.line := rfl
@[simp] theorem dropOverlay_composer (s : State) : (dropOverlay s).composer = s.composer := rfl
@[simp] theorem dropOverlay_engine (s : State) : (dropOverlay s).engine = s.engine := rfl
@[simp] theorem dropOverlay_memory (s : State) : (dropOverlay s).memory = s.memory := rfl
@[simp] theorem dropOverlay_lift (s : State) : (dropOverlay s).lift = s.lift := rfl
@[simp] theorem dropOverlay_spelling (s : State) : (dropOverlay s).spelling = s.spelling := rfl
@[simp] theorem dropOverlay_store (s : State) : (dropOverlay s).store = s.store := rfl
@[simp] theorem dropOverlay_tones (s : State) : (dropOverlay s).tones = s.tones := rfl
@[simp] theorem dropOverlay_holdTimer (s : State) : (dropOverlay s).holdTimer = s.holdTimer := rfl
@[simp] theorem dropOverlay_restTimer (s : State) : (dropOverlay s).restTimer = s.restTimer := rfl
@[simp] theorem dropOverlay_pending (s : State) : (dropOverlay s).pending = s.pending := rfl

/-! ### One port -/

@[simp] theorem Port.other_other (p : Port) : Port.other (Port.other p) = p := by cases p <;> rfl
@[simp] theorem Port.other_ne (p : Port) : (Port.other p) ≠ p := by cases p <;> decide
@[simp] theorem Port.ne_other (p : Port) : p ≠ (Port.other p) := by cases p <;> decide

@[simp] theorem State.port_console (s : State) : s.port .console = s.console := rfl
@[simp] theorem State.port_link (s : State) : s.port .link = s.link := rfl
@[simp] theorem State.setPort_port (s : State) (p : Port) (v : PortState) : (s.setPort p v).port p = v := by
  cases p <;> rfl
@[simp] theorem State.setPort_port_other (s : State) (p : Port) (v : PortState) :
    (s.setPort p v).port (Port.other p) = s.port (Port.other p) := by cases p <;> rfl
@[simp] theorem State.setPort_console_console (s : State) (v : PortState) : (s.setPort .console v).console = v := rfl
@[simp] theorem State.setPort_console_link (s : State) (v : PortState) : (s.setPort .console v).link = s.link := rfl
@[simp] theorem State.setPort_link_console (s : State) (v : PortState) : (s.setPort .link v).console = s.console := rfl
@[simp] theorem State.setPort_link_link (s : State) (v : PortState) : (s.setPort .link v).link = v := rfl
@[simp] theorem State.setPort_self (s : State) (p : Port) : s.setPort p (s.port p) = s := by cases p <;> rfl
@[simp] theorem State.setPort_setPort (s : State) (p : Port) (v w : PortState) :
    (s.setPort p v).setPort p w = s.setPort p w := by cases p <;> rfl

@[simp] theorem State.notice_port (s : State) (p : Port) (b : Block) :
    (s.notice p b).port p = (s.port p).notice b := by cases p <;> rfl
@[simp] theorem State.notice_port_other (s : State) (p : Port) (b : Block) :
    (s.notice p b).port (Port.other p) = s.port (Port.other p) := by cases p <;> rfl
@[simp] theorem State.reply_port (s : State) (p : Port) (code : Byte) (r : Reply) :
    (s.reply p code r).port p = { s.port p with queue := (s.port p).queue ++ [r.block code] } := by cases p <;> rfl
@[simp] theorem State.reply_port_other (s : State) (p : Port) (code : Byte) (r : Reply) :
    (s.reply p code r).port (Port.other p) = s.port (Port.other p) := by cases p <;> rfl
@[simp] theorem takeInHand_port (p : Port) (s : State) :
    (takeInHand p s).port p = { s.port p with assembly := [], gap := none, inHand := true } := by cases p <;> rfl
@[simp] theorem takeInHand_port_other (p : Port) (s : State) : (takeInHand p s).port (Port.other p) = s.port (Port.other p) := by
  cases p <;> rfl
@[simp] theorem restartRest_port (s : State) (p : Port) : (restartRest s).port p = s.port p := by cases p <;> simp
@[simp] theorem finish_port (s : State) (p : Port) : (finish s).port p = s.port p := by cases p <;> rfl
@[simp] theorem State.tone_port (s : State) (name : ToneName) (p : Port) : (s.tone name).port p = s.port p := by
  cases p <;> rfl

/-! ### What the updates write -/

@[simp] theorem finish_holdTimer (s : State) : (finish s).holdTimer = holdNow s := rfl
@[simp] theorem finish_display (s : State) : (finish s).display = displayNow { s with holdTimer := holdNow s } := rfl
@[simp] theorem State.tone_tones (s : State) (name : ToneName) : (s.tone name).tones = s.tones.request name := rfl
@[simp] theorem setPosition_composer (x : Nat) (s : State) :
    (setPosition x s).composer = { s.composer with position := x } := rfl
@[simp] theorem freeLine_line (last : Port) (s : State) : (freeLine last s).line = .free := rfl
@[simp] theorem freeLine_composer (last : Port) (s : State) :
    (freeLine last s).composer = { s.composer with lastHolder := some last } := rfl
@[simp] theorem displayNow_overlay (s : State) : (displayNow s).overlay = s.display.overlay := by
  unfold displayNow Display.change; dsimp only; split
  · rfl
  · split <;> rfl
@[simp] theorem displayNow_live (s : State) : (displayNow s).live = s.display.live := by
  unfold displayNow Display.change; dsimp only; split
  · rfl
  · split <;> rfl

end Sys2Proof.Machine
end

