-- ==== Sys2Proof/Laws/Frames.lean ====
section
/-! SUPPORT. The algebra of frames (`changesOnly`), and for each shared operation the parts of State it may change. -/

namespace Sys2Proof.Machine

/-! ### The algebra -/

theorem Part.same_refl (q : Part) (s : State) : q.same s s := by cases q <;> rfl

theorem Part.same_trans {q : Part} {s t u : State} (h : q.same s t) (k : q.same t u) : q.same s u := by
  cases q <;> exact Eq.trans k h

theorem changesOnly.refl (parts : List Part) (s : State) : changesOnly parts s s := fun q _ => q.same_refl s

theorem changesOnly.of_eq {parts : List Part} {s t : State} (h : t = s) : changesOnly parts s t := h ▸ .refl _ _

theorem changesOnly.mono {a b : List Part} {s t : State} (h : changesOnly a s t) (hab : a ⊆ b) :
    changesOnly b s t := fun q hq => h q fun m => hq (hab m)

theorem changesOnly.trans {a : List Part} {s t u : State} (h : changesOnly a s t) (k : changesOnly a t u) :
    changesOnly a s u := fun q hq => Part.same_trans (h q hq) (k q hq)

/-- Two steps whose frames lie within one. -/
theorem changesOnly.then {a b c : List Part} {s t u : State} (h : changesOnly a s t) (k : changesOnly b t u)
    (ha : a ⊆ c) (hb : b ⊆ c) : changesOnly c s u := (h.mono ha).trans (k.mono hb)

/-- A fold whose step changes only these parts changes only them. -/
theorem changesOnly.foldl {α : Type} {parts : List Part} (f : State → α → State)
    (hf : ∀ t x, changesOnly parts t (f t x)) (l : List α) (s : State) : changesOnly parts s (l.foldl f s) := by
  induction l generalizing s with
  | nil => exact .refl _ _
  | cons x l ih => exact (hf s x).trans (ih _)

/-- The fields that a frame leaves alone, for use as a rewriting lemma. -/
theorem changesOnly.same {parts : List Part} {s t : State} (h : changesOnly parts s t) (q : Part)
    (hq : q ∉ parts := by decide) : q.same s t := h q hq

/-- A choice between two states with one frame. -/
theorem changesOnly.ite {parts : List Part} {s t u : State} {c : Prop} [Decidable c] (ht : changesOnly parts s t)
    (hu : changesOnly parts s u) : changesOnly parts s (if c then t else u) := by split <;> assumption

/-- A frame is checked part by part. -/
theorem changesOnly.mk {parts : List Part} {s t : State}
    (h : ∀ q : Part, q ∈ parts ∨ q.same s t) : changesOnly parts s t := fun q hq => (h q).resolve_left hq

theorem Part.ofPort_mem_both (p : Port) : Part.ofPort p ∈ [Part.console, .link] := by cases p <;> decide

/-! ### Ports, tones and timers -/

theorem State.setPort_frame (s : State) (p : Port) (v : PortState) : changesOnly [.ofPort p] s (s.setPort p v) := by
  intro q hq; cases p <;> cases q <;> first | rfl | exact absurd hq (by decide)

theorem State.notice_frame (s : State) (p : Port) (b : Block) : changesOnly [.ofPort p] s (s.notice p b) :=
  s.setPort_frame p _

theorem State.noticeBoth_frame (s : State) (b : Block) : changesOnly [.console, .link] s (s.noticeBoth b) := by
  intro q hq; cases q <;> first | rfl | exact absurd hq (by decide)

theorem State.reply_frame (s : State) (p : Port) (code : Byte) (r : Reply) :
    changesOnly [.ofPort p] s (s.reply p code r) := s.setPort_frame p _

theorem State.tone_frame (s : State) (name : ToneName) : changesOnly [.tones] s (s.tone name) := by
  intro q hq; cases q <;> first | rfl | exact absurd hq (by decide)

theorem takeInHand_frame (p : Port) (s : State) : changesOnly [.ofPort p] s (takeInHand p s) := s.setPort_frame p _

theorem loseByte_frame (p : Port) (s : State) : changesOnly [.ofPort p] s (loseByte p s) := s.setPort_frame p _

theorem refuseBlock_frame (p : Port) (code : Byte) (st : Status) (s : State) :
    changesOnly [.ofPort p] s (refuseBlock p code st s) :=
  (takeInHand_frame p s).trans (State.reply_frame _ _ _ _)

theorem restartRest_frame (s : State) : changesOnly [.restTimer] s (restartRest s) := by
  intro q hq; cases q <;> first | exact absurd hq (by decide) | simp [Part.same]

theorem finish_frame (s : State) : changesOnly [.display, .holdTimer] s (finish s) := by
  intro q hq; cases q <;> first | rfl | exact absurd hq (by decide)

theorem appendJob_frame (j : Job) (s : State) : changesOnly [.engine, .restTimer] s (appendJob j s) := by
  intro q hq; cases q <;> first | exact absurd hq (by decide) | simp [Part.same]

end Sys2Proof.Machine
end

