-- ==== Sys2Proof/Laws/Spelling.lean ====
section
/-! SUPPORT. What the operations of Correction Memory and the Spelling Unit may change. -/

namespace Sys2Proof.Machine

/-! ### Correction Memory -/

theorem dropRecord_frame (name : Nat) (s : State) : changesOnly [.memory, .spelling] s (dropRecord name s) := by
  unfold dropRecord; split
  · exact .refl _ _
  · intro q hq; cases q <;> first | exact absurd hq (by decide) | rfl

theorem makeRoom_frame (fuel : Nat) (s : State) : changesOnly [.memory, .spelling] s (makeRoom fuel s) := by
  induction fuel generalizing s with
  | zero => exact .refl _ _
  | succ n ih =>
    unfold makeRoom; split
    · exact .refl _ _
    · split
      · exact .refl _ _
      · exact (dropRecord_frame _ _).trans (ih _)

theorem emptyMemory_frame (s : State) : changesOnly [.memory, .spelling, .lift] s (emptyMemory s) := by
  have h : changesOnly [.memory, .spelling] s (s.memory.records.foldl (fun t r => dropRecord r.name t) s) :=
    .foldl _ (fun (t : State) (r : LineRecord) => dropRecord_frame r.name t) _ _
  refine (h.mono (by decide)).trans ?_
  intro q hq; cases q <;> first | exact absurd hq (by decide) | rfl

theorem openNewRecord_frame (serial : Nat) (source : Port) (b : Int) (s : State) :
    changesOnly [.memory, .spelling] s (openNewRecord serial source b s) := by
  unfold openNewRecord
  have h : changesOnly [.memory, .spelling] s
      (if s.memory.records.length < Config.memoryRecords then s
       else match s.memory.records with
        | r :: _ => dropRecord r.name s
        | [] => s) := by
    split
    · exact .refl _ _
    · split
      · exact dropRecord_frame _ _
      · exact .refl _ _
  refine h.trans ?_
  intro q hq; cases q <;> first | exact absurd hq (by decide) | rfl

theorem placeStrike_frame (serial : Nat) (source : Port) (b : Int) (s : State) :
    changesOnly [.memory, .spelling] s (placeStrike serial source b s) := by
  unfold placeStrike; dsimp only; split
  · exact .refl _ _
  · split
    · intro q hq; cases q <;> first | exact absurd hq (by decide) | rfl
    · refine changesOnly.trans ?_ (openNewRecord_frame _ _ _ _)
      intro q hq; cases q <;> first | exact absurd hq (by decide) | rfl

/-- R95 to R100: recording a strike changes Correction Memory, and the suspects of records it drops. -/
theorem recordStrike_frame (serial : Nat) (source : Port) (platen : Int) (e : StrikeEntry) (s : State) :
    changesOnly [.memory, .spelling] s (recordStrike serial source platen e s) := by
  refine ((placeStrike_frame serial source (platen + e.rise) s).trans (makeRoom_frame
    (placeStrike serial source (platen + e.rise) s).memory.records.length _)).trans ?_
  unfold recordStrike; dsimp only; split
  · exact .refl _ _
  · split <;> (intro q hq; cases q <;> first | exact absurd hq (by decide) | rfl)

theorem closeByFeed_frame (s : State) : changesOnly [.memory] s (closeByFeed s) := by
  unfold closeByFeed; split
  · exact .refl _ _
  · intro q hq; cases q <;> first | exact absurd hq (by decide) | rfl

theorem removeEntry_frame (record entry : Nat) (s : State) : changesOnly [.memory] s (removeEntry record entry s) := by
  intro q hq; cases q <;> first | exact absurd hq (by decide) | rfl

theorem reopen_frame (name : Nat) (s : State) : changesOnly [.memory] s (reopen name s) := by
  unfold reopen; split
  · exact .refl _ _
  · intro q hq; cases q <;> first | exact absurd hq (by decide) | rfl

theorem restore_frame (s : State) : changesOnly [.memory] s (restore s) := by
  intro q hq; cases q <;> first | exact absurd hq (by decide) | rfl

/-! ### The word list and the spell queue -/

theorem setWord_frame (first : Nat) (g : WordRecord → WordRecord) (s : State) :
    changesOnly [.line] s (setWord first g s) := by
  intro q hq; cases q <;> first | exact absurd hq (by decide) | rfl

theorem joinSpellQueue_frame (e : SpellEntry) (s : State) : changesOnly [.spelling] s (joinSpellQueue e s) := by
  intro q hq; cases q <;> first | exact absurd hq (by decide) | rfl

theorem attemptWord_frame (first : Nat) (s : State) : changesOnly [.line, .spelling] s (attemptWord first s) := by
  unfold attemptWord; split
  · split
    · dsimp only; split
      · exact (setWord_frame _ _ _).mono (by decide)
      · split
        · exact .refl _ _
        · split
          · exact (setWord_frame _ _ _).mono (by decide)
          · exact (joinSpellQueue_frame _ _).then (setWord_frame _ _ _) (by decide) (by decide)
    · exact .refl _ _
  · exact .refl _ _

theorem attemptWords_frame (firsts : List Nat) (s : State) : changesOnly [.line, .spelling] s (attemptWords firsts s) :=
  .foldl _ (fun (t : State) (f : Nat) => attemptWord_frame f t) _ _

theorem dropLineSpelling_frame (serial : Nat) (s : State) : changesOnly [.spelling] s (dropLineSpelling serial s) := by
  intro q hq; cases q <;> first | exact absurd hq (by decide) | rfl

theorem setFragment_frame (p : Port) (f : Option Fragment) (s : State) : changesOnly [.spelling] s (setFragment p f s) := by
  intro q hq; cases q <;> first | exact absurd hq (by decide) | simp [Part.same]

theorem checkAlone_frame (p : Port) (f : Fragment) (s : State) : changesOnly [.spelling] s (checkAlone p f s) := by
  unfold checkAlone; split
  · exact joinSpellQueue_frame _ _
  · exact .refl _ _

theorem checkJoined_frame (edited : Bool) (s : State) : changesOnly [.line, .spelling] s (checkJoined edited s) := by
  unfold checkJoined; split
  · split
    · refine changesOnly.trans ?_ ((checkAlone_frame _ _ _).mono (by decide))
      intro q hq; cases q <;> first | exact absurd hq (by decide) | rfl
    · exact .refl _ _
  · exact .refl _ _

theorem releaseJoined_frame (s : State) : changesOnly [.line, .spelling] s (releaseJoined s) := by
  unfold releaseJoined; split
  · split
    · exact .refl _ _
    · refine changesOnly.trans ?_ ((checkAlone_frame _ _ _).mono (by decide))
      intro q hq; cases q <;> first | exact absurd hq (by decide) | rfl
  · exact .refl _ _

theorem resolveFragments_frame (p : Port) (s : State) : changesOnly [.line, .spelling] s (resolveFragments p s) := by
  have h (u : State) (hu : changesOnly [.line, .spelling] s u) : changesOnly [.line, .spelling] s
      (match u.spelling.fragment p with
        | some f => setFragment p none { u with line := { u.line with joined := some f } }
        | none => u) := by
    split
    · refine hu.trans (changesOnly.trans ?_ ((setFragment_frame _ _ _).mono (by decide)))
      intro q hq; cases q <;> first | exact absurd hq (by decide) | rfl
    · exact hu
  refine h _ ?_
  split
  · exact (setFragment_frame _ _ _).then (checkAlone_frame _ _ _) (by decide) (by decide)
  · exact .refl _ _

theorem rebuildWords_frame (edited : Bool) (s : State) : changesOnly [.line, .spelling] s (rebuildWords edited s) := by
  refine changesOnly.trans (changesOnly.trans ?_ (checkJoined_frame _ _)) (attemptWords_frame _ _)
  intro q hq; cases q <;> first | exact absurd hq (by decide) | rfl

/-- R131: an edit of the line changes its word list and the Spelling Unit. -/
theorem editSpelling_frame (s : State) : changesOnly [.line, .spelling] s (editSpelling s) :=
  ((dropLineSpelling_frame _ _).mono (by decide)).trans (rebuildWords_frame _ _)

theorem unmapLine_frame (s : State) : changesOnly [.line, .spelling] s (unmapLine s) := by
  refine changesOnly.trans ?_ (checkJoined_frame _ _)
  intro q hq; cases q <;> first | exact absurd hq (by decide) | rfl

theorem extendSpelling_frame (s : State) : changesOnly [.line, .spelling] s (extendSpelling s) := by
  refine changesOnly.trans (changesOnly.trans ?_ (checkJoined_frame _ _)) (attemptWords_frame _ _)
  intro q hq; cases q <;> first | exact absurd hq (by decide) | rfl

theorem dropOwnFragment_frame (p : Port) (s : State) : changesOnly [.spelling] s (dropOwnFragment p s) := by
  unfold dropOwnFragment; split
  · split
    · exact setFragment_frame _ _ _
    · exact .refl _ _
  · exact .refl _ _

/-- R130, R143: line end changes the word list and the Spelling Unit. -/
theorem lineEndSpelling_frame (byReturn : Bool) (s : State) :
    changesOnly [.line, .spelling] s (lineEndSpelling byReturn s) := by
  unfold lineEndSpelling; split
  · exact .refl _ _
  · rename_i p _
    refine ((dropOwnFragment_frame p s).mono (by decide)).trans ?_
    dsimp only; split
    · split
      · exact ((setFragment_frame _ _ _).mono (by decide)).trans (attemptWords_frame _ _)
      · exact attemptWords_frame _ _
    · exact .refl _ _

/-! ### Suspects and results -/

theorem placeOnPaper_frame (x : Suspect) (s : State) : changesOnly [.spelling] s (placeOnPaper x s) := by
  unfold placeOnPaper; split
  · intro q hq; cases q <;> first | exact absurd hq (by decide) | rfl
  · exact .refl _ _

theorem startPrinting_frame (serial : Nat) (s : State) : changesOnly [.spelling] s (startPrinting serial s) := by
  intro q hq; cases q <;> first | exact absurd hq (by decide) | rfl

theorem examinePrinting_frame (serial : Nat) (s : State) : changesOnly [.spelling] s (examinePrinting serial s) := by
  unfold examinePrinting; split
  · refine changesOnly.trans ?_ (.foldl _ (fun (t : State) (x : Suspect) => placeOnPaper_frame x t) _ _)
    intro q hq; cases q <;> first | exact absurd hq (by decide) | rfl
  · exact .refl _ _

theorem suspectResult_frame (p : Port) (e : SpellEntry) (s : State) :
    changesOnly [.ofPort p, .tones, .spelling] s (suspectResult p e s) := by
  have h (b : Block) : changesOnly [.ofPort p, .tones, .spelling] s ((s.tone .suspect).notice p b) :=
    (s.tone_frame .suspect).then (State.notice_frame _ p b) (by simp) (by simp)
  have k (t : State) (u : Spelling) : changesOnly [.ofPort p, .tones, .spelling] t { t with spelling := u } := by
    refine changesOnly.mono (a := [.spelling]) ?_ (by simp)
    intro q hq; cases q <;> first | exact absurd hq (by decide) | rfl
  refine (h (Notice.suspectFound e.serial e.first e.count e.letters)).trans ?_
  unfold suspectResult; dsimp only; split
  · exact k _ _
  · split
    · exact k _ _
    · exact (placeOnPaper_frame _ _).mono (by simp)

theorem answerQuery_frame (tag result : Nat) (s : State) : changesOnly [.link, .spelling] s (answerQuery tag result s) := by
  intro q hq; cases q <;> first | exact absurd hq (by decide) | rfl

/-- R137: a result in its word record. -/
theorem recordResult_frame (e : SpellEntry) (good : Bool) (s : State) : changesOnly [.line] s (recordResult e good s) := by
  unfold recordResult; split
  · intro q hq; cases q <;> first | exact absurd hq (by decide) | rfl
  · exact .refl _ _

/-- R137: a result changes the line's word list, the Spelling Unit, the tones and the queue of the port it goes to. -/
theorem deliver_frame (e : SpellEntry) (good : Bool) (s : State) :
    changesOnly [.console, .link, .line, .tones, .spelling] s (deliver e good s) := by
  have hp (p : Port) : [Part.ofPort p, .tones, .spelling] ⊆ [.console, .link, .line, .tones, .spelling] := by
    cases p <;> decide
  unfold deliver; split
  · exact (answerQuery_frame _ _ _).mono (by decide)
  · dsimp only; split
    · exact (recordResult_frame _ _ _).mono (by decide)
    · exact (recordResult_frame _ _ _).then (suspectResult_frame _ _ _) (by decide) (hp _)

theorem lookupRead_frame (bytes : List Byte) (s : State) :
    changesOnly [.console, .link, .line, .tones, .spelling] s (lookupRead bytes s) := by
  have h : changesOnly [.console, .link, .line, .tones, .spelling] s
      { s with spelling := { s.spelling with queue := s.spelling.queue.filter (!·.inFlight) } } := by
    intro q hq; cases q <;> first | exact absurd hq (by decide) | rfl
  unfold lookupRead; split
  · exact .refl _ _
  · dsimp only; split
    · exact h
    · split
      · exact h.trans (deliver_frame _ _ _)
      · exact h.trans (deliver_frame _ _ _)
      · intro q hq; cases q <;> first | exact absurd hq (by decide) | rfl

/-- R138: when the lexicon is lost, words, queries and their answers are all that changes. -/
theorem lexiconLost_frame (s : State) : changesOnly [.link, .line, .spelling] s (lexiconLost s) := by
  unfold lexiconLost; dsimp only
  refine changesOnly.trans (changesOnly.trans ?_ (.foldl _ (fun (t : State) (e : SpellEntry) => ?_) _ _))
    (.foldl _ (fun (t : State) (q : Query) => (answerQuery_frame q.tag 2 t).mono (by decide)) _ _)
  · intro q hq; cases q <;> first | exact absurd hq (by decide) | rfl
  · split
    · exact .refl _ _
    · split
      · exact (answerQuery_frame _ _ _).mono (by decide)
      · split
        · intro q hq; cases q <;> first | exact absurd hq (by decide) | rfl
        · exact .refl _ _

/-! ### What ends a step -/

theorem fillFromChecking_frame (s : State) : changesOnly [.line, .spelling] s (fillFromChecking s) := by
  unfold fillFromChecking; split
  · exact attemptWords_frame _ _
  · exact .refl _ _

theorem fillFromChecking_idle {s : State} (h : s.line.phase ≠ .checking) : fillFromChecking s = s := by
  simp [fillFromChecking, h]

theorem fillQueries_frame (done l : List Query) (s : State) : changesOnly [.spelling] s (fillQueries done l s) := by
  induction l generalizing done s with
  | nil => intro q hq; cases q <;> first | exact absurd hq (by decide) | rfl
  | cons x l ih =>
    unfold fillQueries; split
    · exact (joinSpellQueue_frame _ _).trans (ih _ _)
    · exact ih _ _

theorem fillFromQueries_idle {s : State} (h : s.spelling.queries = []) : fillFromQueries s = s := by
  unfold fillFromQueries; rw [h]; unfold fillQueries; rw [← h]

theorem holdTest_frame (s : State) : changesOnly [.line, .console, .tones] s (holdTest s) := by
  unfold holdTest; split
  · dsimp only; split
    · refine changesOnly.trans (changesOnly.trans ?_ ((State.notice_frame _ .console _).mono (by decide)))
        ((State.tone_frame _ _).mono (by decide))
      intro q hq; cases q <;> first | exact absurd hq (by decide) | rfl
    · intro q hq; cases q <;> first | exact absurd hq (by decide) | rfl
  · exact .refl _ _

theorem holdTest_idle {s : State} (h : s.line.phase ≠ .checking) : holdTest s = s := by simp [holdTest, h]

theorem settleSpelling_frame (s : State) :
    changesOnly [.line, .console, .tones, .spelling] s (settleSpelling s) :=
  (((fillFromChecking_frame s).mono (by decide)).trans ((fillQueries_frame _ _ _).mono (by decide))).trans
    ((holdTest_frame _).mono (by decide))

/-- With no line in Checking the Spelling Unit does no more than queue what waits. -/
theorem settleSpelling_unheld {s : State} (h : s.line.phase ≠ .checking) : settleSpelling s = fillFromQueries s := by
  unfold settleSpelling
  rw [fillFromChecking_idle h]
  refine holdTest_idle ?_
  have := (fillQueries_frame [] s.spelling.queries s).same .line
  rw [show (fillFromQueries s).line = s.line from this]; exact h

end Sys2Proof.Machine
end

