-- ==== Sys2Proof/Laws/Engine.lean ====
section
/-! SUPPORT. What the operations of the working line, the Lift Unit, the Strike Engine and the Store Interface may
change. -/

namespace Sys2Proof.Machine

/-! ### The working line -/

theorem setPosition_frame (x : Nat) (s : State) : changesOnly [.line, .composer] s (setPosition x s) := by
  intro q hq; cases q <;> first | exact absurd hq (by decide) | rfl

/-- R33, R50: a new layout changes the line's cells and the compose position. -/
theorem relayLine_frame (s : State) : changesOnly [.line, .composer] s (relayLine s) := by
  unfold relayLine; split
  · exact .refl _ _
  · split
    · intro q hq; cases q <;> first | exact absurd hq (by decide) | rfl
    · split
      · intro q hq; cases q <;> first | exact absurd hq (by decide) | rfl
      · exact .refl _ _

theorem freeLine_frame (last : Port) (s : State) : changesOnly [.line, .composer, .display] s (freeLine last s) := by
  intro q hq; cases q <;> first | exact absurd hq (by decide) | rfl

/-- R40: a discarded line changes the line, the composer, the window and the Spelling Unit. -/
theorem discardLine_frame (s : State) : changesOnly [.line, .composer, .display, .spelling] s (discardLine s) := by
  unfold discardLine; split
  · exact .refl _ _
  · rename_i p _
    have h : changesOnly [.line, .composer, .display, .spelling] s
        (freeLine p (releaseJoined (dropLineSpelling s.line.serial s))) :=
      (((dropLineSpelling_frame _ _).mono (by decide)).trans ((releaseJoined_frame _).mono (by decide))).trans
        ((freeLine_frame _ _).mono (by decide))
    dsimp only; split
    · exact h.trans ((setPosition_frame _ _).mono (by decide))
    · exact h

/-! ### The Lift Unit -/

theorem setRelocatePoint_frame (s : State) : changesOnly [.lift] s (setRelocatePoint s) := by
  unfold setRelocatePoint; split
  · intro q hq; cases q <;> first | exact absurd hq (by decide) | rfl
  · exact .refl _ _

theorem beginAway_frame (t : Target) (s : State) :
    changesOnly [.line, .composer, .display, .spelling, .lift] s (beginAway t s) := by
  refine changesOnly.trans (changesOnly.trans ((discardLine_frame s).mono (by decide)) ?_)
    ((setPosition_frame _ _).mono (by decide))
  intro q hq; cases q <;> first | exact absurd hq (by decide) | rfl

theorem positionAfterLift_frame (c : Correction) (s : State) :
    changesOnly [.line, .composer] s (positionAfterLift c s) := by
  unfold positionAfterLift; split
  · exact .refl _ _
  · split
    · exact setPosition_frame _ _
    · exact .refl _ _

theorem liftDone_frame (source : Port) (c : Correction) (outcome : Nat) (s : State) :
    changesOnly [.console, .link] s (liftDone source c outcome s) :=
  (State.notice_frame _ _ _).mono (by cases source <;> decide)

theorem reopenAfter_frame (c : Correction) (s : State) : changesOnly [.memory] s (reopenAfter c s) := by
  unfold reopenAfter; split
  · exact reopen_frame _ _
  · exact .refl _ _

theorem endCorrection_frame (source : Port) (c : Correction) (outcome : Nat) (s : State) :
    changesOnly [.console, .link, .line, .composer, .memory] s (endCorrection source c outcome s) :=
  (((liftDone_frame source c outcome s).mono (by decide)).trans ((positionAfterLift_frame c _).mono (by decide))).trans
    ((reopenAfter_frame c _).mono (by decide))

theorem appendOwed_frame (s : State) : changesOnly [.engine, .restTimer, .lift] s (appendOwed s) := by
  unfold appendOwed; split
  · refine changesOnly.trans ?_ ((appendJob_frame _ _).mono (by decide))
    intro q hq; cases q <;> first | exact absurd hq (by decide) | rfl
  · exact .refl _ _

theorem endAway_frame (s : State) : changesOnly [.line, .composer, .display, .lift] s (endAway s) := by
  refine changesOnly.trans ((freeLine_frame .console s).mono (by decide)) ?_
  intro q hq; cases q <;> first | exact absurd hq (by decide) | rfl

/-! ### Reports of jobs -/

theorem lineDone_frame (source : Port) (serial struck dropped : Nat) (s : State) :
    changesOnly [.console, .link, .spelling, .tones] s (lineDone source serial struck dropped s) := by
  have h : changesOnly [.console, .link, .spelling, .tones] s
      (examinePrinting serial (s.notice source (Notice.lineDone serial struck dropped))) :=
    (State.notice_frame _ _ _).then (examinePrinting_frame _ _) (by cases source <;> decide) (by decide)
  unfold lineDone; dsimp only; split
  · exact h.trans ((State.tone_frame _ _).mono (by decide))
  · exact h

theorem lineCancelled_frame (source : Port) (serial struck : Nat) (s : State) :
    changesOnly [.console, .link, .spelling] s (lineCancelled source serial struck s) :=
  (State.notice_frame _ _ _).then (examinePrinting_frame _ _) (by cases source <;> decide) (by decide)

theorem reportCancelled_frame (j : Job) (s : State) :
    changesOnly [.console, .link, .line, .composer, .memory, .spelling] s (reportCancelled j s) := by
  unfold reportCancelled; split
  · exact (endCorrection_frame _ _ _ _).mono (by decide)
  · exact (lineCancelled_frame _ _ _ _).mono (by decide)

theorem reportFaulted_frame (j : Job) (s : State) : changesOnly [.console, .link, .spelling] s (reportFaulted j s) := by
  unfold reportFaulted; split
  · exact (liftDone_frame _ _ _ _).mono (by decide)
  · exact lineCancelled_frame _ _ _ _

theorem tallyStroke_frame (j : Job) (s : State) :
    changesOnly [.console, .link, .spelling, .tones, .engine] s (tallyStroke j s) := by
  unfold tallyStroke; dsimp only; split
  · refine changesOnly.trans ?_ ((lineDone_frame _ _ _ _ _).mono (by decide))
    intro q hq; cases q <;> first | exact absurd hq (by decide) | rfl
  · intro q hq; cases q <;> first | exact absurd hq (by decide) | rfl

theorem supplyLow_frame (s : State) : changesOnly [.console, .link] s (supplyLow s) := State.noticeBoth_frame _ _

theorem setHead_frame (g : Job → Job) (s : State) : changesOnly [.engine] s (setHead g s) := by
  intro q hq; cases q <;> first | exact absurd hq (by decide) | simp [Part.same]

/-! ### Orders -/

/-- The parts that the completion of an order may change. -/
def orderParts : List Part := [.console, .link, .line, .engine, .memory, .lift, .spelling]

/-- R73: a completed Strike. -/
theorem completeStrike_frame (k : Strike) (s : State) : changesOnly orderParts s (completeStrike k s) := by
  unfold completeStrike; split
  · exact .refl _ _
  · dsimp only
    refine changesOnly.trans (changesOnly.trans ?_ ((recordStrike_frame _ _ _ _ _).mono (by decide)))
      ((setHead_frame _ _).mono (by decide))
    split
    · refine changesOnly.trans ?_ ((supplyLow_frame _).mono (by decide))
      intro q hq; cases q <;> first | exact absurd hq (by decide) | rfl
    · intro q hq; cases q <;> first | exact absurd hq (by decide) | rfl

theorem removeLiftedCell_frame (serial : Nat) (e : StrikeEntry) (s : State) :
    changesOnly [.line, .spelling] s (removeLiftedCell serial e s) := by
  unfold removeLiftedCell; split
  · split
    · exact .refl _ _
    · dsimp only; split
      · refine changesOnly.trans ?_ (editSpelling_frame _)
        intro q hq; cases q <;> first | exact absurd hq (by decide) | rfl
      · refine changesOnly.trans ?_ (unmapLine_frame _)
        intro q hq; cases q <;> first | exact absurd hq (by decide) | rfl
  · exact .refl _ _

theorem withdrawLifted_frame (serial cell : Nat) (s : State) :
    changesOnly [.spelling] s (withdrawLifted serial cell s) := by
  intro q hq; cases q <;> first | exact absurd hq (by decide) | rfl

/-- R118: a completed Lift. -/
theorem completeLift_frame (record : Nat) (e : StrikeEntry) (s : State) :
    changesOnly orderParts s (completeLift record e s) := by
  unfold completeLift; dsimp only
  refine changesOnly.trans (changesOnly.trans (changesOnly.trans (changesOnly.trans ?_
    ((removeEntry_frame record e.name _).mono (by decide))) ((setHead_frame _ _).mono (by decide)))
    ((withdrawLifted_frame _ _ _).mono (by decide))) ((removeLiftedCell_frame _ _ _).mono (by decide))
  split
  · refine changesOnly.trans ?_ ((supplyLow_frame _).mono (by decide))
    intro q hq; cases q <;> first | exact absurd hq (by decide) | rfl
  · intro q hq; cases q <;> first | exact absurd hq (by decide) | rfl

/-- R74, R75, R96: a completed Feed. -/
theorem completeFeed_frame (n : Int) (s : State) : changesOnly orderParts s (completeFeed n s) := by
  have h (u : State) (hu : changesOnly orderParts s u) (b : Bool) (lines : Int) :
      changesOnly orderParts s (match b, s.engine.queue with
        | true, j :: _ => u.notice j.source (Notice.pageEnd (j.serial.getD 0) lines)
        | _, _ => u) := by
    split
    · rename_i j _ _
      exact hu.trans ((State.notice_frame _ _ _).mono (by cases j.source <;> decide))
    · exact hu
  refine h _ ?_ _ _
  refine changesOnly.trans ?_ ((closeByFeed_frame _).mono (by decide))
  intro q hq; cases q <;> first | exact absurd hq (by decide) | rfl

/-- R76, R108: a completed Eject. -/
theorem completeEject_frame (s : State) : changesOnly orderParts s (completeEject s) := by
  refine changesOnly.trans ?_ ((emptyMemory_frame _).mono (by decide))
  intro q hq; cases q <;> first | exact absurd hq (by decide) | rfl

theorem beginOrder_frame (o : Order) (s : State) : changesOnly orderParts s (beginOrder o s).state := by
  unfold beginOrder; split
  · intro q hq; cases q <;> first | exact absurd hq (by decide) | rfl
  · intro q hq; cases q <;> first | exact absurd hq (by decide) | rfl
  · split
    · exact .refl _ _
    · intro q hq; cases q <;> first | exact absurd hq (by decide) | rfl
  · split
    · exact completeFeed_frame _ _
    · intro q hq; cases q <;> first | exact absurd hq (by decide) | rfl
  · split
    · exact completeEject_frame _
    · intro q hq; cases q <;> first | exact absurd hq (by decide) | rfl

/-! ### The run of the Print Queue -/

/-- The parts that the engine may change as it goes from job to job: all but the settings and the hold limit timer. -/
def engineParts : List Part :=
  [.console, .link, .line, .composer, .engine, .memory, .lift, .spelling, .display, .tones, .restTimer]

theorem enterReady_frame (s : State) : changesOnly [.engine, .restTimer] s (enterReady s) := by
  intro q hq; cases q <;> first | exact absurd hq (by decide) | rfl

theorem enterSupplyOut_frame (s : State) : changesOnly [.engine, .restTimer] s (enterSupplyOut s) := by
  intro q hq; cases q <;> first | exact absurd hq (by decide) | rfl

theorem popHead_frame (s : State) : changesOnly [.engine] s (popHead s) := by
  intro q hq; cases q <;> first | exact absurd hq (by decide) | rfl

theorem refuseLift_frame (source : Port) (command : LiftCommand) (reason : LiftReason) (s : State) :
    changesOnly engineParts s (refuseLift source command reason s) := by
  unfold refuseLift; dsimp only
  refine changesOnly.trans ?_ ((appendOwed_frame _).mono (by decide))
  have h : changesOnly engineParts s
      ((popHead s).notice source (Notice.liftRefused command.code reason.code)) :=
    (popHead_frame s).then (State.notice_frame _ _ _) (by decide) (by cases source <;> decide)
  split
  · exact h.trans ((State.tone_frame _ _).mono (by decide))
  · exact h

theorem startWith_frame (g : Job → Job) (s : State) : changesOnly [.engine, .restTimer] s (startWith g s) := by
  refine changesOnly.trans ((setHead_frame (fun j => { g j with started := true }) s).mono (by decide)) ?_
  intro q hq; cases q <;> first | exact absurd hq (by decide) | rfl

/-- R112 to R121: the resolution of a Correction job. -/
theorem resolveCorrection_frame (j : Job) (c : Correction) (behind : List Job) (s : State) :
    changesOnly engineParts s (resolveCorrection j c behind s) := by
  unfold resolveCorrection; split
  · exact refuseLift_frame _ _ _ _
  · split
    · exact refuseLift_frame _ _ _ _
    · rename_i t _ _ _
      have h (g : Job → Job) : changesOnly engineParts s (startWith g (setRelocatePoint s)) :=
        (setRelocatePoint_frame s).then (startWith_frame g _) (by decide) (by decide)
      dsimp only; split
      · exact (h _).trans ((beginAway_frame _ _).mono (by decide))
      · exact h _

theorem startHead_frame (j : Job) (behind : List Job) (s : State) :
    changesOnly engineParts s (startHead j behind s) := by
  unfold startHead; split
  · exact resolveCorrection_frame _ _ _ _
  · split
    · split <;> exact (startWith_frame _ _).mono (by decide)
    · exact (startWith_frame _ _).mono (by decide)

/-- R124: the end of a Relocate. -/
theorem endRelocate_frame (target : Nat) (s : State) : changesOnly engineParts s (endRelocate target s) := by
  have h1 : changesOnly engineParts s (restore s) := (restore_frame s).mono (by decide)
  have h2 (u : State) (hu : changesOnly engineParts s u) (x : Nat) :
      changesOnly engineParts s (if consoleDirect u then setPosition x u else u) := by
    split
    · exact hu.trans ((setPosition_frame _ _).mono (by decide))
    · exact hu
  have h3 (u : State) (hu : changesOnly engineParts s u) (l : LiftUnit) :
      changesOnly engineParts s { u with lift := l } := by
    refine hu.trans ?_
    intro q hq; cases q <;> first | exact absurd hq (by decide) | rfl
  refine h3 _ (h2 _ ?_ target) _
  dsimp only; split
  · refine changesOnly.trans (changesOnly.trans (h1.trans ?_)
      (.foldl _ (fun (u : State) (j : Job) => (reportCancelled_frame j u).mono (by decide)) _ _))
      ((endAway_frame _).mono (by decide))
    intro q hq; cases q <;> first | exact absurd hq (by decide) | rfl
  · exact h1

/-- R67: a completed job. -/
theorem completeHead_frame (j : Job) (s : State) : changesOnly engineParts s (completeHead j s) := by
  have h : changesOnly engineParts s (popHead s) := (popHead_frame s).mono (by decide)
  unfold completeHead; dsimp only
  refine changesOnly.trans ?_ ((appendOwed_frame _).mono (by decide))
  split
  · exact h.trans ((lineDone_frame _ _ _ _ _).mono (by decide))
  · exact h.trans ((tallyStroke_frame _ _).mono (by decide))
  · have k := h.trans ((lineDone_frame j.source 0 0 0 (popHead s)).mono (by decide))
    split
    · exact k.trans (endRelocate_frame _ _)
    · exact k
  · split
    · exact h.trans ((endCorrection_frame _ _ _ _).mono (by decide))
    · exact h

/-- R67, R88: the run of the Print Queue changes none of the settings. -/
theorem runQueue_frame (fuel : Nat) (s : State) : changesOnly engineParts s (runQueue fuel s) := by
  induction fuel generalizing s with
  | zero => exact .refl _ _
  | succ n ih =>
    unfold runQueue; split
    · exact (enterReady_frame _).mono (by decide)
    · split
      · split
        · exact (completeHead_frame _ _).trans (ih _)
        · split
          · exact (enterSupplyOut_frame _).mono (by decide)
          · have h (o : Order) : changesOnly engineParts s (beginOrder o s).state :=
              (beginOrder_frame o s).mono (by decide)
            dsimp only; split
            · exact ((h _).trans ((setHead_frame _ _).mono (by decide))).trans (ih _)
            · exact h _
      · split
        · exact (enterSupplyOut_frame _).mono (by decide)
        · exact (startHead_frame _ _ _).trans (ih _)

theorem goOn_frame (s : State) : changesOnly engineParts s (goOn s) := runQueue_frame _ _

theorem orderDone_frame (s : State) : changesOnly engineParts s (orderDone s) := by
  unfold orderDone; split
  · exact .refl _ _
  · split
    · refine changesOnly.trans ?_ (goOn_frame _)
      unfold removeCancelledHead; split
      · exact .refl _ _
      · exact (((popHead_frame s).mono (by decide)).trans ((reportCancelled_frame _ _).mono (by decide))).trans
          ((appendOwed_frame _).mono (by decide))
    · exact ((setHead_frame _ _).mono (by decide)).trans (goOn_frame _)

theorem startJob_frame (s : State) : changesOnly engineParts s (startJob s) := by
  unfold startJob; split
  · exact goOn_frame _
  · exact .refl _ _

/-! ### Cancel Printing, Fault, the end of a homing -/

theorem releaseCancelled_frame (removed : List Job) (s : State) :
    changesOnly engineParts s (releaseCancelled removed s) := by
  have h : changesOnly engineParts s
      (if removed.any (·.kind == .stroke) then { s with engine := { s.engine with tally := .clear } } else s) := by
    split
    · intro q hq; cases q <;> first | exact absurd hq (by decide) | rfl
    · exact .refl _ _
  have k := h.trans ((discardLine_frame _).mono (by decide))
  unfold releaseCancelled; dsimp only; split
  · refine changesOnly.trans ?_ ((setPosition_frame _ _).mono (by decide))
    split
    · refine k.trans ?_
      intro q hq; cases q <;> first | exact absurd hq (by decide) | rfl
    · exact k
  · exact h

/-- R90: Cancel Printing. -/
theorem cancelJobs_frame (p : Port) (s : State) : changesOnly engineParts s (cancelJobs p s).1 := by
  unfold cancelJobs; dsimp only
  refine changesOnly.trans (changesOnly.trans (changesOnly.trans ?_
    (.foldl _ (fun (u : State) (j : Job) => (reportCancelled_frame j u).mono (by decide)) _ _))
    (releaseCancelled_frame _ _)) ((appendOwed_frame _).mono (by decide))
  intro q hq; cases q <;> first | exact absurd hq (by decide) | rfl

/-- R89, R126: Fault. -/
theorem enterFault_frame (cause : FaultCause) (s : State) : changesOnly engineParts s (enterFault cause s) := by
  have h3 (u : State) (hu : changesOnly engineParts s u) : changesOnly engineParts s
      (if u.line.holder == some .console && u.line.mode == .direct then setPosition u.format.left (discardLine u)
       else u) := by
    split
    · exact (hu.trans ((discardLine_frame _).mono (by decide))).trans ((setPosition_frame _ _).mono (by decide))
    · exact hu
  have h4 (u : State) (hu : changesOnly engineParts s u) (d : Display) :
      changesOnly engineParts s { u with display := d } := by
    refine hu.trans ?_
    intro q hq; cases q <;> first | exact absurd hq (by decide) | rfl
  have h5 (u : State) (hu : changesOnly engineParts s u) : changesOnly engineParts s
      (if u.lift.away then { restore u with lift := { (restore u).lift with
          away := false, target := none, point := none, owed := false } } else u) := by
    split
    · refine (hu.trans ((restore_frame u).mono (by decide))).trans ?_
      intro q hq; cases q <;> first | exact absurd hq (by decide) | rfl
    · exact hu
  have h2 (u : State) (hu : changesOnly engineParts s u) (b : Block) : changesOnly engineParts s
      (({ u with engine := { u.engine with tally := .clear } } : State).noticeBoth b) := by
    refine (hu.trans ?_).trans ((State.noticeBoth_frame _ _).mono (by decide))
    intro q hq; cases q <;> first | exact absurd hq (by decide) | rfl
  refine h5 _ (h4 _ (h3 _ (h2 _ (changesOnly.trans ?_
    (.foldl _ (fun (u : State) (j : Job) => (reportFaulted_frame j u).mono (by decide)) _ _)) _)) _)
  intro q hq; cases q <;> first | exact absurd hq (by decide) | rfl

theorem homingLoaded_frame (m : PetalMap) (announce : Bool) (s : State) :
    changesOnly engineParts s (homingLoaded m announce s) := by
  have h2 (u : State) (hu : changesOnly engineParts s u) : changesOnly engineParts s
      (if u.engine.ribbon = 0 then enterSupplyOut u else enterReady u) := by
    split
    · exact hu.trans ((enterSupplyOut_frame _).mono (by decide))
    · exact hu.trans ((enterReady_frame _).mono (by decide))
  have h3 (u : State) (hu : changesOnly engineParts s u) : changesOnly engineParts s
      (if announce then u.noticeBoth (Notice.wheelLoaded m.wheelId m.pitch.code) else u) := by
    split
    · exact hu.trans ((State.noticeBoth_frame _ _).mono (by decide))
    · exact hu
  refine changesOnly.trans (h3 _ (h2 _ ?_)) ((relayLine_frame _).mono (by decide))
  intro q hq; cases q <;> first | exact absurd hq (by decide) | rfl

theorem homingRefused_frame (hub reason : Nat) (s : State) :
    changesOnly engineParts s (homingRefused hub reason s) := by
  refine changesOnly.trans ?_ ((State.noticeBoth_frame _ _).mono (by decide))
  intro q hq; cases q <;> first | exact absurd hq (by decide) | rfl

theorem newPage_frame (s : State) : changesOnly engineParts s (newPage s) := by
  refine changesOnly.trans ?_ ((emptyMemory_frame _).mono (by decide))
  intro q hq; cases q <;> first | exact absurd hq (by decide) | rfl

end Sys2Proof.Machine
end

