-- ==== Sys2Proof/Laws/Store.lean ====
section
/-! SUPPORT. What the operations of the Store Interface and the Line Composer may change, and the frame of a step's end. -/

namespace Sys2Proof.Machine

/-! ### The arbiter and the end of a step -/

/-- The parts that the blocks may change as they act on their own: all but the settings, the hold limit timer and the
queue of waiting commands. -/
def actParts : List Part :=
  [.console, .link, .line, .composer, .engine, .memory, .lift, .spelling, .store, .display, .tones, .restTimer]

theorem putOnLink_frame (owner : LinkOwner) (op : StoreOp) (s : State) : changesOnly [.store] s (putOnLink owner op s) := by
  intro q hq; cases q <;> first | exact absurd hq (by decide) | rfl

/-- R16: a grant changes the Store Interface, and the mark of the lookup it starts. -/
theorem arbitrate_frame (s : State) : changesOnly [.store, .spelling] s (arbitrate s) := by
  unfold arbitrate; split
  · split
    · exact (putOnLink_frame _ _ _).mono (by decide)
    · exact (putOnLink_frame _ _ _).mono (by decide)
    · intro q hq; cases q <;> first | exact absurd hq (by decide) | rfl
    · exact .refl _ _
  · exact .refl _ _

/-- R16: no grant while the link is taken, or the store not Present. -/
theorem arbitrate_idle {s : State} (h : s.store.link.isSome ∨ s.store.state ≠ .present) : arbitrate s = s := by
  unfold arbitrate
  rcases h with h | h
  · cases hl : s.store.link <;> simp_all
  · simp [h]

/-- The Spelling Unit and the arbiter at the end of a step. -/
theorem settle_frame (s : State) : changesOnly [.line, .console, .tones, .spelling, .store] s (settle s) :=
  (settleSpelling_frame s).then (arbitrate_frame _) (by decide) (by decide)

theorem settle_unheld {s : State} (h : s.line.phase ≠ .checking) : changesOnly [.spelling, .store] s (settle s) := by
  unfold settle; rw [settleSpelling_unheld h]
  exact (fillQueries_frame _ _ _).then (arbitrate_frame _) (by decide) (by decide)

theorem settle_idle {s : State} (h : s.line.phase ≠ .checking) (hq : s.spelling.queries = [])
    (hl : s.store.link.isSome ∨ s.store.state ≠ .present) : settle s = s := by
  unfold settle; rw [settleSpelling_unheld h, fillFromQueries_idle hq, arbitrate_idle hl]

theorem endStep_frame (s : State) :
    changesOnly [.line, .console, .tones, .spelling, .store, .display, .holdTimer] s (endStep s) :=
  (settle_frame s).then (finish_frame _) (by decide) (by decide)

theorem endStep_unheld {s : State} (h : s.line.phase ≠ .checking) :
    changesOnly [.spelling, .store, .display, .holdTimer] s (endStep s) :=
  (settle_unheld h).then (finish_frame _) (by decide) (by decide)

theorem endStep_idle {s : State} (h : s.line.phase ≠ .checking) (hq : s.spelling.queries = [])
    (hl : s.store.link.isSome ∨ s.store.state ≠ .present) : endStep s = finish s := by
  unfold endStep; rw [settle_idle h hq hl]

/-- The display after the end of a step follows the new state, when the step's own work left it alone. -/
theorem endStep_displayFollows {s u : State} (h : u.display = s.display) : displayFollows s (endStep u) := by
  have e : (settle u).display = s.display := ((settle_frame u).same .display).trans h
  unfold displayFollows endStep; rw [← e]; rfl

/-- R27: so does the hold limit timer. -/
theorem endStep_holdFollows {s u : State} (h : u.holdTimer = s.holdTimer) : holdFollows s (endStep u) := by
  have e : (settle u).holdTimer = s.holdTimer := ((settle_frame u).same .holdTimer).trans h
  unfold holdFollows endStep; rw [← e]; rfl

/-- A step whose own work keeps to these parts, none of them the line, the Spelling Unit, the store, the display or the
hold limit timer, and which ends with `endStep`, has the frame of an event. -/
theorem eventFrame_of {parts : List Part} {s u : State} (h : changesOnly parts s u) (hl : .line ∉ parts)
    (hs : .spelling ∉ parts) (ht : .store ∉ parts) (hd : .display ∉ parts) (ho : .holdTimer ∉ parts) :
    eventFrame parts s (endStep u) := by
  have el : u.line = s.line := h .line hl
  have es : u.spelling = s.spelling := h .spelling hs
  have et : u.store = s.store := h .store ht
  refine ⟨?_, endStep_displayFollows (h .display hd), endStep_holdFollows (h .holdTimer ho), fun hp => ?_,
    fun hp hq hk => ?_⟩
  · exact h.then (endStep_frame u) (by simp) (by simp)
  · exact h.then (endStep_unheld (el ▸ hp)) (by simp) (by simp)
  · rw [endStep_idle (el ▸ hp) (es ▸ hq) (et ▸ hk)]
    exact h.then (finish_frame u) (by simp) (by simp)

/-! ### The store -/

theorem storeNotice_frame (s : State) : changesOnly [.console, .link] s (storeNotice s) := State.noticeBoth_frame _ _

theorem requestTable_frame (h : Nat) (s : State) : changesOnly actParts s (requestTable h s) := by
  have hl (m : PetalMap) : changesOnly actParts s (homingLoaded m true s) := (homingLoaded_frame m true s).mono (by decide)
  have hr (r : Nat) : changesOnly actParts s (homingRefused h r s) := (homingRefused_frame h r s).mono (by decide)
  have hw : changesOnly actParts s { s with store := { s.store with wheelRequest := some h } } := by
    intro q hq; cases q <;> first | exact absurd hq (by decide) | rfl
  unfold requestTable; split
  · exact hr _
  · split
    · exact hw
    · exact hl _
    · exact hl _
    · split
      · exact hl _
      · split
        · exact hr _
        · exact hw

theorem retakeRequest_frame (s : State) : changesOnly actParts s (retakeRequest s) := by
  unfold retakeRequest; split
  · exact .refl _ _
  · refine changesOnly.trans ?_ (requestTable_frame _ _)
    intro q hq; cases q <;> first | exact absurd hq (by decide) | rfl

theorem wheelRead_frame (bytes : List Byte) (s : State) : changesOnly actParts s (wheelRead bytes s) := by
  have h : changesOnly actParts s { s with store := { s.store with wheelRequest := none } } := by
    intro q hq; cases q <;> first | exact absurd hq (by decide) | rfl
  unfold wheelRead; split
  · exact .refl _ _
  · dsimp only; split
    · exact h.trans ((homingLoaded_frame _ _ _).mono (by decide))
    · exact h.trans ((homingRefused_frame _ _ _).mono (by decide))

/-- R3, R15, R138: entering a store state. -/
theorem enterStore_frame (state : StoreState) (s : State) : changesOnly actParts s (enterStore state s) := by
  have h (u : State) (hu : changesOnly actParts s u) :
      changesOnly actParts s (retakeRequest (if u.store.lexiconAvailable then u else lexiconLost u)) := by
    refine changesOnly.trans ?_ (retakeRequest_frame _)
    split
    · exact hu
    · exact hu.trans ((lexiconLost_frame _).mono (by decide))
  refine h _ (changesOnly.trans ?_ ((storeNotice_frame _).mono (by decide)))
  intro q hq; cases q <;> first | exact absurd hq (by decide) | rfl

theorem startUpWith_frame (step : StartStep) (op : StoreOp) (s : State) :
    changesOnly [.store] s (startUpWith step op s) := by
  intro q hq; cases q <;> first | exact absurd hq (by decide) | rfl

theorem startUsers_frame (s : State) : changesOnly actParts s (startUsers s) := by
  unfold startUsers; split
  · exact (startUpWith_frame _ _ _).mono (by decide)
  · exact enterStore_frame _ _

theorem readTableId_frame (t tables : Nat) (s : State) : changesOnly actParts s (readTableId t tables s) := by
  unfold readTableId; split
  · split
    · exact (startUpWith_frame _ _ _).mono (by decide)
    · exact startUsers_frame _
  · exact startUsers_frame _

theorem endExamination_frame (x : Examination) (s : State) : changesOnly actParts s (endExamination x s) := by
  refine changesOnly.trans ?_ (readTableId_frame _ _ _)
  intro q hq; cases q <;> first | exact absurd hq (by decide) | rfl

theorem goOnExamining_frame (entries : List RawEntry) (x : Examination) (s : State) :
    changesOnly actParts s (goOnExamining entries x s) := by
  unfold goOnExamining; split
  · exact endExamination_frame _ _
  · exact (startUpWith_frame _ _ _).mono (by decide)

theorem discardList_frame (s : State) : changesOnly actParts s (discardList s) := by
  refine changesOnly.trans ?_ (enterStore_frame .present _)
  intro q hq; cases q <;> first | exact absurd hq (by decide) | rfl

theorem userRecordsRead_frame (check : Nat) (magic : Bool) (bytes : List Byte) (s : State) :
    changesOnly actParts s (userRecordsRead check magic bytes s) := by
  unfold userRecordsRead; split
  · refine changesOnly.trans ?_ (enterStore_frame .present _)
    intro q hq; cases q <;> first | exact absurd hq (by decide) | rfl
  · exact discardList_frame _

theorem userHeaderRead_frame (bytes : List Byte) (s : State) : changesOnly actParts s (userHeaderRead bytes s) := by
  unfold userHeaderRead; dsimp only; split
  · exact discardList_frame _
  · split
    · exact (startUpWith_frame _ _ _).mono (by decide)
    · exact enterStore_frame _ _

/-- R3: a step of the start-up. -/
theorem startUpStep_frame (bytes : List Byte) (s : State) : changesOnly actParts s (startUpStep bytes s) := by
  have h (step : StartStep) (op : StoreOp) : changesOnly actParts s (startUpWith step op s) :=
    (startUpWith_frame step op s).mono (by decide)
  unfold startUpStep; split
  · exact .refl _ _
  · exact h _ _
  · exact h _ _
  · exact h _ _
  · split
    · exact h _ _
    · exact enterStore_frame _ _
  · exact goOnExamining_frame _ _ _
  · exact goOnExamining_frame _ _ _
  · refine changesOnly.trans ?_ (readTableId_frame _ _ _)
    intro q hq; cases q <;> first | exact absurd hq (by decide) | rfl
  · exact userHeaderRead_frame _ _
  · exact userRecordsRead_frame _ _ _ _

theorem saveStepDone_frame (s : State) : changesOnly actParts s (saveStepDone s) := by
  unfold saveStepDone; split
  · exact .refl _ _
  · split
    · rename_i v _ _ _
      refine changesOnly.trans ?_ ((State.notice_frame _ _ _).mono (by cases v.issuer <;> decide))
      intro q hq; cases q <;> first | exact absurd hq (by decide) | rfl
    · intro q hq; cases q <;> first | exact absurd hq (by decide) | rfl

/-- R15: the fault of the store. -/
theorem storeFault_frame (s : State) : changesOnly actParts s (storeFault s) := by
  have h (u : State) (hu : changesOnly actParts s u) : changesOnly actParts s (match u.store.save with
      | none => u
      | some v => ({ u with store := { u.store with save := none } } : State).notice v.issuer (Notice.saveDone 1)) := by
    split
    · exact hu
    · rename_i v _
      refine (hu.trans ?_).trans ((State.notice_frame _ _ _).mono (by cases v.issuer <;> decide))
      intro q hq; cases q <;> first | exact absurd hq (by decide) | rfl
  refine h _ (changesOnly.trans ?_ (enterStore_frame .faulted _))
  intro q hq; cases q <;> first | exact absurd hq (by decide) | rfl

/-! ### The Line Composer at work -/

/-- The parts that the composition of a stroke may change. -/
def composeParts : List Part := [.console, .line, .composer, .engine, .spelling, .display, .tones, .restTimer, .holdTimer]

theorem refuseStroke_frame (p : Port) (code : Status) (s : State) :
    changesOnly [.composer, .tones] s (refuseStroke p code s) := by
  intro q hq; cases q <;> first | exact absurd hq (by decide) | rfl

theorem ringBell_frame (edge : Nat) (s : State) : changesOnly [.line, .tones] s (ringBell edge s) := by
  unfold ringBell; split
  · intro q hq; cases q <;> first | exact absurd hq (by decide) | rfl
  · exact .refl _ _

/-- R20, R26, R144: a claim. -/
theorem claim_frame (p : Port) (s : State) : changesOnly [.line, .composer, .spelling] s (claim p s) := by
  refine changesOnly.trans (changesOnly.trans ?_ ((resolveFragments_frame p _).mono (by decide)))
    ((relayLine_frame _).mono (by decide))
  intro q hq; cases q <;> first | exact absurd hq (by decide) | rfl

theorem directInsert_frame (i : Nat) (c : Cell) (s : State) : changesOnly [.line, .spelling] s (directInsert i c s) := by
  have h : changesOnly [.line, .spelling] s { s with line := { s.line with cells := insertAt s.line.cells i c } } := by
    intro q hq; cases q <;> first | exact absurd hq (by decide) | rfl
  unfold directInsert; dsimp only; split
  · exact h.trans (extendSpelling_frame _)
  · exact h.trans (unmapLine_frame _)

theorem directReplace_frame (i : Nat) (c : Cell) (s : State) : changesOnly [.line, .spelling] s (directReplace i c s) := by
  refine changesOnly.trans ?_ (editSpelling_frame _)
  intro q hq; cases q <;> first | exact absurd hq (by decide) | rfl

theorem directMove_frame (x : Nat) (s : State) : changesOnly composeParts s (directMove x s) :=
  (setPosition_frame x s).then (appendJob_frame _ _) (by decide) (by decide)

/-- R29, R30: a Character in Direct mode. -/
theorem directCharacter_frame (m : PetalMap) (code : Byte) (k : Stroke) (s : State) :
    changesOnly composeParts s (directCharacter m code k s) := by
  have hb (edge : Nat) : changesOnly composeParts s (ringBell edge s) := (ringBell_frame edge s).mono (by decide)
  have hm (u : State) (hu : changesOnly composeParts s u) : changesOnly composeParts s
      (if (m.find code).isNone then u.notice .console (Notice.missingCharacter code u.line.serial) else u) := by
    split
    · exact hu.trans ((State.notice_frame _ .console _).mono (by decide))
    · exact hu
  have hr (c : Status) : changesOnly composeParts s (refuseStroke .console c s) :=
    (refuseStroke_frame _ _ _).mono (by decide)
  have hs (i edge : Nat) (c : Cell) (b : Bool) : changesOnly composeParts s
      (if b then directReplace i c (ringBell edge s) else directInsert i c (ringBell edge s)) :=
    .ite ((hb _).trans ((directReplace_frame _ _ _).mono (by decide)))
      ((hb _).trans ((directInsert_frame _ _ _).mono (by decide)))
  have hj (u : State) (hu : changesOnly composeParts s u) (j : Job) (x : Nat) :
      changesOnly composeParts s (appendJob j (setPosition x u)) :=
    (hu.trans ((setPosition_frame _ _).mono (by decide))).trans ((appendJob_frame _ _).mono (by decide))
  exact .ite (hr _) (.ite (hr _) (hj _ (hm _ (hs _ _ _ _)) _ _))

/-- R29, R30: a Space in Direct mode. -/
theorem directSpace_frame (m : PetalMap) (k : Stroke) (s : State) : changesOnly composeParts s (directSpace m k s) := by
  have hr (code : Status) : changesOnly composeParts s (refuseStroke .console code s) :=
    (refuseStroke_frame _ _ _).mono (by decide)
  have hi (i : Nat) (c : Cell) : changesOnly composeParts s (directInsert i c s) :=
    (directInsert_frame _ _ _).mono (by decide)
  have hj (u : State) (hu : changesOnly composeParts s u) (j : Job) (x : Nat) :
      changesOnly composeParts s (appendJob j (setPosition x u)) :=
    (hu.trans ((setPosition_frame _ _).mono (by decide))).trans ((appendJob_frame _ _).mono (by decide))
  exact .ite (hr _) (.ite (hr _) (hj _ (.ite (.refl _ _) (hi _ _)) _ _))

theorem directIndex_frame (rise feed : Int) (s : State) : changesOnly composeParts s (directIndex rise feed s) := by
  unfold directIndex; split
  · exact (refuseStroke_frame _ _ _).mono (by decide)
  · refine changesOnly.trans ?_ ((appendJob_frame _ _).mono (by decide))
    intro q hq; cases q <;> first | exact absurd hq (by decide) | rfl

theorem releaseDirect_frame (s : State) : changesOnly composeParts s (releaseDirect s) :=
  ((((appendJob_frame (returnJob s) s).mono (by decide)).trans ((startPrinting_frame _ _).mono (by decide))).trans
    ((freeLine_frame _ _).mono (by decide))).trans ((setPosition_frame _ _).mono (by decide))

/-- R29, R30, R41: a stroke in Direct mode. -/
theorem composeDirect_frame (m : PetalMap) (k : Stroke) (s : State) :
    changesOnly composeParts s (composeDirect m k s) := by
  have hr (code : Status) : changesOnly composeParts s (refuseStroke .console code s) :=
    (refuseStroke_frame _ _ _).mono (by decide)
  unfold composeDirect; split
  · exact directCharacter_frame _ _ _ _
  · exact directSpace_frame _ _ _
  · exact directMove_frame _ _
  · split
    · exact directMove_frame _ _
    · exact hr _
  · exact directIndex_frame _ _ _
  · exact directIndex_frame _ _ _
  · intro q hq; cases q <;> first | exact absurd hq (by decide) | rfl
  · split
    · exact hr _
    · exact ((lineEndSpelling_frame _ _).mono (by decide)).trans (releaseDirect_frame _)
  · exact hr _
  · exact hr _
  · exact hr _
  · exact hr _

/-- The parts that a stroke in Line mode may change: it makes no job and moves nothing. -/
def lineParts : List Part := [.line, .composer, .spelling, .tones, .holdTimer]

theorem lineInsert_frame (c : Cell) (s : State) : changesOnly lineParts s (lineInsert c s) := by
  have h (l : WorkingLine) : changesOnly lineParts s (relayLine { s with line := l }) := by
    refine changesOnly.trans ?_ ((relayLine_frame _).mono (by decide))
    intro q hq; cases q <;> first | exact absurd hq (by decide) | rfl
  unfold lineInsert; dsimp only; split
  · exact (h _).trans ((extendSpelling_frame _).mono (by decide))
  · exact (h _).trans ((editSpelling_frame _).mono (by decide))

theorem cutWords_frame (s : State) : changesOnly [.line] s (cutWords s) := by
  intro q hq; cases q <;> first | exact absurd hq (by decide) | rfl

/-- R34: a wrap. -/
theorem wrapLine_frame (p : Port) (m : PetalMap) (c : Cell) (s : State) :
    changesOnly lineParts s (wrapLine p m c s) := by
  have hr (code : Status) : changesOnly lineParts s (refuseStroke p code s) :=
    (refuseStroke_frame _ _ _).mono (by decide)
  have h (l : WorkingLine) : changesOnly lineParts s (relayLine { s with line := l }) := by
    refine changesOnly.trans ?_ ((relayLine_frame _).mono (by decide))
    intro q hq; cases q <;> first | exact absurd hq (by decide) | rfl
  unfold wrapLine; split
  · exact hr _
  · dsimp only; split
    · exact hr _
    · exact ((h _).trans ((cutWords_frame _).mono (by decide))).trans ((lineEndSpelling_frame _ _).mono (by decide))

/-- R31, R34 to R36: a cell in Line mode. -/
theorem lineCell_frame (p : Port) (m : PetalMap) (kind : CellKind) (code : Byte) (k : Stroke) (s : State) :
    changesOnly lineParts s (lineCell p m kind code k s) := by
  have hr (c : Status) : changesOnly lineParts s (refuseStroke p c s) := (refuseStroke_frame _ _ _).mono (by decide)
  have hi (c : Cell) (edge : Nat) (b : Bool) : changesOnly lineParts s
      (if Config.lineCells ≤ s.line.cells.length then refuseStroke p .full s
       else if b then ringBell edge (lineInsert c s) else lineInsert c s) := by
    split
    · exact hr _
    · split
      · exact (lineInsert_frame _ _).trans ((ringBell_frame _ _).mono (by decide))
      · exact lineInsert_frame _ _
  unfold lineCell; dsimp only
  split
  · split
    · exact hr _
    · exact hi _ _ _
  · split
    · exact hi _ _ _
    · split
      · split
        · exact hr _
        · exact hi _ _ _
      · split
        · exact wrapLine_frame _ _ _ _
        · exact hr _

theorem lineDelete_frame (s : State) : changesOnly lineParts s (lineDelete s) := by
  unfold lineDelete; split
  · exact .refl _ _
  · refine changesOnly.trans (changesOnly.trans ?_ ((relayLine_frame _).mono (by decide)))
      ((editSpelling_frame _).mono (by decide))
    intro q hq; cases q <;> first | exact absurd hq (by decide) | rfl

theorem moveCursor_frame (cursor : Nat) (s : State) : changesOnly lineParts s (moveCursor cursor s) := by
  refine changesOnly.trans ?_ ((relayLine_frame _).mono (by decide))
  intro q hq; cases q <;> first | exact absurd hq (by decide) | rfl

theorem endByReturn_frame (s : State) : changesOnly lineParts s (endByReturn s) := by
  refine changesOnly.trans (changesOnly.trans ?_
    ((lineEndSpelling_frame true 
      { s with line := { s.line with endCause := some .carriageReturn }, holdTimer := none }).mono (by decide))) ?_
  · intro q hq; cases q <;> first | exact absurd hq (by decide) | rfl
  · intro q hq; cases q <;> first | exact absurd hq (by decide) | rfl

/-- R31, R32: a stroke in Line mode. -/
theorem composeLine_frame (p : Port) (m : PetalMap) (k : Stroke) (s : State) :
    changesOnly lineParts s (composeLine p m k s) := by
  have hr (code : Status) : changesOnly lineParts s (refuseStroke p code s) :=
    (refuseStroke_frame _ _ _).mono (by decide)
  unfold composeLine; split
  · exact lineCell_frame _ _ _ _ _ _
  · exact lineCell_frame _ _ _ _ _ _
  · exact lineCell_frame _ _ _ _ _ _
  · exact lineDelete_frame _
  · exact moveCursor_frame _ _
  · exact moveCursor_frame _ _
  · intro q hq; cases q <;> first | exact absurd hq (by decide) | rfl
  · intro q hq; cases q <;> first | exact absurd hq (by decide) | rfl
  · exact endByReturn_frame _
  · exact hr _
  · exact hr _
  · exact hr _

theorem composeHeld_frame (p : Port) (m : PetalMap) (k : Stroke) (s : State) :
    changesOnly lineParts s (composeHeld p m k s) := by
  unfold composeHeld; split
  · intro q hq; cases q <;> first | exact absurd hq (by decide) | rfl
  · exact composeLine_frame _ _ _ _
  · exact composeLine_frame _ _ _ _
  · refine changesOnly.trans ?_ (composeLine_frame _ _ _ _)
    intro q hq; cases q <;> first | exact absurd hq (by decide) | rfl

/-- R26 to R39: the composition of a stroke. -/
theorem composeTaken_frame (p : Port) (m : PetalMap) (k : Stroke) (s : State) :
    changesOnly composeParts s (composeTaken p m k s) := by
  have h : changesOnly composeParts s (if s.line.phase = .free then claim p s else s) :=
    .ite ((claim_frame _ _).mono (by decide)) (.refl _ _)
  unfold composeTaken; dsimp only
  exact .ite ((refuseStroke_frame _ _ _).mono (by decide)) (.ite (h.trans (composeDirect_frame _ _ _))
    (.ite (h.trans ((composeHeld_frame _ _ _ _).mono (by decide)))
      (h.trans ((composeLine_frame _ _ _ _).mono (by decide)))))

/-- R38: the conversion of a line. -/
theorem convertLine_frame (p : Port) (m : PetalMap) (s : State) :
    changesOnly (.link :: composeParts) s (convertLine p m s) := by
  have hp : [Part.ofPort p] ⊆ .link :: composeParts := by cases p <;> decide
  have hn (layout : Layout) : changesOnly (.link :: composeParts) s (conversionNotices p m layout s) := by
    have h : changesOnly (.link :: composeParts) s ((missingCodes m layout.cells).foldl
        (fun t c => t.notice p (Notice.missingCharacter c s.line.serial)) s) :=
      .foldl _ (fun (t : State) (c : Byte) => (State.notice_frame t p _).mono hp) _ _
    unfold conversionNotices; dsimp only; split
    · exact h.trans ((State.notice_frame _ _ _).mono hp)
    · exact h
  have ha (u : State) (hu : changesOnly (.link :: composeParts) s u) :
      changesOnly (.link :: composeParts) s (afterConversion p u) := by
    unfold afterConversion; split
    · refine ((hu.trans ?_).trans ((relayLine_frame _).mono (by decide))).trans
        ((rebuildWords_frame _ _).mono (by decide))
      intro q hq; cases q <;> first | exact absurd hq (by decide) | rfl
    · exact (hu.trans ((freeLine_frame _ _).mono (by decide))).trans ((setPosition_frame _ _).mono (by decide))
  exact ha _ (((hn _).trans ((appendJob_frame _ _).mono (by decide))).trans
    ((startPrinting_frame _ _).mono (by decide)))

/-- R28: a forced end. -/
theorem forceEnd_frame (p : Port) (s : State) : changesOnly [.ofPort p, .line, .spelling] s (forceEnd p s) := by
  have h : changesOnly [.line, .spelling] s
      (lineEndSpelling false { s with line := { s.line with endCause := some .forced } }) := by
    refine changesOnly.trans ?_ (lineEndSpelling_frame _ _)
    intro q hq; cases q <;> first | exact absurd hq (by decide) | rfl
  have k (u : State) (hu : changesOnly [.line, .spelling] s u) (l : WorkingLine) :
      changesOnly [.line, .spelling] s { u with line := l } := by
    refine hu.trans ?_
    intro q hq; cases q <;> first | exact absurd hq (by decide) | rfl
  exact (k _ h _).then (State.notice_frame _ p _) (by simp) (by simp)

end Sys2Proof.Machine
end

