-- ==== Sys2Proof/Laws/Blocks.lean ====
section
/-! SUPPORT. What taking a command block comes to: the state its owner is given, and the whole of what a block with a
small effect does. -/

namespace Sys2Proof.Machine

/-- The state that the owner of a block is given: the port has its command in hand, and the Rest timer has restarted. -/
def taken (p : Port) (s : State) : State := restartRest (takeInHand p s)

@[simp] theorem taken_options (p : Port) (s : State) : (taken p s).options = s.options := by simp [taken]
@[simp] theorem taken_partition (p : Port) (s : State) : (taken p s).partition = s.partition := by simp [taken]
@[simp] theorem taken_format (p : Port) (s : State) : (taken p s).format = s.format := by simp [taken]
@[simp] theorem taken_line (p : Port) (s : State) : (taken p s).line = s.line := by simp [taken]
@[simp] theorem taken_composer (p : Port) (s : State) : (taken p s).composer = s.composer := by simp [taken]
@[simp] theorem taken_engine (p : Port) (s : State) : (taken p s).engine = s.engine := by simp [taken]
@[simp] theorem taken_memory (p : Port) (s : State) : (taken p s).memory = s.memory := by simp [taken]
@[simp] theorem taken_lift (p : Port) (s : State) : (taken p s).lift = s.lift := by simp [taken]
@[simp] theorem taken_spelling (p : Port) (s : State) : (taken p s).spelling = s.spelling := by simp [taken]
@[simp] theorem taken_store (p : Port) (s : State) : (taken p s).store = s.store := by simp [taken]
@[simp] theorem taken_display (p : Port) (s : State) : (taken p s).display = s.display := by simp [taken]
@[simp] theorem taken_tones (p : Port) (s : State) : (taken p s).tones = s.tones := by simp [taken]
@[simp] theorem taken_holdTimer (p : Port) (s : State) : (taken p s).holdTimer = s.holdTimer := by simp [taken]
@[simp] theorem taken_pending (p : Port) (s : State) : (taken p s).pending = s.pending := by simp [taken]
@[simp] theorem taken_port (p : Port) (s : State) :
    (taken p s).port p = { s.port p with assembly := [], gap := none, inHand := true } := by simp [taken]
@[simp] theorem taken_port_other (p : Port) (s : State) : (taken p s).port (Port.other p) = s.port (Port.other p) := by
  simp [taken]
@[simp] theorem taken_restTimer (p : Port) (s : State) : (taken p s).restTimer = (restartRest s).restTimer := by
  cases p <;> simp only [taken, restartRest, takeInHand_engine, takeInHand_options] <;> split <;> rfl

theorem taken_frame (p : Port) (s : State) : changesOnly [.ofPort p, .restTimer] s (taken p s) :=
  (takeInHand_frame p s).then (restartRest_frame _) (by simp) (by simp)

/-- R172, R174, R175: a block that passes every check is handed to its owner, and its reply joins after the owner's own
notices. -/
theorem offer_taken {p : Port} {code : Byte} {count : Nat} {s : State} (owner : State → State × Reply)
    (hf : portFree p s) (hn : count ≤ 30) (hc : checkBlock p code count = none) :
    offer p code count owner s = finish ((owner (taken p s)).1.reply p code (owner (taken p s)).2) := by
  have hn' : ¬ Config.blockData < count := by simpa [Config.blockData] using hn
  simp [offer, takeBlock, hf.1, hf.2, hn', hc, taken]

/-- R174: a block that a check refuses. -/
theorem offer_refused {p : Port} {code : Byte} {count : Nat} {s : State} (owner : State → State × Reply) {st : Status}
    (hf : portFree p s) (hn : count ≤ 30) (hc : checkBlock p code count = some st) :
    offer p code count owner s = finish ((taken p s).reply p code (.plain st)) := by
  have hn' : ¬ Config.blockData < count := by simpa [Config.blockData] using hn
  simp [offer, takeBlock, hf.1, hf.2, hn', hc, taken]

/-- The display at the end of a block follows the new state, when its owner left it alone. -/
theorem finish_displayFollows {s u : State} (h : u.display = s.display) : displayFollows s (finish u) := by
  unfold displayFollows; rw [← h]; rfl

/-- R27: so does the hold limit timer. -/
theorem finish_holdFollows {s u : State} (h : u.holdTimer = s.holdTimer) : holdFollows s (finish u) := by
  unfold holdFollows; rw [← h]; rfl

/-- A block whose owner keeps to these parts, none of them its own port or the Rest timer. -/
theorem blockDone_of {parts : List Part} {p : Port} {code : Byte} {r : Reply} {s u : State}
    (h : changesOnly parts (taken p s) u) (hp : Part.ofPort p ∉ parts) (hr : .restTimer ∉ parts) :
    blockDone parts p code r s (finish (u.reply p code r)) := by
  have ep : u.port p = (taken p s).port p := by
    cases p
    · exact h .console hp
    · exact h .link hp
  have er : u.restTimer = (taken p s).restTimer := h .restTimer hr
  refine ⟨?_, ?_, ?_, fun hd => finish_displayFollows ?_, fun ho => finish_holdFollows ?_⟩
  · unfold answered; rw [finish_port, State.reply_port, ep, taken_port]
  · unfold restAfterBlock; rw [finish_restTimer, State.reply_restTimer, er, taken_restTimer]
  · refine changesOnly.trans (changesOnly.trans (changesOnly.trans
      ((taken_frame p s).mono (by simp)) (h.mono (by simp)))
      ((State.reply_frame u p code r).mono (by simp))) ((finish_frame _).mono (by simp))
  · rw [State.reply_display, (h .display hd : u.display = _), taken_display]
  · rw [State.reply_holdTimer, (h .holdTimer ho : u.holdTimer = _), taken_holdTimer]

/-- A recomposition reads neither the ports nor the Rest timer. -/
theorem displayNow_congr {s t : State} (p : Port)
    (h : changesOnly [.ofPort p, .restTimer, .display, .holdTimer] s t) :
    displayNow { t with display := s.display } = displayNow s := by
  have ho := h.same .options (by cases p <;> decide)
  have hf := h.same .format (by cases p <;> decide)
  have hl := h.same .line (by cases p <;> decide)
  have hc := h.same .composer (by cases p <;> decide)
  have he := h.same .engine (by cases p <;> decide)
  have hm := h.same .memory (by cases p <;> decide)
  have hi := h.same .lift (by cases p <;> decide)
  have hs := h.same .spelling (by cases p <;> decide)
  have ht := h.same .store (by cases p <;> decide)
  cases s; cases t; simp only [Part.same] at *; subst_vars; rfl

/-- The hold limit timer's conditions read neither the ports nor the Rest timer. -/
theorem holdNow_congr {s t : State} (p : Port)
    (h : changesOnly [.ofPort p, .restTimer, .display, .holdTimer] s t) :
    holdNow { t with holdTimer := s.holdTimer } = holdNow s := by
  have ho := h.same .options (by cases p <;> decide)
  have hl := h.same .line (by cases p <;> decide)
  have hc := h.same .composer (by cases p <;> decide)
  have hi := h.same .lift (by cases p <;> decide)
  cases s; cases t; simp only [Part.same] at *; subst_vars; rfl

/-- A block that its owner refuses, or that changes nothing. -/
theorem blockOnly_refused (p : Port) (code : Byte) (r : Reply) (s : State) :
    blockOnly p code r s (finish ((taken p s).reply p code r)) := by
  have h : blockDone [] p code r s (finish ((taken p s).reply p code r)) :=
    blockDone_of (.refl _ _) (by simp) (by simp)
  have ⟨_, _, hc, hd, ho⟩ := h
  refine ⟨h, fun hu q hq => ?_⟩
  by_cases e : q = .display
  · subst e; exact (hd (by simp)).trans ((displayNow_congr p hc).trans hu.1)
  · by_cases e' : q = .holdTimer
    · subst e'; exact (ho (by simp)).trans ((holdNow_congr p hc).trans hu.2)
    · exact hc q (by simp at hq; simp [hq, e, e'])

/-- R65, R81, R84: a block whose owner appends one job. -/
theorem jobTaken_of (j : Job) (p : Port) (code : Byte) (s : State) :
    jobTaken j p code s (finish ((appendJob j (taken p s)).reply p code (.plain .started))) := by
  have ep : (appendJob j (taken p s)).port p = (taken p s).port p := by cases p <;> simp
  refine ⟨?_, ?_, finish_displayFollows (by simp), finish_holdFollows (by simp), ?_, ?_⟩
  · unfold answered; rw [finish_port, State.reply_port, ep, taken_port]
  · refine changesOnly.trans (changesOnly.trans (changesOnly.trans
      ((taken_frame p s).mono (by simp)) ((appendJob_frame j _).mono (by simp)))
      ((State.reply_frame _ p code _).mono (by simp))) ((finish_frame _).mono (by simp))
  · intro hs
    refine ⟨?_, ?_⟩
    · simp [appendJob, hs]
    · unfold restAfterBlock; simp [appendJob, hs]
  · intro hs; simp [appendJob, hs, startWheelHoming]

end Sys2Proof.Machine
end

