-- ==== Sys2Proof/Laws/Lookups.lean ====
section
/-! SUPPORT. What waits stays: the lookups of the spell queue through the operations that only add to it, what the attempt
for one word comes to, and when no head stroke can be taken. -/

namespace Sys2Proof.Machine

/-! ### Lookups that stand -/

@[simp] theorem SpellEntry.unmarked_unmarked (e : SpellEntry) : e.unmarked.unmarked = e.unmarked := rfl
@[simp] theorem SpellEntry.unmarked_origin (e : SpellEntry) : e.unmarked.origin = e.origin := rfl

theorem lookupsStand.refl (s : State) : lookupsStand s s := ⟨List.prefix_refl _, fun _ h _ => h⟩

theorem lookupsStand.trans {s t u : State} (h : lookupsStand s t) (k : lookupsStand t u) : lookupsStand s u :=
  ⟨h.1.trans k.1, fun e he hf => k.2 e (h.2 e he hf) hf⟩

/-- The queue as it was, or with lookups behind. -/
theorem lookupsStand.of_append {s t : State} (more : List SpellEntry)
    (h : t.spelling.queue = s.spelling.queue ++ more) : lookupsStand s t := by
  refine ⟨?_, fun e he _ => ?_⟩
  · rw [h, List.map_append]; exact List.prefix_append _ _
  · rw [h]; exact List.mem_append_left _ he

theorem lookupsStand.of_eq {s t : State} (h : t.spelling.queue = s.spelling.queue) : lookupsStand s t :=
  .of_append [] (by simp [h])

theorem lookupsStand.foldl {α : Type} (f : State → α → State) (hf : ∀ t x, lookupsStand t (f t x)) (l : List α)
    (s : State) : lookupsStand s (l.foldl f s) := by
  induction l generalizing s with
  | nil => exact .refl s
  | cons x l ih => exact (hf s x).trans (ih _)

theorem joinSpellQueue_lookupsStand (e : SpellEntry) (s : State) : lookupsStand s (joinSpellQueue e s) :=
  .of_append [e] rfl

theorem attemptWord_lookupsStand (first : Nat) (s : State) : lookupsStand s (attemptWord first s) := by
  unfold attemptWord; split
  · split
    · dsimp only; split
      · exact .of_eq rfl
      · split
        · exact .refl s
        · split
          · exact .of_eq rfl
          · exact .of_append [_] rfl
    · exact .refl s
  · exact .refl s

theorem attemptWords_lookupsStand (firsts : List Nat) (s : State) : lookupsStand s (attemptWords firsts s) :=
  .foldl _ (fun t f => attemptWord_lookupsStand f t) firsts s

theorem checkAlone_lookupsStand (p : Port) (f : Fragment) (s : State) : lookupsStand s (checkAlone p f s) := by
  unfold checkAlone; split
  · exact joinSpellQueue_lookupsStand _ s
  · exact .refl s

theorem checkJoined_lookupsStand (edited : Bool) (s : State) : lookupsStand s (checkJoined edited s) := by
  unfold checkJoined; split
  · split
    · have h : lookupsStand s { s with line := { s.line with joined := none } } := .of_eq rfl
      exact h.trans (checkAlone_lookupsStand _ _ _)
    · exact .refl s
  · exact .refl s

/-- R130, R131: an insertion at the end is no edit: no lookup leaves the queue. -/
theorem extendSpelling_lookupsStand (s : State) : lookupsStand s (extendSpelling s) := by
  have h : lookupsStand s { s with line := { s.line with words := (freshRecords s).map (keepOld s.line.words) } } :=
    .of_eq rfl
  exact (h.trans (checkJoined_lookupsStand false _)).trans (attemptWords_lookupsStand _ _)

theorem fillQueries_lookupsStand (done l : List Query) (s : State) : lookupsStand s (fillQueries done l s) := by
  induction l generalizing done s with
  | nil => exact .of_eq rfl
  | cons x l ih =>
    unfold fillQueries; split
    · exact (joinSpellQueue_lookupsStand _ s).trans (ih _ _)
    · exact ih _ _

theorem settleSpelling_lookupsStand (s : State) : lookupsStand s (settleSpelling s) := by
  have h : lookupsStand s (fillFromChecking s) := by
    unfold fillFromChecking; split
    · exact attemptWords_lookupsStand _ s
    · exact .refl s
  have k : lookupsStand (fillFromChecking s) (fillFromQueries (fillFromChecking s)) := fillQueries_lookupsStand [] _ _
  exact (h.trans k).trans (.of_eq (congrArg Spelling.queue ((holdTest_frame _).same .spelling)))

/-- R16: a grant marks the oldest lookup and leaves every one in its place. -/
theorem arbitrate_lookupsStand (s : State) : lookupsStand s (arbitrate s) := by
  unfold arbitrate; split
  · split
    · exact .of_eq rfl
    · exact .of_eq rfl
    · refine ⟨?_, ?_⟩
      · show s.spelling.queue.map _ <+: (markInFlight s.spelling.queue).map _
        cases s.spelling.queue <;> exact List.prefix_refl _
      · show ∀ e ∈ s.spelling.queue, e.inFlight = true → e ∈ markInFlight s.spelling.queue
        cases s.spelling.queue with
        | nil => simp
        | cons a rest =>
          intro e he hf
          rcases List.mem_cons.1 he with rfl | he
          · exact List.mem_cons.2 (.inl (by cases e; simp_all))
          · exact List.mem_cons_of_mem _ he
    · exact .refl s
  · exact .refl s

theorem settle_lookupsStand (s : State) : lookupsStand s (settle s) :=
  (settleSpelling_lookupsStand s).trans (arbitrate_lookupsStand _)

theorem endStep_lookupsStand (s : State) : lookupsStand s (endStep s) :=
  (settle_lookupsStand s).trans (.of_eq (congrArg Spelling.queue ((finish_frame _).same .spelling)))

/-! ### The attempt for one word -/

theorem mem_setWord {first : Nat} {g : WordRecord → WordRecord} {s : State} {w : WordRecord} (hw : w ∈ s.line.words)
    (hf : w.first = first) : g w ∈ (setWord first g s).line.words :=
  List.mem_map.2 ⟨w, hw, by simp [hf]⟩

/-- R130, R135, R136, R138: all that the attempt for a word that is Unchecked without a cause can come to. -/
theorem attemptWord_wordTried {p : Port} {first : Nat} {w : WordRecord} {s : State} (hp : s.line.holder = some p)
    (hw : s.line.words.find? (·.first == first) = some w) (hu : w.status = .unchecked) (hc : w.cause = none) :
    wordTried p first w.count (s.line.letters w) s (attemptWord first s) := by
  have hm : w ∈ s.line.words := List.mem_of_find?_eq_some hw
  have hf : w.first = first := by simpa using List.find?_some hw
  unfold attemptWord wordTried
  simp only [hp, hw, hu, hc, Option.isNone_none, Bool.and_true, decide_true, if_true]
  by_cases hg : userGood s.spelling.userWords (s.line.letters w) = true
  · rw [if_pos hg]
    exact ⟨_, mem_setWord hm hf, by simp_all⟩
  · rw [if_neg hg]
    by_cases hr : s.spelling.queue.length < 8
    · rw [if_neg (by simp [Spelling.room, Config.spellEntries, hr])]
      by_cases hl : s.store.lexiconAvailable = true
      · rw [if_neg (by simp [hl])]
        refine ⟨_, mem_setWord (by exact hm) hf, hf, rfl, by simp_all, by simp_all, by simp_all, fun _ _ _ =>
          ⟨rfl, _, List.mem_append_right _ (List.mem_singleton.2 rfl), rfl, rfl, hf, rfl, rfl, rfl, rfl⟩⟩
      · rw [if_pos (by simpa using hl)]
        exact ⟨_, mem_setWord hm hf, by simp_all⟩
    · rw [if_pos (by simp [Spelling.room, Config.spellEntries, hr])]
      exact ⟨w, hm, by simp_all⟩

/-! ### Taking a stroke (R25) -/

/-- R25: a head stroke waits exactly when the composer cannot take it. -/
theorem headWaits_iff (p : Port) (s : State) : headWaits p s ↔ canTake p s = false := by
  have room : s.engine.room = decide (s.engine.queue.length < 4) := rfl
  rcases hp : s.line.phase <;> cases p <;> cases ha : s.lift.away <;> cases hm : s.engine.petalMap <;>
    simp_all [headWaits, canTake, wouldBeDirect, claimMode] <;> grind

end Sys2Proof.Machine
end

