-- ==== Sys2Proof/Laws/Values.lean ====
section
/-! SUPPORT. What beginning an order and removing jobs come to, and what the operations on the window, a port's queue, the
tones, the tab stops, the suspects, the user words and the line records do to the values they work on. -/

namespace Sys2Proof.Machine

/-! ### The window (R156) -/

/-- R153, R156: a cursor index up to 195 leaves the window start within 0..160 (log entry 77). -/
theorem adjustWindow_le_160 (start cursor : Nat) (hs : start ≤ 160) (hc : cursor ≤ 195) :
    adjustWindow start cursor ≤ 160 := by
  unfold adjustWindow; split
  · omega
  · split <;> omega

/-! ### Orders that begin (R69 to R72, R74, R76, R117) -/

theorem startWheel_eq (t : Nat) (e : Engine) (hm : e.wheelMove = none) (hp : e.petal < 96) :
    startWheel t e = { e with wheelMove := wheelToward e.petal t } := by
  have h : (t + 96 - e.petal % 96) % 96 = (t + 96 - e.petal) % 96 := by rw [Nat.mod_eq_of_lt hp]
  unfold startWheel wheelToward
  split
  · cases e; cases hm; rfl
  · have hl : Config.wheelLimit = 16 := rfl
    simp only [h, hl]; split <;> simp [*]

theorem startCarrier_eq (x : Nat) (e : Engine) (hm : e.carrierMove = none) :
    startCarrier x e = { e with carrierMove := carrierToward e.carrier x } := by
  unfold startCarrier carrierToward
  split
  · cases e; cases hm; rfl
  · rfl

theorem wheelToward_isNone (a b : Nat) : (wheelToward a b).isNone = decide (a = b) := by
  unfold wheelToward; split
  · simp_all
  · split <;> simp_all

theorem carrierToward_isNone (a b : Nat) : (carrierToward a b).isNone = decide (a = b) := by
  unfold carrierToward; split <;> simp_all

/-- With no motion in flight, an order that does not complete as it begins leaves the engine as `orderBegun` says, and
nothing else changes. -/
theorem beginOrder_of_takesTime (o : Order) (s : State) (h : o.takesTime s = true) :
    beginOrder o s = ⟨{ s with engine := orderBegun o s.engine }, false⟩ := by
  simp only [Order.takesTime, Bool.and_eq_true, Option.isNone_iff_eq_none, decide_eq_true_eq] at h
  obtain ⟨⟨⟨hw, hc⟩, hp⟩, ho⟩ := h
  cases o with
  | strike k =>
    simp only [beginOrder, startWheel_eq _ _ hw hp]
    rw [startCarrier_eq _ _ (by exact hc)]
    simp only [fireOrRaise, Engine.still, wheelToward_isNone, carrierToward_isNone, orderBegun]
    by_cases h1 : s.engine.petal = k.petal <;> by_cases h2 : s.engine.carrier = k.position <;> simp [h1, h2]
  | lift r e =>
    simp only [beginOrder, startWheel_eq _ _ hw hp]
    rw [startCarrier_eq _ _ (by exact hc)]
    simp only [fireOrRaise, Engine.still, wheelToward_isNone, carrierToward_isNone, orderBegun]
    by_cases h1 : s.engine.petal = e.petal <;> by_cases h2 : s.engine.carrier = e.position <;> simp [h1, h2]; rfl
  | move x =>
    have hx : s.engine.carrier ≠ x := by simpa using ho
    simp only [beginOrder, hx, if_false, startCarrier]; rfl
  | feed n =>
    have hn : n ≠ 0 := by simpa using ho
    simp only [beginOrder, hn, if_false, orderBegun]
  | eject =>
    have hl : ¬ ((s.format.pageLength : Int) ≤ s.engine.platen) := by simpa using ho
    simp only [beginOrder, hl, if_false, orderBegun]

/-! ### Jobs that leave at once: by Cancel Printing (R90, R125) or Fault (R89, R126) -/

theorem setPosition_port (x : Nat) (s : State) (p : Port) : (setPosition x s).port p = s.port p := by cases p <;> rfl

theorem examinePrinting_port (serial : Nat) (s : State) (p : Port) : (examinePrinting serial s).port p = s.port p := by
  have h := examinePrinting_frame serial s
  cases p
  · exact h .console (by decide)
  · exact h .link (by decide)

/-- A removed job's report is its notice at the port it came from; the other port is as it was. -/
theorem reportCancelled_port (j : Job) (s : State) (p : Port) :
    (reportCancelled j s).port p = if j.source = p then (s.port p).notice (cancelledNotice j) else s.port p := by
  have step (b : Block) : (s.notice j.source b).port p = if j.source = p then (s.port p).notice b else s.port p := by
    cases hj : j.source <;> cases p <;> rfl
  unfold reportCancelled cancelledNotice
  cases j.correction with
  | some c =>
    have r (name : Nat) (t : State) : (reopen name t).port p = t.port p := by
      unfold reopen; split <;> cases p <;> rfl
    have q (t : State) : (positionAfterLift c t).port p = t.port p := by
      unfold positionAfterLift; split <;> first | rfl | (split <;> rfl)
    have e (t : State) : (reopenAfter c t).port p = t.port p := by
      unfold reopenAfter; split <;> first | rfl | exact r _ _
    exact (e _).trans ((q _).trans (step _))
  | none => exact (examinePrinting_port _ _ _).trans (step _)

/-- A discarded job's report is its notice at the port it came from; the other port is as it was. -/
theorem reportFaulted_port (j : Job) (s : State) (p : Port) :
    (reportFaulted j s).port p = if j.source = p then (s.port p).notice (faultedNotice j) else s.port p := by
  have step (b : Block) : (s.notice j.source b).port p = if j.source = p then (s.port p).notice b else s.port p := by
    cases hj : j.source <;> cases p <;> rfl
  unfold reportFaulted faultedNotice
  cases j.correction with
  | some c => exact step _
  | none => exact (examinePrinting_port _ _ _).trans (step _)

/-- Where each job's report is its notice at the port it came from, the reports of a list come to `reported`. -/
theorem PortState.reported_foldl {report : Job → Block} {f : Job → State → State}
    (hf : ∀ j s p, (f j s).port p = if j.source = p then (s.port p).notice (report j) else s.port p)
    (gone : List Job) (s : State) (p : Port) :
    (gone.foldl (fun t j => f j t) s).port p = (s.port p).reported report p gone := by
  induction gone generalizing s with
  | nil => rfl
  | cons j rest ih =>
    rw [List.foldl_cons, ih, hf]
    unfold PortState.reported
    by_cases h : j.source = p
    · rw [List.filter_cons_of_pos (by simpa using h)]; simp [h]
    · rw [List.filter_cons_of_neg (by simpa using h)]; simp [h]

/-- The reports of removed jobs come to `afterCancel` at each port. -/
theorem reportCancelled_foldl_port (gone : List Job) (s : State) (p : Port) :
    (gone.foldl (fun t j => reportCancelled j t) s).port p = (s.port p).afterCancel p gone :=
  PortState.reported_foldl reportCancelled_port gone s p

/-- The reports of discarded jobs come to `afterFault` at each port. -/
theorem reportFaulted_foldl_port (gone : List Job) (s : State) (p : Port) :
    (gone.foldl (fun t j => reportFaulted j t) s).port p = (s.port p).afterFault p gone :=
  PortState.reported_foldl reportFaulted_port gone s p

/-! ### Notices (R179 to R181) -/

/-- A notice changes nothing of a port but its queue and its lost count. -/
theorem PortState.notice_eq (v : PortState) (b : Block) :
    v.notice b = { v with queue := (v.notice b).queue, lost := (v.notice b).lost } := by
  unfold PortState.notice PortState.joinJobNotice
  split
  · rfl
  · split
    · rfl
    · split
      · dsimp only; split <;> rfl
      · rfl

@[simp] theorem PortState.notice_inHand (v : PortState) (b : Block) : (v.notice b).inHand = v.inHand := by
  rw [v.notice_eq b]
@[simp] theorem PortState.notice_enable (v : PortState) (b : Block) : (v.notice b).enable = v.enable := by
  rw [v.notice_eq b]
@[simp] theorem PortState.notice_gap (v : PortState) (b : Block) : (v.notice b).gap = v.gap := by
  rw [v.notice_eq b]
@[simp] theorem PortState.notice_assembly (v : PortState) (b : Block) : (v.notice b).assembly = v.assembly := by
  rw [v.notice_eq b]
@[simp] theorem PortState.notice_readBuffer (v : PortState) (b : Block) : (v.notice b).readBuffer = v.readBuffer := by
  rw [v.notice_eq b]
@[simp] theorem PortState.notice_overrun (v : PortState) (b : Block) : (v.notice b).overrun = v.overrun := by
  rw [v.notice_eq b]
@[simp] theorem PortState.notice_resetAsserted (v : PortState) (b : Block) :
    (v.notice b).resetAsserted = v.resetAsserted := by rw [v.notice_eq b]

/-- A notice that is not enabled leaves the port as it is. -/
theorem PortState.notice_disabled {v : PortState} {b : Block} (h : enabled v.enable b.kind = false) : v.notice b = v := by
  simp [PortState.notice, h]

/-- The blocks of other kinds stand as they stood when a notice coalesces. -/
theorem coalesceInto_filter_ne (b : Block) (kind : Byte) (h : b.kind ≠ kind) (queue : List Block) :
    (coalesceInto b queue).filter (·.kind == kind) = queue.filter (·.kind == kind) := by
  induction queue with
  | nil => simp [coalesceInto, h]
  | cons x rest ih =>
    unfold coalesceInto
    split
    · rename_i hx; simp [h, hx]
    · simp only [List.filter_cons, ih]

/-- A coalescing notice never stands twice. -/
theorem coalesceInto_once (b : Block) (queue : List Block)
    (h : (queue.filter (·.kind == b.kind)).length ≤ 1) : ((coalesceInto b queue).filter (·.kind == b.kind)).length = 1 := by
  induction queue with
  | nil => simp [coalesceInto]
  | cons x rest ih =>
    unfold coalesceInto
    split
    · rename_i hx
      simp only [List.filter_cons, hx, beq_self_eq_true, if_true, List.length_cons] at h ⊢
      omega
    · rename_i hx
      simp only [List.filter_cons, beq_eq_false_iff_ne.mpr hx] at h ⊢
      exact ih h

/-- Dropping the oldest job notice takes one job notice away, if there is one, and no other block. -/
theorem dropOldestJobNotice_jobs (queue : List Block) :
    ((dropOldestJobNotice queue).filter isJobNotice).length = (queue.filter isJobNotice).length - 1 := by
  induction queue with
  | nil => rfl
  | cons x rest ih =>
    unfold dropOldestJobNotice
    split
    · rename_i hx; simp [hx]
    · rename_i hx; simp [hx, ih]

theorem dropOldestJobNotice_others (queue : List Block) (keep : Block → Bool)
    (h : ∀ b, isJobNotice b = true → keep b = false) :
    (dropOldestJobNotice queue).filter keep = queue.filter keep := by
  induction queue with
  | nil => rfl
  | cons x rest ih =>
    unfold dropOldestJobNotice
    split
    · rename_i hx; simp [h x hx]
    · simp [List.filter_cons, ih]

/-! ### Tones (R166) -/

/-- A request changes no voice. -/
@[simp] theorem ToneUnit.request_voice (t : ToneUnit) (name other : ToneName) :
    (t.request name).voice other = t.voice other := by
  unfold ToneUnit.request
  split
  · cases other <;> rfl
  · dsimp only; split <;> cases other <;> rfl

/-! ### Tab stops (R48) -/

theorem mem_insertStop (x y : Nat) (tabs : List Nat) : y ∈ insertStop x tabs ↔ y = x ∨ y ∈ tabs := by
  induction tabs with
  | nil => simp [insertStop]
  | cons z rest ih =>
    unfold insertStop
    split
    · simp
    · simp only [List.mem_cons, ih]; tauto

@[simp] theorem insertStop_length (x : Nat) (tabs : List Nat) : (insertStop x tabs).length = tabs.length + 1 := by
  induction tabs with
  | nil => rfl
  | cons z rest ih => unfold insertStop; split <;> simp [ih]

/-! ### Suspects and user words (R139, R147, R148) -/

/-- A list of suspects that has an entry added to it holds at most 16 if it did. -/
theorem addSuspect_length (x : Suspect) (list : List Suspect) (h : list.length ≤ Config.suspectEntries) :
    (addSuspect x list).length ≤ Config.suspectEntries := by
  have hf : (list.filter fun y => !x.sameWord y).length ≤ list.length := List.length_filter_le _ _
  have h16 : Config.suspectEntries = 16 := rfl
  unfold addSuspect
  dsimp only
  split
  · rw [List.length_append, List.length_singleton]; omega
  · rw [List.length_append, List.length_singleton, List.length_drop]; omega

@[simp] theorem insertUser_length (u : UserWord) (list : List UserWord) :
    (insertUser u list).length = list.length + 1 := by
  induction list with
  | nil => rfl
  | cons x rest ih => unfold insertUser; split <;> simp [ih]

/-! ### Line records (R97, R98) -/

/-- Dropping a record makes no more of them. -/
theorem dropRecord_length (name : Nat) (s : State) : (dropRecord name s).memory.records.length ≤ s.memory.records.length := by
  unfold dropRecord
  split
  · exact Nat.le_refl _
  · exact List.length_filter_le _ _

/-- Making room makes no more records. -/
theorem makeRoom_length (fuel : Nat) (s : State) : (makeRoom fuel s).memory.records.length ≤ s.memory.records.length := by
  induction fuel generalizing s with
  | zero => exact Nat.le_refl _
  | succ n ih =>
    unfold makeRoom
    split
    · exact Nat.le_refl _
    · split
      · exact Nat.le_refl _
      · exact Nat.le_trans (ih _) (dropRecord_length _ _)

/-- Emptying Correction Memory leaves no record and no reference. -/
theorem emptyMemory_records (s : State) :
    (emptyMemory s).memory.records = [] ∧ (emptyMemory s).memory.openRecord = none
      ∧ (emptyMemory s).memory.resumeRecord = none ∧ (emptyMemory s).memory.returnRecord = none
      ∧ (emptyMemory s).lift.point = none := ⟨rfl, rfl, rfl, rfl, rfl⟩

end Sys2Proof.Machine
end

