-- ==== Sys2Proof/Tests/Slice0.lean ====
section
/-! SUPPORT. Tests: ill-formed commands refused, the manual's worked numbers, one small step of a command at a time, and for
every statement for the provers a state and operands that meet its hypotheses. -/

namespace Sys2Proof.Tests

open Sys2Proof Sys2Proof.Machine

/-! ### Small states -/

/-- A small 12-pitch wheel: 'a' on petal 64, '!' on petal 0. -/
def wheel : PetalMap where
  wheelId := 7
  pitch := .twelve
  spaceWidth := 10
  underscore := ⟨0x5F, 62, 10, 1⟩
  glyphs := [⟨0x61, 64, 10, 2⟩, ⟨0x21, 0, 10, 1⟩]

/-- The engine Ready at home with that wheel, ribbon and tape; the store Absent. -/
def home : State := { State.reset with
  engine := { Engine.reset with
    state := .ready, homing := none, homingLimit := none, petalMap := some wheel, ribbon := 1000, tape := 200 }
  store := { Store.reset with state := .absent, startUp := none, link := none }
  display := { Display.reset with live := true, transfer := none } }

def withEngine (e : Engine) : State := { home with engine := e }

/-- A Line-mode line of the console in Composing, or of another port, mode and phase. -/
def lineOf (p : Port) (mode : EntryMode) (phase : Phase) : WorkingLine :=
  { WorkingLine.free with phase := phase, holder := some p, serial := 9, mode := mode }

def withLine (p : Port) (mode : EntryMode) (phase : Phase) : State := { home with line := lineOf p mode phase }

/-- The state after a command. -/
def after (c : Instr) (s : State) : State :=
  match exec c s with
  | .next t => t
  | .fault _ => s
  | .refused _ => s

/-- The last block in a port's queue: its kind and data. -/
def lastBlock (v : PortState) : Option (Byte × List Byte) := v.queue.getLast?.map fun b => (b.kind, b.data)

def strikeA : Strike where
  position := 120
  petal := 64
  energy := 5
  width := 10
  code := 0x61
  cell := 0
  rise := 0
  pass := .main

def entryA : StrikeEntry where
  name := 0
  position := 120
  width := 10
  rise := 0
  wheelId := 7
  petal := 64
  energy := 5
  code := 0x61
  cell := 0
  pass := .main
  liftable := true

/-- The head job of a Working engine, at this order and with this one behind it. -/
def jobAt (o o' : Order) : Job := { Job.empty .line .link with serial := some 9, orders := [o, o'], started := true }

def suspectTeh : Suspect where
  serial := 3
  place := .record
  first := 0
  count := 3
  letters := [0x74, 0x65, 0x68]
  fingerprint := fingerprint [0x74, 0x65, 0x68]
  length := 3
  continued := false

def withEngineAt (o o' : Order) : State :=
  withEngine { home.engine with state := .working, queue := [jobAt o o'] }

/-! ### Ill-formed commands -/

theorem test_ill_typeText : (Instr.typeText .link (List.replicate 31 0x61)).wellFormed = false := by decide
theorem test_ill_addWord : (Instr.addWord .link []).wellFormed = false := by decide
theorem test_ill_addWord_long : (Instr.addWord .link (List.replicate 31 0x61)).wellFormed = false := by decide
theorem test_ill_removeWord : (Instr.removeWord .link []).wellFormed = false := by decide
theorem test_ill_removeWord_long : (Instr.removeWord .link (List.replicate 31 0x61)).wellFormed = false := by decide
theorem test_ill_checkWord : (Instr.checkWord .link []).wellFormed = false := by decide
theorem test_ill_checkWord_long : (Instr.checkWord .link (List.replicate 31 0x61)).wellFormed = false := by decide
theorem test_ill_showMessage : (Instr.showMessage .link 0 (List.replicate 29 0x61)).wellFormed = false := by decide
theorem test_ill_awaitTimeout : (Instr.awaitTimeout 4).wellFormed = false := by decide
theorem test_ill_storeOpComplete : (Instr.storeOpComplete (List.replicate 8185 0)).wellFormed = false := by
  simp only [Instr.wellFormed, List.length_replicate]
  decide

/-! ### The manual's worked numbers -/

/-- Section 7.11: "oslo". -/
theorem test_hash_oslo :
    primaryValue [0x6F, 0x73, 0x6C, 0x6F] = 52728 ∧ fingerprint [0x6F, 0x73, 0x6C, 0x6F] = 12369305 := by decide

/-- Section 3.5: an underlined gap at 383 of width 15 with u = 8. -/
theorem test_underscores : underscorePositions 383 15 8 = [383, 390] := by decide

/-- Section 3.5: S = 39 over six gaps, the rightmost three one unit more. -/
theorem test_additions : additions 13 [1, 3, 5, 7, 9, 11] 6 3 = [0, 6, 0, 6, 0, 6, 0, 7, 0, 7, 0, 7, 0] := by decide

/-- Section 3.2: at P = 10, widths 14, 15 and 5 are struck 2 left, 3 left and 2 right. -/
theorem test_offsets :
    (metrics FormatRecord.reset { wheel with pitch := .proportional } ⟨0x61, 64, 14, 2⟩).offset = -2
      ∧ (metrics FormatRecord.reset { wheel with pitch := .proportional } ⟨0x61, 64, 15, 2⟩).offset = -3
      ∧ (metrics FormatRecord.reset { wheel with pitch := .proportional } ⟨0x61, 64, 5, 2⟩).offset = 2 := by decide

/-- R64: position 120 is column 13; position 1560 still shows 156. -/
theorem test_column : columnOf FormatRecord.reset wheel 120 = 13 ∧ columnOf FormatRecord.reset wheel 1560 = 156 := by
  decide

/-- R159: columns 7, 13 and 156. -/
theorem test_digits : digitCells (some 7) = [none, none, some 7] ∧ digitCells (some 13) = [none, some 1, some 3]
    ∧ digitCells (some 156) = [some 1, some 5, some 6] := by decide

/-- Section 10.2: (704, 256, 2048, 256) is 12,288 bytes; (1536, 0, 64, 32) is 12,480. -/
theorem test_partition : ({ pool := 704, userWords := 256, linkRing := 2048, consoleRing := 256 } : Machine.Partition).valid = true
    ∧ ({ pool := 1536, userWords := 0, linkRing := 64, consoleRing := 32 } : Machine.Partition).valid = false := by
  decide

/-- Section 9.7: Cancel Printing is 0x32, 0x00, 0x03; its reply's closing byte is 6. -/
theorem test_frames : frameBlock 0x32 [] = [0x32, 0, 3]
    ∧ (({ status := .done, data := [2] } : Reply).block 0x32).wire = [0xF0, 3, 0x32, 0, 2, 6] := by decide

/-- Section 4.10: energy 5 is a pulse of 650 µs; section 6.7: the lift of that entry is 750 µs. -/
theorem test_pulses : pulseLength 5 = 650 ∧ liftEnergy entryA = 7 ∧ pulseLength 7 = 750 := by decide

/-- Section 1.14: 256 records are 12 steps, page 0 with 31 of them and page 8 with one. -/
theorem test_recordPages : recordPages 256 = 9 ∧ recordPages 31 = 1 ∧ recordPages 32 = 2 ∧ recordPages 0 = 0 := by decide

/-- R186: an underlined bold 'a', a Space, a Return; what names no stroke. -/
theorem test_strokes : decodeStroke 0x0C 0x61 = some ⟨.character 0x61, true, true⟩
    ∧ decodeStroke 0x01 0x20 = some ⟨.space, false, false⟩
    ∧ decodeStroke 0x02 0x0D = some ⟨.function .carriageReturn, false, false⟩
    ∧ decodeStroke 0x00 0x20 = none ∧ decodeStroke 0x03 0x61 = none ∧ decodeStroke 0x10 0x61 = none := by decide

/-- R23: Shift Out underlines, byte 0x00 is dropped. -/
theorem test_readText : readText ⟨false, false⟩ [0x0E, 0x61, 0x00, 0x0F] = ⟨⟨false, false⟩, [⟨.character 0x61, true, false⟩], 1⟩ := by
  decide

/-- R10: the petals of 'A' and '!' of the fallback wheel, and its classes. -/
theorem test_fallback : (fallbackMap 7).find 0x41 = some ⟨0x41, 32, 10, 2⟩ ∧ (fallbackMap 7).find 0x4F = some ⟨0x4F, 46, 10, 2⟩
    ∧ (fallbackMap 7).glyphs.length = 94 := by decide

/-! ### One step each, with the values the rules give -/

/-- R172, R171: two bytes of Set Margins held, then Assembling and InFree in the status byte. -/
theorem test_dataWrite : (after (.dataWrite .link 4) (after (.dataWrite .link 0x20) home)).link.assembly = [0x20, 4]
    ∧ (after (.statusRead .link) (after (.dataWrite .link 0x20) home)).link.dataOut = 0x11 := by decide

/-- R47, R49: L = 120, Rm = 1020 are two bytes each, most significant first, at the head of Read Format's data. -/
theorem test_readFormat : (lastBlock (after (.readFormat .link) home).link).map (fun b => b.2.take 6)
    = some [0x29, 0, 0, 120, 0x03, 0xFC] := by decide

/-- R49: line spacing 9 is clamped to 4 and the reply carries it; spacing 4 is out of range. -/
theorem test_setLineSpacing : lastBlock (after (.setLineSpacing .console 9) home).console = some (0xF0, [0x25, 2, 4]) := by
  decide
theorem test_setSpacing : lastBlock (after (.setSpacing .console 4) home).console = some (0xF0, [0x24, 0x16]) := by decide

/-- R48: a tab at 1559 is kept, at 1560 refused. -/
theorem test_setTab : (after (.setTab .console 1559) home).format.tabs = [1559]
    ∧ lastBlock (after (.setTab .console 1560) home).console = some (0xF0, [0x21, 0x16]) := by decide

/-- R77, R84: a Feed of -16 is a Motion job; 0 is out of range. -/
theorem test_feed : (after (.feed .link 0xF0) home).engine.queue.map (·.orders) = [[.feed (-16)]]
    ∧ lastBlock (after (.feed .link 0) home).link = some (0xF0, [0x30, 0x16]) := by decide

/-- R22: an 'a' joins the ring; R43: with sharing off Await Keys is NotInMode. -/
theorem test_keyStroke : (after (.keyStroke .console 0 0x61) home).composer.consoleRing = [⟨.character 0x61, false, false⟩] := by
  decide
theorem test_awaitKeys : lastBlock (after (.awaitKeys .link 1 0 0) home).link = some (0xF0, [0x13, 0x13]) := by decide

/-- R23: the reply of Type Text carries the dropped bytes. -/
theorem test_typeText : lastBlock (after (.typeText .link [0x61, 0x00, 0x62]) home).link = some (0xF0, [0x11, 0, 1]) := by
  decide

/-- R25, R29: an 'a' in Direct mode: the line is claimed with serial 1, the compose position is 130, one strike is
queued at 120 with energy 2 + 3. -/
theorem test_composeStroke :
    let t := after .composeStroke (after (.keyStroke .console 0 0x61) home)
    t.line.serial = 1 ∧ t.composer.position = 130 ∧ t.engine.queue.map (·.orders) = [[.strike strikeA]] := by decide

/-- R70: from petal 40 to petal 0 is 40 petals backward; from 71 to 0 is 25 forward. -/
theorem test_wheel_way : (startWheel 0 { home.engine with petal := 40 }).wheelMove = some ⟨0, false, 40, 16⟩
    ∧ (startWheel 0 { home.engine with petal := 71 }).wheelMove = some ⟨0, true, 25, 16⟩ := by decide

/-- R73, R95: the strike is taken off the ribbon and opens a record at baseline 0. -/
theorem test_hammerReturned :
    let t := after .hammerReturned { withEngineAt (.strike strikeA) (.move 120) with
      engine := { (withEngineAt (.strike strikeA) (.move 120)).engine with hammer := .returning 4, carrier := 120 } }
    t.engine.ribbon = 999 ∧ t.memory.records.map (fun r => (r.serial, r.vertical)) = [(9, 0)]
      ∧ (t.memory.records.flatMap (·.entries)).map (·.position) = [120] := by decide

/-- R74: platen and page line count follow a Feed of 2; R96. -/
theorem test_platenStopped :
    let s := withEngineAt (.feed 2) (.strike strikeA)
    let t := after .platenStopped { s with engine := { s.engine with platenMove := some (.feed 2) } }
    t.engine.platen = 2 ∧ t.engine.pageLines = 2 := by decide

/-- R87: Supply Low at 500 strikes and none at 501. -/
theorem test_loadSupply : ((after (.loadSupply .console 0 500 101) home).link.queue.map (·.kind)) = [0xAE]
    ∧ (after (.loadSupply .console 0 501 101) home).link.queue = [] := by decide

/-- R162: 30 tenths of a second are 300 ticks; a code of 0x7F is out of range. -/
theorem test_showMessage : ((after (.showMessage .console 30 [0x41]) home).display.overlay.map (·.remaining)) = some 300
    ∧ lastBlock (after (.showMessage .console 0 [0x7F]) home).console = some (0xF0, [0x60, 0x16]) := by decide

/-- R167: divider 0 is kept as 1 and the reply is Clamped. -/
theorem test_setTones : (after (.setTones .console 3 0 4) home).tones.done = ⟨1, .whole⟩
    ∧ lastBlock (after (.setTones .console 3 0 4) home).console = some (0xF0, [0x62, 2, 1]) := by decide

/-- R148: "teh" joins the list once; a second Add Word is Already. -/
theorem test_addWord :
    let t := after (.addWord .link [0x74, 0x65, 0x68]) home
    t.spelling.userWords.map (fun u => (u.length, u.capital)) = [(3, false)]
      ∧ lastBlock (after (.addWord .console [0x54, 0x65, 0x68]) t).console = some (0xF0, [0x53, 3]) := by decide

/-- R80: Rehome while Homing is Busy; R86: Wheel Mounted while Ready is NotInMode. -/
theorem test_rehome : lastBlock (after (.rehome .console) State.reset).console = some (0xF0, [0x33, 0x10]) := by decide
theorem test_wheelMounted : lastBlock (after (.wheelMounted .console) home).console = some (0xF0, [0x35, 0x13]) := by decide

/-- R79, R82, R10: hub 7 with no store gives the fallback wheel, and with a ribbon Ready. -/
theorem test_indexFound :
    let t := after (.indexFound 7) { home with engine := { Engine.reset with
      ribbon := 1, homing := some ⟨true, false, .wheel⟩ } }
    t.engine.state = .ready ∧ t.engine.petalMap.map (·.wheelId) = some 7 ∧ t.link.queue.map (·.data) = [[7, 12]] := by decide

/-- R3: after the reset pair, the status read of the recovery. -/
theorem test_storeOpComplete : (after (.storeOpComplete []) State.reset).store.link.map (·.op) = some .statusRead := by decide

/-- R110: Lift Back with offset 0 is out of range; R115: Lift Last with nothing on paper is refused with NoTarget at its
start, as a Lift Refused to the console. -/
theorem test_liftBack : lastBlock (after (.liftBack .console 0 0) home).console = some (0xF0, [0x43, 0x16]) := by decide
theorem test_liftLast : lastBlock (after .jobStart (after (.liftLast .console) home)).console = some (0xA9, [0x40, 0]) := by
  decide

/-- R116: of two entries struck at one position the newest is lifted first. -/
theorem test_liftOrder :
    let line : StrikeEntry := { entryA with name := 1, code := 0x5F, pass := .underscore }
    (correctionOrders .last ⟨⟨0, 9, .link, 0, none, [entryA, line]⟩, [entryA, line], none⟩ 0).filterMap
      (fun o => match o with | .lift _ e => some e.name | _ => none) = [1, 0] := by
  decide

/-- R67, R88: a Correction job that would be refused is refused although the ribbon is at 0; the engine stays Ready. -/
theorem test_liftLast_ribbonOut :
    let s := withEngine { home.engine with ribbon := 0 }
    (after .jobStart (after (.liftLast .console) s)).engine.state = .ready := by decide

/-- R50: with the map Unloaded, Set Margins on a Free line leaves the compose position as last computed, until a map
is loaded. -/
theorem test_setMargins_unloaded :
    let s := { withEngine { home.engine with petalMap := none } with composer := { home.composer with position := 120 } }
    (after (.setMargins .link 200 1000) s).composer.position = 120 := by decide

/-- R27, R37: a Return that leaves the line Held at once starts the hold limit from its full length. -/
theorem test_return_held :
    let s := { withLine .console .line .composing with
      options := { home.options with spellHold := true, spelling := true }
      line := { lineOf .console .line .composing with
        endCause := none, words := [⟨0, 2, false, .suspect, none, 0, false⟩] }
      composer := { home.composer with
        consoleRing := [⟨.function .carriageReturn, false, false⟩], linkRing := [⟨.space, false, false⟩] }
      holdTimer := some 1 }
    (after .composeStroke s).line.phase = .held ∧ (after .composeStroke s).holdTimer = some 1000 := by decide

/-! ### States that meet the hypotheses of the statements -/

/-- A key pressed at the console, still waiting. -/
def typing : State := { home with pending := [.keyStroke .console 0 0x61] }

def withOverlay (p : Port) (n : Nat) : State :=
  { home with display := { home.display with overlay := some ⟨[0x41], p, n⟩ } }

/-- Part of a block held at the link. -/
def held (bytes : List Byte) : State := home.setPort .link { home.link with assembly := bytes, gap := some 6 }

/-- Clear Message of the link done, and its reply read so far by these reads. -/
def answering (reads : List Instr) : State :=
  reads.foldl (fun (s : State) (c : Instr) => after c s) (after (.clearMessage .link) (withOverlay .link 0))

def withSuspect : State := { home with spelling := { home.spelling with suspects := [suspectTeh] } }
def oneWord : State := { home with spelling := { home.spelling with userWords := [userWordOf suspectTeh.letters] } }
def fullRing : State := { home with partition := { home.partition with consoleRing := 0 } }

def awaiting (requests : List AwaitRequest) : State :=
  { home with
    options := { home.options with keyboardSharing := true }, composer := { home.composer with awaits := requests } }

def withTabs (tabs : List Nat) : State := { home with format := { home.format with tabs := tabs } }
def withPoint : State := { home with lift := { home.lift with point := some (150, 60) } }

/-- The store Present with a lexicon and a user area. -/
def present : State := { home with store := { home.store with
  state := .present, lexicon := some ⟨14, 4096, 524288⟩, userArea := some ⟨0, 532480, 8192⟩ } }

def onLink (x : LinkOp) (step : Option StartStep) : State :=
  { home with store := { home.store with link := some x, startUp := step } }

/-- The console's Direct-mode line at compose position `x`, an 'a' in its ring. -/
def directAt (x : Nat) : State := { withLine .console .direct .composing with
  composer := { home.composer with consoleRing := [⟨.character 0x61, false, false⟩], position := x } }

def recordOf (entries : List StrikeEntry) : LineRecord where
  name := 0
  serial := 9
  source := .link
  vertical := 0
  unrecorded := none
  entries := entries

def oneRecord : CorrectionMemory := { CorrectionMemory.reset with records := [recordOf []], openRecord := some 0, nextRecord := 1 }

/-- An image with one blinking cell. -/
def blinking : Image := { Image.blank with cells := [⟨some 0x61, true, false, false⟩] }

/-- A state whose display shows what its sources ask. -/
def drawn (s : State) : State := { s with display := displayNow s }

/-- Several counts running, none at its last tick. -/
def running2 : State := { withOverlay .link 2 with
  tones := { home.tones with sounding := some ⟨.bell, 2, ⟨25, .half⟩⟩ }, restTimer := some 2 }

def cellA (x : Nat) : Cell := ⟨.character, 0x61, false, false, 10, x, 0⟩
def space : Cell := ⟨.space, 0x20, false, false, 10, 0, 0⟩

/-- Away: the console holds the line of record 0, with these jobs in the queue. -/
def awayState (jobs : List Job) : State := { withLine .console .direct .composing with
  lift := { home.lift with away := true, point := some (150, 60) }, engine := { home.engine with queue := jobs } }

/-- The link's line with a complete word, Link Spelling on, and an operation on the store link. -/
def spelledLine : State := { withLine .link .line .composing with
  line := { lineOf .link .line .composing with cells := [cellA 120, cellA 130, space] }
  store := { home.store with link := some ⟨.save, .sectorErase 0, some 2⟩ } }

/-- A lookup of the queried word under way. -/
def queryTeh : SpellEntry where
  origin := .query
  serial := 0
  first := 0
  count := 0
  continued := false
  generation := 0
  letters := suspectTeh.letters
  length := 3
  primary := 0
  fingerprint := fingerprint suspectTeh.letters
  tag := 0
  bucket := 0
  probes := 0
  stale := false
  inFlight := true

def looking : State := { present with
  store := { present.store with link := some ⟨.lookup, .wrappedRead 4096, some 51⟩ }
  spelling := { home.spelling with queue := [queryTeh], queries := [⟨0, suspectTeh.letters, true⟩] } }

/-- A full bucket with another word in every slot and the Continued flag in slot 0. -/
def goOnBytes : List Byte := (List.replicate 8 [1, 1, 1, 0x42]).flatten

def lineTeh : SpellEntry := { queryTeh with origin := .line .link, serial := 9, first := 4, count := 3 }

/-- A cut line of the link waiting after a Wrap; the lookup of a word of its carry is under way. -/
def wrapped : State := { looking with
  line := { lineOf .link .line .waiting with cells := [cellA 120], cursor := 1, carry := some [] }
  spelling := { home.spelling with queue := [lineTeh] } }

/-- A lexicon slot of the word 'teh'. -/
def slotBytes : List Byte := let f := fingerprint suspectTeh.letters
  [byte (f / 65536), byte (f / 256), byte f, 3]

def directOn (x : Nat) (cells : List Cell) : State := { directAt x with line := { (directAt x).line with cells := cells } }

def directStroke (k : StrokeKind) (x : Nat) (cells : List Cell) : State := { directOn x cells with
  composer := { (directOn x cells).composer with consoleRing := [⟨k, false, false⟩] } }

/-- Margins 60 apart: an 'a', a Space and an 'a' leave 30, three Spaces' width. -/
def narrow : FormatRecord := { home.format with left := 120, right := 180 }

def wrapping : State := { withLine .link .line .composing with
  line := { lineOf .link .line .composing with cells := [cellA 120, space, cellA 140, cellA 150], cursor := 4 }
  format := { home.format with left := 120, right := 160, linkWrap := true }
  composer := { home.composer with linkRing := [⟨.character 0x61, false, false⟩] } }

def liftOf (c : LiftCommand) : Correction := ⟨c, 0, 120, none, none, 0, none⟩
def liftJob (c : Correction) : Job := { Job.empty .correction .link with correction := some c }

/-- One Correction job, and a record with these entries. -/
def correcting (c : Correction) (entries : List StrikeEntry) : State :=
  { withEngine { home.engine with queue := [liftJob c] } with
    memory := { oneRecord with records := [recordOf entries] } }

def withTape (n : Nat) (s : State) : State := { s with engine := { s.engine with tape := n } }

/-- A Lift at the hammer, the page's height still to come back. -/
def lifting : Job := { liftJob (liftOf .last) with
  serial := some 9, orders := [.lift 0 entryA, .feed 2], started := true }

def liftingDirect : State := { directOn 130 [cellA 120] with
  engine := { home.engine with state := .working, queue := [lifting], hammer := .returning 1, ribbon := 1 } }

/-- The section entry of a user area. -/
def userEntry : List Byte := [3, 0, 0x10, 0, 0, 0, 0, 0x20, 0, 0, 0, 0]

/-- A wheel table: hub code 7, pitch 12, 'a' on petal 0, the underscore's. -/
def wheelTable : List Byte :=
  [7, 12, 10, 0, 0x61, 10, 2, 0] ++ List.replicate 380 0 ++ [0, 0, 0, 138]

/-- The link's ring holds this stroke alone. -/
def inRing (k : StrokeKind) (s : State) : State :=
  { s with composer := { s.composer with linkRing := [⟨k, false, false⟩] } }

/-- Eight records of one line, none open. -/
def eightRecords : CorrectionMemory := { CorrectionMemory.reset with
  records := (List.range 8).map fun n => { recordOf [] with name := n }, nextRecord := 8 }

/-- A closed record with an entry, and the open one. -/
def twoRecords : CorrectionMemory := { CorrectionMemory.reset with
  records := [recordOf [entryA], { recordOf [] with name := 1 }], openRecord := some 1, nextRecord := 2 }

theorem meets_DecodeOfEncodeBlock :
    encodeBlock (.typeText .link (List.replicate 30 0x61)) = some (.link, 0x11, List.replicate 30 0x61)
      ∧ (Instr.typeText .link (List.replicate 30 0x61)).wellFormed = true := by decide

theorem meets_BytesMakeTheBlock :
    encodeBlock (.setMargins .link 120 1020) = some (.link, 0x20, [0, 120, 3, 0xFC])
      ∧ (Instr.setMargins .link 120 1020).wellFormed = true ∧ portFree .link home ∧ (home.port .link).assembly = [] := by unfold portFree; decide

theorem meets_WrongPortIsNotPermitted :
    encodeBlock (.partition .link 960 256 1024 256) = some (.link, 0x04, [3, 0xC0, 1, 0, 4, 0, 1, 0])
      ∧ (Instr.partition .link 960 256 1024 256).wellFormed = true ∧ portFree .link home
      ∧ codeRow 0x04 = some ⟨true, false, 8, 8⟩ ∧ CodeRow.permits ⟨true, false, 8, 8⟩ .link = false := by unfold portFree; decide

theorem meets_StepKeepsFormatAndPartition :
    formatInv typing ∧ partitionInv typing ∧ step typing = .next (after (.keyStroke .console 0 0x61) home) := ⟨by unfold formatInv; decide, by unfold partitionInv; decide, rfl⟩

theorem meets_StepKeepsBoundedCollections :
    queueInv typing ∧ recordsInv typing ∧ suspectsInv typing ∧ spellQueueInv typing
      ∧ step typing = .next (after (.keyStroke .console 0 0x61) home) := 
  ⟨by unfold queueInv; decide, by unfold recordsInv; decide, by unfold suspectsInv; decide, by unfold spellQueueInv; decide,
    rfl⟩

theorem meets_StepKeepsUserWords :
    userWordsInv typing ∧ step typing = .next (after (.keyStroke .console 0 0x61) home) := ⟨by unfold userWordsInv; decide, rfl⟩

theorem meets_StepKeepsPorts :
    portsInv typing ∧ step typing = .next (after (.keyStroke .console 0 0x61) home) := 
  ⟨⟨⟨by decide, by decide, by decide, fun _ _ _ => Nat.zero_le 1, by decide⟩,
    ⟨by decide, by decide, by decide, fun _ _ _ => Nat.zero_le 1, by decide⟩⟩, rfl⟩

theorem meets_StepKeepsAwaitPlaces :
    awaitInv typing ∧ step typing = .next (after (.keyStroke .console 0 0x61) home) := ⟨by unfold awaitInv; decide, rfl⟩

theorem meets_StepKeepsLine :
    lineInv typing ∧ step typing = .next (after (.keyStroke .console 0 0x61) home) := 
  ⟨⟨by decide, by decide, fun _ h => by (cases h), by decide, by decide, by decide⟩, rfl⟩

theorem meets_StepKeepsHoldTimer :
    holdInv typing ∧ step typing = .next (after (.keyStroke .console 0 0x61) home) := ⟨by unfold holdInv; decide, rfl⟩

theorem meets_StepKeepsImage :
    imageInv { typing with display := { typing.display with image := imageNow home } }
      ∧ ∃ t, step { typing with display := { typing.display with image := imageNow home } } = .next t := ⟨by unfold imageInv; decide, _, rfl⟩

theorem meets_PortResetClearsThePort :
    home.line.phase ≠ .checking := by decide

theorem meets_ResetReleaseAndGapExpiry :
    ((after (.dataWrite .link 0x20) home).port .link).gap = some 6
      ∧ ((after (.dataWrite .link 0x20) home).port .link).assembly = [0x20] ∧ (home.port .link).gap = none := by decide

theorem meets_DataWriteTakesAByte :
    ((after (.portReset .link) home).port .link).resetAsserted = true
      ∧ (((after (.readFormat .link) home).port .link).resetAsserted = false
        ∧ ((after (.readFormat .link) home).port .link).inHand = true)
      ∧ (portFree .link home ∧ (home.port .link).assembly = [])
      ∧ (portFree .link (held [0x20]) ∧ ((held [0x20]).port .link).assembly = [0x20] ∧ (30 : Byte).toNat ≤ 30
        ∧ 30 < (31 : Byte).toNat)
      ∧ (portFree .link (held [0x11, 30]) ∧ ((held [0x11, 30]).port .link).assembly = 0x11 :: 30 :: []
        ∧ (30 : Byte).toNat ≤ 30 ∧ ([] : List Byte).length < (30 : Byte).toNat)
      ∧ (portFree .link (held [0x24, 1, 4]) ∧ ((held [0x24, 1, 4]).port .link).assembly = 0x24 :: 1 :: [4]
        ∧ (1 : Byte).toNat ≤ 30 ∧ ([4] : List Byte).length = (1 : Byte).toNat
        ∧ (5 : Byte) ≠ BitVec.ofNat 8 ((1 : Byte).toNat + 3)) := by unfold portFree; decide

theorem meets_DataReadReturnsTheNextByte :
    ((after (.portReset .link) home).port .link).resetAsserted = true
      ∧ ((home.port .link).resetAsserted = false ∧ (home.port .link).readBuffer = none ∧ (home.port .link).queue = [])
      ∧ (((answering []).port .link).resetAsserted = false
        ∧ ((answering []).port .link).readBuffer = none
        ∧ ((answering []).port .link).queue = (Reply.plain .done).block 0x61 :: [])
      ∧ (((answering [.dataRead .link]).port .link).resetAsserted = false
        ∧ ((answering [.dataRead .link]).port .link).readBuffer = some ⟨(Reply.plain .done).block 0x61, 1⟩
        ∧ 1 + 1 < ((Reply.plain .done).block 0x61).wire.length)
      ∧ (((answering [.dataRead .link, .dataRead .link, .dataRead .link, .dataRead .link]).port .link).readBuffer
          = some ⟨(Reply.plain .done).block 0x61, 4⟩
        ∧ 4 + 1 = ((Reply.plain .done).block 0x61).wire.length) := by decide

theorem meets_ReadingCommands :
    portFree .link home ∧ home.spelling.suspects[(0 : Byte).toNat]? = none
      ∧ portFree .link withSuspect ∧ withSuspect.spelling.suspects[(0 : Byte).toNat]? = some suspectTeh := by unfold portFree; decide

theorem meets_SetNoticesReplacesTheSet :
    portFree .link home ∧ 8 ≤ (8 : Byte).toNat ∧ (7 : Byte).toNat < 8 := by unfold portFree; decide

theorem meets_SetOptionByItsTable :
    portFree .console home ∧ home.engine.state = .ready ∧ min 30 (0 : Half).toNat = 0 ∧ min 30 (31 : Half).toNat = 30
      ∧ onOff 1 = some true ∧ onOff 0 = some false ∧ onOff 2 = none ∧ optionOf 0x08 = none ∧ portFree .link home := by unfold portFree; decide

theorem meets_PartitionRedividesTheMemory :
    portFree .console (withEngine { home.engine with queue := [Job.empty .motion .link] })
      ∧ partitionBusy (withEngine { home.engine with queue := [Job.empty .motion .link] }) = true
      ∧ portFree .console home ∧ partitionBusy home = false
      ∧ ({ pool := (1536 : Half).toNat, userWords := (0 : Half).toNat, linkRing := (64 : Half).toNat,
           consoleRing := (32 : Half).toNat } : Machine.Partition).valid = false
      ∧ ({ pool := (704 : Half).toNat, userWords := (256 : Half).toNat, linkRing := (2048 : Half).toNat,
           consoleRing := (256 : Half).toNat } : Machine.Partition).valid = true
      ∧ home.spelling.userWords.length ≤ (256 : Half).toNat
      ∧ portFree .console oneWord ∧ partitionBusy oneWord = false
      ∧ ({ pool := (960 : Half).toNat, userWords := (0 : Half).toNat, linkRing := (1024 : Half).toNat,
           consoleRing := (256 : Half).toNat } : Machine.Partition).valid = true
      ∧ (0 : Half).toNat < oneWord.spelling.userWords.length := by unfold portFree; decide

theorem meets_RestartBeginsAgain :
    portFree .console home := by unfold portFree; decide

theorem meets_KeyStrokeJoinsTheRing :
    portFree .console home ∧ decodeStroke 0 0x20 = none ∧ decodeStroke 0 0x21 = some ⟨.character 0x21, false, false⟩
      ∧ home.options.keyboardSharing = false ∧ home.composer.consoleRing.length < home.partition.consoleRing
      ∧ portFree .console fullRing ∧ fullRing.options.keyboardSharing = false
      ∧ fullRing.partition.consoleRing ≤ fullRing.composer.consoleRing.length ∧ portFree .link home := by unfold portFree; decide

theorem meets_KeyStrokeRoutedToAwait :
    portFree .console (awaiting [⟨6, 2, [], false, none⟩])
      ∧ decodeStroke 0 0x79 = some ⟨.character 0x79, false, false⟩
      ∧ (awaiting [⟨6, 2, [], false, none⟩]).options.keyboardSharing = true
      ∧ (awaiting [⟨6, 2, [], false, none⟩]).composer.awaits = ⟨6, 2, [], false, none⟩ :: []
      ∧ ([] : List Stroke).length + 1 ≠ 2 ∧ portFree .console (awaiting [⟨7, 1, [], false, none⟩])
      ∧ (awaiting [⟨7, 1, [], false, none⟩]).composer.awaits = ⟨7, 1, [], false, none⟩ :: []
      ∧ ([] : List Stroke).length + 1 = 1 := by unfold portFree; decide

theorem meets_TypeTextIsTakenWhole :
    portFree .link home ∧ ([0x61] : List Byte).length ≤ 30
      ∧ (readText ⟨false, false⟩ [0x61]).strokes.length ≤ home.partition.linkRing - home.composer.linkRing.length
      ∧ portFree .link { home with partition := { home.partition with linkRing := 0 } }
      ∧ 0 < (readText ⟨false, false⟩ [0x61]).strokes.length := by unfold portFree; decide

theorem meets_ReleaseLineDiscards :
    portFree .link home ∧ home.line.holder = none
      ∧ portFree .link (withLine .console .direct .composing)
      ∧ (withLine .console .direct .composing).line.holder = some (Port.other .link)
      ∧ portFree .console (withLine .console .direct .composing)
      ∧ (withLine .console .direct .composing).line.holder = some .console
      ∧ (withLine .console .direct .composing).line.mode = .direct
      ∧ portFree .link (withLine .link .line .composing) ∧ (withLine .link .line .composing).line.holder = some .link
      ∧ (withLine .link .line .composing).line.mode = .line := by unfold portFree; decide

theorem meets_AwaitRequests :
    portFree .link home ∧ home.options.keyboardSharing = false
      ∧ (let s := awaiting (List.replicate 4 ⟨0, 1, [], false, none⟩);
        portFree .link s ∧ s.options.keyboardSharing = true ∧ 4 ≤ awaitLoad s)
      ∧ (let s := awaiting (List.replicate 3 ⟨0, 1, [], false, none⟩);
        portFree .link s ∧ s.options.keyboardSharing = true ∧ awaitLoad s < 4)
      ∧ ((0 : Byte).toNat < 1 ∧ 28 < (29 : Byte).toNat ∧ 1 < (2 : Byte).toNat ∧ 32767 < (32768 : Half).toNat)
      ∧ (1 ≤ (28 : Byte).toNat ∧ (28 : Byte).toNat ≤ 28 ∧ (1 : Byte).toNat ≤ 1 ∧ (32767 : Half).toNat ≤ 32767)
      ∧ (awaiting [⟨6, 2, [], false, none⟩]).composer.awaits = [⟨6, 2, [], false, none⟩]
      ∧ enabled (awaiting [⟨6, 2, [], false, none⟩]).link.enable 0xA7 = true
      ∧ (awaiting [⟨6, 2, [], false, some 1⟩]).composer.awaits[0]? = some ⟨6, 2, [], false, some 1⟩
      ∧ (some 1 : Option Nat).isSome = true := by unfold portFree; decide

theorem meets_MarginAndTabCommands :
    portFree .link (withLine .console .line .composing) ∧ ownsFormat .link (withLine .console .line .composing) = false
      ∧ portFree .link home ∧ ownsFormat .link home = true ∧ home.line.phase = .free
      ∧ ¬ ((1440 : Half).toNat ≤ 1440 ∧ 120 ≤ (1559 : Half).toNat ∧ (1559 : Half).toNat ≤ 1560
        ∧ (1440 : Half).toNat + 120 ≤ (1559 : Half).toNat)
      ∧ ((1440 : Half).toNat ≤ 1440 ∧ 120 ≤ (1560 : Half).toNat ∧ (1560 : Half).toNat ≤ 1560
        ∧ (1440 : Half).toNat + 120 ≤ (1560 : Half).toNat)
      ∧ 1559 < (1560 : Half).toNat ∧ (1559 : Half).toNat ≤ 1559 ∧ (1559 : Half).toNat ∉ home.format.tabs
      ∧ home.format.tabs.length < 16
      ∧ (let s := withTabs (List.range 16);
        portFree .link s ∧ ownsFormat .link s = true ∧ (15 : Half).toNat ∈ s.format.tabs
          ∧ (16 : Half).toNat ∉ s.format.tabs ∧ 16 ≤ s.format.tabs.length) := by unfold portFree; decide

theorem meets_MarginAndTabCommands_line :
    lineInv home := 
  ⟨by decide, by decide, fun _ h => by (cases h), by decide, by decide, by decide⟩

theorem meets_OtherFormatCommands :
    portFree .link (withLine .console .line .composing) ∧ ownsFormat .link (withLine .console .line .composing) = false
      ∧ portFree .link home ∧ ownsFormat .link home = true ∧ 3 < (4 : Byte).toNat ∧ spacingOf 3 = some .proportional
      ∧ 2 < (3 : Byte).toNat ∧ impressionOf 2 = some .heavy
      ∧ (let s := withEngine { home.engine with pageLines := 131, platen := 131 };
        s.engine.pageEnd = false ∧ s.engine.pageLines < (completeFeed 1 s).engine.pageLines
          ∧ (s.format.pageLength : Int) ≤ (completeFeed 1 s).engine.pageLines) := by unfold portFree; decide

theorem meets_FeedAndFormFeed :
    portFree .link (withLine .console .line .composing) ∧ ownsFormat .link (withLine .console .line .composing) = false
      ∧ (let s := { home with lift := { home.lift with away := true } };
        portFree .console s ∧ ownsFormat .console s = true ∧ s.lift.away = true)
      ∧ (let s := withEngine { home.engine with queue := List.replicate 4 (Job.empty .motion .link) };
        portFree .link s ∧ ownsFormat .link s = true ∧ s.lift.away = false ∧ 4 ≤ s.engine.queue.length)
      ∧ (let s := withEngine { home.engine with queue := List.replicate 3 (Job.empty .motion .link) };
        portFree .link s ∧ ownsFormat .link s = true ∧ s.lift.away = false ∧ s.engine.state ≠ .fault
          ∧ s.engine.queue.length < 4)
      ∧ (0 : Byte).toInt = 0 ∧ (0xEF : Byte).toInt < -16 ∧ 16 < (17 : Byte).toInt
      ∧ ((0xF0 : Byte).toInt ≠ 0 ∧ -16 ≤ (0xF0 : Byte).toInt ∧ (0xF0 : Byte).toInt ≤ 16)
      ∧ ((16 : Byte).toInt ≠ 0 ∧ -16 ≤ (16 : Byte).toInt ∧ (16 : Byte).toInt ≤ 16) := by unfold portFree; decide

theorem meets_CancelPrintingRemovesJobs :
    portFree .link (withEngineAt (.move 120) (.feed 2)) ∧ (withEngineAt (.move 120) (.feed 2)).lift.owed = false
      ∧ (∀ j ∈ (withEngineAt (.move 120) (.feed 2)).engine.queue, j.cancelled = false)
      ∧ (withEngineAt (.move 120) (.feed 2)).engine.state = .working
      ∧ (withEngineAt (.move 120) (.feed 2)).engine.queue = jobAt (.move 120) (.feed 2) :: []
      ∧ portFree .link home ∧ home.lift.owed = false ∧ home.engine.queue = [] ∧ home.engine.state ≠ .working := by unfold portFree; decide

theorem meets_RehomeAndWheelChange :
    (let s := { home with lift := { home.lift with away := true } };
        portFree .console s ∧ s.lift.away = true)
      ∧ (portFree .console State.reset ∧ State.reset.lift.away = false ∧ State.reset.engine.state = .homing)
      ∧ (let s := withEngine { home.engine with queue := [Job.empty .motion .link] };
        portFree .console s ∧ s.lift.away = false ∧ s.engine.state ≠ .fault ∧ s.engine.queue ≠ [])
      ∧ (portFree .console home ∧ home.lift.away = false ∧ home.engine.queue = [] ∧ home.engine.state = .ready)
      ∧ (home.engine.state ≠ .wheelChange ∧ home.engine.state ≠ .wheelFault)
      ∧ (let s := withEngine { home.engine with state := .wheelChange, carrierMove := some ⟨780, 61⟩ };
        portFree .console s ∧ s.engine.state = .wheelChange ∧ s.engine.carrierMove.isSome = true)
      ∧ (let s := withEngine { home.engine with state := .wheelChange };
        portFree .console s ∧ s.engine.state = .wheelChange ∧ s.engine.carrierMove = none)
      ∧ (let s := withEngine { home.engine with state := .fault };
        portFree .console s ∧ s.lift.away = false ∧ s.engine.state = .fault) := by unfold portFree; decide

theorem meets_LoadSupplySetsTheCounts :
    portFree .console home ∧ 1 < (2 : Byte).toNat ∧ ribbonKindOf 1 = some .fabric ∧ home.engine.state ≠ .supplyOut
      ∧ ¬ (1 ≤ (501 : Half).toNat ∧ (501 : Half).toNat ≤ 500) ∧ ¬ (1 ≤ (101 : Half).toNat ∧ (101 : Half).toNat ≤ 100)
      ∧ ¬ (1 ≤ (0 : Half).toNat ∧ (0 : Half).toNat ≤ 500)
      ∧ (1 ≤ (500 : Half).toNat ∧ (500 : Half).toNat ≤ 500) ∧ (1 ≤ (100 : Half).toNat ∧ (100 : Half).toNat ≤ 100)
      ∧ (let s := withEngine { home.engine with state := .supplyOut, ribbon := 0, queue := [Job.empty .motion .link] };
        portFree .console s ∧ s.engine.state = .supplyOut ∧ 0 < (1 : Half).toNat ∧ (0 : Half).toNat = 0
          ∧ ∀ j ∈ s.engine.queue, j.started = false) := by unfold portFree; decide

theorem meets_LiftCommandsTakenOrRefused :
    portFree .console withPoint ∧ portFree .link withPoint ∧ withPoint.engine.state ≠ .fault
      ∧ withPoint.engine.queue.length < 4 ∧ 1 ≤ (7 : Byte).toNat ∧ (7 : Byte).toNat ≤ 7 ∧ (1559 : Half).toNat ≤ 1559
      ∧ withPoint.lift.away = false ∧ (∀ j ∈ withPoint.engine.queue, j.isLiftBack = false)
      ∧ lineInTheWay withPoint = false ∧ withPoint.lift.point = some (150, 60)
      ∧ (∀ j ∈ withPoint.engine.queue, j.relocate = false)
      ∧ (let s := withEngine { home.engine with queue := List.replicate 4 (Job.empty .motion .link) };
        portFree .console s ∧ portFree .link s ∧ 4 ≤ s.engine.queue.length ∧ s.lift.away = false)
      ∧ ((0 : Byte).toNat < 1 ∧ 7 < (8 : Byte).toNat ∧ 1559 < (1560 : Half).toNat)
      ∧ (let s := { home with lift := { home.lift with away := true } };
        portFree .console s ∧ s.lift.away = true)
      ∧ (let s := withEngine { home.engine with queue := [correctionJob .console .back 1 0 none] };
        portFree .console s ∧ s.lift.away = false ∧ ∃ j ∈ s.engine.queue, j.isLiftBack = true)
      ∧ lineInTheWay (withLine .link .line .composing) = true
      ∧ (let s := withEngine { home.engine with queue := [relocateJob 150] };
        portFree .console s ∧ s.engine.state ≠ .fault ∧ s.engine.queue.length < 4 ∧ ∃ j ∈ s.engine.queue, j.relocate = true)
      ∧ (portFree .console home ∧ home.engine.queue = [] ∧ home.lift.point = none) := by unfold portFree; decide

theorem meets_SuspectAndAddWordCommands :
    portFree .link home ∧ home.spelling.suspects[(0 : Byte).toNat]? = none
      ∧ portFree .link withSuspect ∧ withSuspect.spelling.suspects[(0 : Byte).toNat]? = some suspectTeh
      ∧ suspectTeh.place = .record
      ∧ portFree .link State.reset ∧ listFrozen State.reset = true ∧ listFrozen home = false
      ∧ wordForm [0x61] = false ∧ 24 < (List.replicate 25 (0x61 : Byte)).length
      ∧ listFrozen withSuspect = false ∧ wordForm suspectTeh.letters = true ∧ suspectTeh.letters.length ≤ 24
      ∧ withSuspect.spelling.userWords.any (·.matches suspectTeh.letters) = false
      ∧ withSuspect.spelling.userWords.length < withSuspect.partition.userWords
      ∧ portFree .link oneWord ∧ listFrozen oneWord = false
      ∧ oneWord.spelling.userWords.any (·.matches suspectTeh.letters) = true
      ∧ (let s := { home with partition := { home.partition with userWords := 0 } };
        portFree .link s ∧ listFrozen s = false ∧ s.spelling.userWords.any (·.matches suspectTeh.letters) = false
          ∧ s.partition.userWords ≤ s.spelling.userWords.length) := by unfold portFree; decide

theorem meets_RemoveWordTakesTheRecordAway :
    portFree .link State.reset ∧ 1 ≤ suspectTeh.letters.length ∧ suspectTeh.letters.length ≤ 30
      ∧ State.reset.store.state = .starting
      ∧ portFree .link home ∧ home.store.state ≠ .starting ∧ home.store.save = none ∧ wordForm [0x61] = false
      ∧ 24 < (List.replicate 25 (0x61 : Byte)).length ∧ (List.replicate 30 (0x61 : Byte)).length ≤ 30
      ∧ wordForm suspectTeh.letters = true ∧ suspectTeh.letters.length ≤ 24 ∧ home.spelling.userWords = []
      ∧ portFree .link oneWord ∧ oneWord.store.state ≠ .starting ∧ oneWord.store.save = none
      ∧ (∃ u ∈ oneWord.spelling.userWords, u.fingerprint = fingerprint suspectTeh.letters
        ∧ u.length = suspectTeh.letters.length)
      ∧ (∃ u ∈ oneWord.spelling.userWords, userGood [u] suspectTeh.letters = true) := by unfold portFree; decide

theorem meets_SaveUserWordsStarts :
    portFree .link State.reset ∧ State.reset.store.state = .starting
      ∧ portFree .link home ∧ home.store.state = .absent
      ∧ portFree .link present ∧ present.store.state = .present ∧ present.store.save = none
      ∧ present.store.flags.noUserArea = false ∧ present.store.userArea = some ⟨0, 532480, 8192⟩
      ∧ present.store.link = none ∧ present.store.wheelOp = none
      ∧ (let s := { present with store := { present.store with save := some ⟨.console, []⟩ } };
        portFree .link s ∧ s.store.state = .present ∧ s.store.save.isSome = true)
      ∧ (let s := { present with store := { present.store with flags := { StoreFlags.clear with noUserArea := true } } };
        portFree .link s ∧ s.store.state = .present ∧ s.store.save = none ∧ s.store.flags.noUserArea = true) := by unfold portFree; decide

theorem meets_CheckWordAnswersOrQueues :
    portFree .link present ∧ 1 ≤ suspectTeh.letters.length ∧ suspectTeh.letters.length ≤ 30
      ∧ (let s := { home with spelling := { home.spelling with queries := List.replicate 2 ⟨0, [0x61, 0x61], true⟩ } };
        portFree .link s ∧ 2 ≤ s.spelling.queries.length)
      ∧ present.spelling.queries.length < 2 ∧ wordForm [0x61] = false ∧ wordForm suspectTeh.letters = true
      ∧ portFree .link home ∧ home.spelling.queries.length < 2 ∧ queryAtOnce suspectTeh.letters home = some 2
      ∧ home.store.lexiconAvailable = false
      ∧ wordForm (List.replicate 25 0x61) = true ∧ 24 < (List.replicate 25 (0x61 : Byte)).length
      ∧ queryAtOnce suspectTeh.letters present = none ∧ present.line.phase ≠ .checking ∧ present.spelling.queries = []
      ∧ present.spelling.queue.length < 8 := by unfold portFree; decide

theorem meets_ShowMessagePlacesAnOverlay :
    portFree .link home ∧ ([0x7F] : List Byte).length ≤ 28 ∧ (∃ c ∈ ([0x7F] : List Byte), overlayCode c = false)
      ∧ portFree .console (withOverlay .link 2) ∧ (List.replicate 28 (0x20 : Byte)).length ≤ 28
      ∧ (∀ c ∈ List.replicate 28 (0x20 : Byte), overlayCode c = true) ∧ linkOverlay (withOverlay .link 2) = true
      ∧ portFree .console home ∧ linkOverlay home = false ∧ consoleOverlay home = false
      ∧ portFree .link (withOverlay .console 1) ∧ consoleOverlay (withOverlay .console 1) = true
      ∧ (withOverlay .console 1).display.overlay = some ⟨[0x41], .console, 1⟩ ∧ 0 < 1
      ∧ (withOverlay .link 0).display.overlay = some ⟨[0x41], .link, 0⟩ := by unfold portFree; decide

theorem meets_ClearMessageRemovesItsOwn :
    portFree .link (withOverlay .link 0) ∧ ownsOverlay .link (withOverlay .link 0) = true
      ∧ portFree .console (withOverlay .link 0) ∧ ownsOverlay .console (withOverlay .link 0) = false := by unfold portFree; decide

theorem meets_TonesAndTheirVoices :
    portFree .console home ∧ toneOf 4 = none ∧ dutyOf 0 = none ∧ toneOf 3 = some .done ∧ dutyOf 4 = some .whole
      ∧ home.tones.sounding = none
      ∧ (let x : Sounding := ⟨.bell, 20, home.tones.bell⟩;
        ToneName.bell.priority ≤ x.tone.priority ∧ x.tone.priority < ToneName.refuse.priority) := by unfold portFree; decide

theorem meets_DirectCharacterIsStruck :
    (let s := directAt 1010;
        s.line.phase = .composing ∧ s.line.holder = some .console ∧ s.line.mode = .direct
          ∧ s.composer.consoleRing = ⟨.character 0x61, false, false⟩ :: [] ∧ s.engine.petalMap = some wheel
          ∧ s.engine.queue.length < 4 ∧ s.engine.state ≠ .fault
          ∧ s.composer.position + advanceOf s.format wheel 0x61 ≤ (if s.line.marginRelease then 1560 else s.format.right)
          ∧ s.line.cells.length < 160 ∧ wheel.find 0x61 = some ⟨0x61, 64, 10, 2⟩
          ∧ (s.composer.position + (metrics s.format wheel ⟨0x61, 64, 10, 2⟩).offset).toNat
              + (metrics s.format wheel ⟨0x61, 64, 10, 2⟩).strikeWidth ≤ 1560 ∧ s.engine.state ≠ .resting)
      ∧ (let s := directAt 1011;
        (if s.line.marginRelease then 1560 else s.format.right) < s.composer.position + advanceOf s.format wheel 0x61) := by decide

theorem meets_LineCharacterIsInserted :
    (let s := { withLine .link .line .composing with
          composer := { home.composer with linkRing := [⟨.character 0x61, false, false⟩] } };
        s.line.phase = .composing ∧ s.line.holder = some .link ∧ s.line.mode = .line ∧ s.lift.away = false
          ∧ s.composer.ring .link = ⟨.character 0x61, false, false⟩ :: [] ∧ s.engine.petalMap = some wheel
          ∧ s.line.cells.length < 160 ∧ s.line.cursor ≤ s.line.cells.length
          ∧ extentOf s.format.left (layFrom s.format wheel s.format.left (insertAt s.line.cells s.line.cursor
              (newCell s.line.cells .character 0x61 ⟨.character 0x61, false, false⟩ 0 0))) ≤ s.format.right) := by decide

theorem meets_ClaimOrRefusalOnAFreeLine :
    (let s := { home with composer := { home.composer with linkRing := [⟨.character 0x61, false, false⟩] } };
        s.line.phase = .free ∧ s.lift.away = false ∧ s.composer.linkRing = ⟨.character 0x61, false, false⟩ :: []
          ∧ s.engine.petalMap = some wheel ∧ headWaits .console s)
      ∧ (⟨.function .delete, false, false⟩ : Stroke).edits = true
      ∧ (⟨.character 0x61, false, false⟩ : Stroke).edits = false :=
  ⟨⟨rfl, rfl, rfl, rfl, .inl rfl⟩, by decide, by decide⟩

theorem meets_LineConversionMakesALineJob :
    (let s := { withLine .link .line .waiting with line := { lineOf .link .line .waiting with carry := some [] } };
        s.line.phase = .waiting ∧ s.line.holder = some .link ∧ s.line.mode = .line ∧ s.engine.petalMap = some wheel
          ∧ s.engine.queue.length < 4 ∧ s.engine.state ≠ .fault ∧ s.line.carry = some [])
      ∧ (withLine .link .line .waiting).line.carry = none
      ∧ (let s := withLine .console .direct .waiting;
        s.line.phase = .waiting ∧ s.line.holder = some .console ∧ s.line.mode = .direct
          ∧ s.engine.petalMap.isSome = true ∧ s.engine.queue.length < 4 ∧ s.engine.state ≠ .fault)
      ∧ home.line.phase ≠ .waiting := by decide

theorem meets_JobStartBeginsTheFirstOrder :
    (let s := withEngine { home.engine with queue := [{ jobAt (.strike strikeA) (.feed 2) with started := false }], ribbon := 1 };
        s.engine.state = .ready ∧ s.engine.petalMap.isSome = true
          ∧ s.engine.queue = { jobAt (.strike strikeA) (.feed 2) with started := false } :: [] ∧ 0 < s.engine.ribbon
          ∧ (jobAt (.strike strikeA) (.feed 2)).correction = none ∧ (jobAt (.strike strikeA) (.feed 2)).relocate = false
          ∧ (jobAt (.strike strikeA) (.feed 2)).next = 0
          ∧ (jobAt (.strike strikeA) (.feed 2)).orders = .strike strikeA :: [.feed 2]
          ∧ s.engine.wheelMove = none ∧ s.engine.carrierMove = none ∧ s.engine.petal < 96 ∧ strikeA.petal < 96)
      ∧ (let s := withEngine { home.engine with queue := [Job.empty .motion .link], ribbon := 0 };
        s.engine.state = .ready ∧ s.engine.petalMap.isSome = true ∧ s.engine.queue ≠ []
          ∧ (∀ j ∈ s.engine.queue, j.started = false) ∧ s.engine.ribbon = 0)
      ∧ home.engine.queue = [] := by decide

theorem meets_MotionReportsLeadToTheHammer :
    (let s := { withEngineAt (.strike strikeA) (.feed 2) with engine := { (withEngineAt (.strike strikeA) (.feed 2)).engine with
          wheelMove := some ⟨64, true, 24, 16⟩, carrierMove := some ⟨120, 61⟩ } };
        s.engine.wheelMove = some ⟨64, true, 24, 16⟩ ∧ s.engine.carrierMove = some ⟨120, 61⟩ ∧ s.engine.state = .working
          ∧ currentOrder s = some (.strike strikeA))
      ∧ (let s := { withEngineAt (.lift 0 entryA) (.feed 2) with engine := { (withEngineAt (.lift 0 entryA) (.feed 2)).engine with
          carrierMove := some ⟨120, 61⟩, tapeGuide := .rising 4 } };
        s.engine.carrierMove = some ⟨120, 61⟩ ∧ s.engine.state = .working ∧ currentOrder s = some (.lift 0 entryA)
          ∧ s.engine.wheelMove = none ∧ s.engine.tapeGuide = .rising 4)
      ∧ (let s := withEngine { home.engine with state := .wheelChange, carrierMove := some ⟨780, 61⟩ };
        s.engine.carrierMove = some ⟨780, 61⟩ ∧ s.engine.state = .wheelChange)
      ∧ (withEngine { home.engine with hammer := .pulse 12 }).engine.hammer = .pulse 12
      ∧ home.engine.wheelMove = none ∧ home.engine.carrierMove = none ∧ home.engine.hammer = .idle
      ∧ home.engine.tapeGuide = .down ∧ home.engine.platenMove = none := by decide

theorem meets_HammerReturnedRecordsTheStrike :
    (let s := { withEngineAt (.strike strikeA) (.strike strikeA) with
          engine := { (withEngineAt (.strike strikeA) (.strike strikeA)).engine with hammer := .returning 1, ribbon := 1 } };
        s.engine.hammer = .returning 1 ∧ s.engine.state = .working
          ∧ s.engine.queue = jobAt (.strike strikeA) (.strike strikeA) :: []
          ∧ (jobAt (.strike strikeA) (.strike strikeA)).cancelled = false
          ∧ (jobAt (.strike strikeA) (.strike strikeA)).started = true
          ∧ (jobAt (.strike strikeA) (.strike strikeA)).orders[0]? = some (.strike strikeA)
          ∧ (jobAt (.strike strikeA) (.strike strikeA)).orders[0 + 1]? = some (.strike strikeA)) := by decide

theorem meets_StrikeEntryIsAppended :
    (let s := { home with memory := oneRecord };
        s.memory.openRecord = some 0 ∧ s.memory.record 0 = some (recordOf []) ∧ (recordOf []).serial = 9
          ∧ (recordOf []).vertical = 0 + entryA.rise ∧ 0 < s.freeEntries)
      ∧ (let s := { home with memory := oneRecord, partition := { home.partition with pool := 0 } };
        s.memory.openRecord = some 0 ∧ s.memory.record 0 = some (recordOf []) ∧ s.freeEntries = 0
          ∧ ∀ x ∈ s.memory.records, x.name = 0) := by decide

theorem meets_PlatenStoppedMovesThePage :
    (let s := { withEngineAt (.feed 2) (.strike strikeA) with memory := oneRecord, engine := { (withEngineAt (.feed 2) (.strike strikeA)).engine with
            platenMove := some (.feed 2), ribbon := 1 } };
        s.engine.platenMove = some (.feed 2) ∧ s.engine.state = .working
          ∧ s.engine.queue = jobAt (.feed 2) (.strike strikeA) :: []
          ∧ (jobAt (.feed 2) (.strike strikeA)).cancelled = false ∧ (jobAt (.feed 2) (.strike strikeA)).started = true
          ∧ (jobAt (.feed 2) (.strike strikeA)).orders[0 + 1]? = some (.strike strikeA) ∧ 0 < s.engine.ribbon
          ∧ s.memory.openRecord = some 0)
      ∧ home.memory.openRecord = none
      ∧ (let j := { Job.empty .motion .link with orders := [.eject], started := true };
        let s := withEngine { home.engine with state := .working, queue := [j], platenMove := some .eject };
        s.engine.platenMove = some .eject ∧ s.engine.queue = [j] ∧ j.kind = .motion ∧ j.orders = [.eject] ∧ j.next = 0
          ∧ j.started = true ∧ j.cancelled = false ∧ j.relocate = false ∧ s.lift.owed = false ∧ j.source = .link)
      ∧ home.line.phase ≠ .checking := by decide

theorem meets_HomingFindsCarrierAndWheel :
    State.reset.engine.homing = some ⟨true, false, .carrier⟩
      ∧ (let s := withEngine { Engine.reset with homing := some ⟨true, false, .wheel⟩ };
        s.engine.homing = some ⟨true, false, .wheel⟩ ∧ (63 : BitVec 6) ≠ 0 ∧ s.store.state = .absent)
      ∧ (let s := { State.reset with engine := { Engine.reset with homing := some ⟨true, false, .wheel⟩ } };
        s.engine.homing = some ⟨true, false, .wheel⟩ ∧ s.store.state = .starting)
      ∧ (let s := { present with engine := { Engine.reset with homing := some ⟨true, false, .wheel⟩ } };
        s.engine.homing = some ⟨true, false, .wheel⟩ ∧ s.store.state = .present ∧ s.store.flags.noWheelSet = false
          ∧ s.store.table (7 : BitVec 6).toNat = none)
      ∧ (let s := withEngine { home.engine with state := .homing, homing := some ⟨false, true, .wheel⟩ };
        s.engine.homing = some ⟨false, true, .wheel⟩ ∧ s.engine.petalMap = some wheel
          ∧ wheel.wheelId = (7 : BitVec 6).toNat) := by decide

theorem meets_LimitExpiriesEnterFault :
    (withEngine { home.engine with wheelMove := some ⟨64, true, 24, 16⟩ }).engine.wheelMove.isSome = true
      ∧ (withEngine { home.engine with carrierMove := some ⟨120, 61⟩ }).engine.carrierMove.isSome = true
      ∧ (withEngine { home.engine with hammer := .returning 4 }).engine.hammer = .returning 4
      ∧ (withEngine { home.engine with tapeGuide := .rising 4 }).engine.tapeGuide = .rising 4
      ∧ State.reset.engine.homingLimit.isSome = true ∧ enabled home.link.enable 0xAB = true
      ∧ (let s := { withLine .console .direct .composing with lift := { home.lift with away := true } };
        s.lift.away = true ∧ s.line.holder = some .console ∧ s.line.mode = .direct)
      ∧ home.engine.wheelMove = none ∧ home.engine.carrierMove = none ∧ home.engine.hammer = .idle
      ∧ home.engine.tapeGuide = .down ∧ home.engine.homingLimit = none := by decide

theorem meets_RestAndHoldExpiries :
    (let s := { home with restTimer := some 1 };
        s.restTimer.isSome = true ∧ s.engine.state = .ready ∧ s.engine.queue = [])
      ∧ home.restTimer = none
      ∧ (let s := { withLine .link .line .composing with holdTimer := some 1 };
        s.holdTimer.isSome = true ∧ s.line.holder = some .link)
      ∧ home.holdTimer = none := by decide

theorem meets_StoreOperationsGoOn :
    (State.reset.store.link = some ⟨.startUp, .resetPair, none⟩ ∧ State.reset.store.startUp = some .resetPair)
      ∧ (let s := onLink ⟨.startUp, .straightRead 0 8, none⟩ (some .readHeader);
        s.store.link = some ⟨.startUp, .straightRead 0 8, none⟩ ∧ s.store.startUp = some .readHeader
          ∧ (List.replicate 8 (0xFF : Byte)).length = 8 ∧ headerCount (List.replicate 8 0xFF) = none
          ∧ s.store.wheelRequest = none ∧ s.spelling.queue = [] ∧ s.spelling.queries = []
          ∧ ([] : List Byte).length ≠ (StoreOp.straightRead 0 8).answer)
      ∧ (let s := { onLink ⟨.save, .sectorErase 4096, some 51⟩ none with store :=
          { (onLink ⟨.save, .sectorErase 4096, some 51⟩ none).store with save := some ⟨.link, [.sectorErase 4096]⟩ } };
        s.store.link = some ⟨.save, .sectorErase 4096, some 51⟩ ∧ (StoreOp.sectorErase 4096).answer = 0
          ∧ s.store.save = some ⟨.link, [.sectorErase 4096]⟩ ∧ s.line.phase ≠ .checking
          ∧ enabled s.link.enable 0xB2 = true)
      ∧ home.store.link = none ∧ home.store.polling = false := by decide

theorem meets_BlinkAndFrames :
    home.display.image.anyBlink = false
      ∧ (let s := { home with display := { home.display with image := blinking } };
        s.display.image.anyBlink = true ∧ s.display.transfer = none)
      ∧ (let s := { home with display := { home.display with image := blinking, transfer := some .blank } };
        s.display.image.anyBlink = true ∧ s.display.transfer.isSome = true)
      ∧ State.reset.display.transfer = some .blank ∧ home.display.transfer = none := by decide

theorem meets_StepTicksWhenIdle :
    (running2.pending = [] ∧ ∀ x ∈ counts running2, 1 < x.2)
      ∧ ({ home with display := { home.display with blinkTicks := 1 } } : State).pending = []
      ∧ counts { home with display := { home.display with blinkTicks := 1 } } = [(.blinkToggle, 1)] := by decide

theorem meets_StepTicksWhenIdle_expiry :
    (drawn (withOverlay .link 1)).pending = [] ∧ upToDate (drawn (withOverlay .link 1)) ∧ 1 < 40
      ∧ counts (drawn (withOverlay .link 1)) = [(.blinkToggle, 40), (.overlayExpiry, 1)]
      ∧ (drawn (withOverlay .link 1)).store.save = none := by unfold upToDate; decide

theorem meets_WrongPortIsNotPermitted_complete :
    portFree .link (held (0x99 :: 30 :: List.replicate 30 0))
      ∧ ((held (0x99 :: 30 :: List.replicate 30 0)).port .link).assembly = 0x99 :: 30 :: List.replicate 30 0
      ∧ (30 : Byte).toNat ≤ 30 ∧ (List.replicate 30 (0 : Byte)).length = (30 : Byte).toNat ∧ codeRow 0x99 = none
      ∧ portFree .link (held [0x04, 0]) ∧ (∃ r, codeRow 0x04 = some r ∧ r.permits .link = false)
      ∧ portFree .link (held [0x53, 0]) ∧ ((held [0x53, 0]).port .link).assembly = 0x53 :: 0 :: []
      ∧ codeRow 0x53 = some ⟨true, true, 1, 30⟩ ∧ CodeRow.permits ⟨true, true, 1, 30⟩ .link = true
      ∧ (0 : Byte).toNat < 1
      ∧ codeRow 0x24 = some ⟨true, true, 1, 1⟩ ∧ CodeRow.permits ⟨true, true, 1, 1⟩ .link = true
      ∧ portFree .link (held [0x24, 2, 1, 1]) ∧ 1 < (2 : Byte).toNat := by
  simp only [portFree]; decide

/-- A state the refusals that change nothing but their port and the Rest timer start from. -/
theorem meets_UpToDate :
    upToDate (drawn home) ∧ portFree .link (drawn home) ∧ portFree .console (drawn home) := by unfold upToDate portFree; decide

theorem meets_PortResetClearsThePort_holder :
    (withLine .link .line .composing).line.holder = some .link ∧ (withLine .link .line .composing).lift.away = false
      ∧ (withLine .link .line .composing).line.phase ≠ .checking ∧ home.line.holder ≠ some .link
      ∧ (awayState []).line.holder = some .console ∧ (awayState []).lift.away = true
      ∧ (awayState []).engine.queue.any (·.relocate) = false ∧ (awayState []).engine.queue.length < 4
      ∧ (awayState [relocateJob 120]).engine.queue.any (·.relocate) = true
      ∧ (awayState (List.replicate 4 (Job.empty .motion .link))).engine.queue.any (·.relocate) = false
      ∧ 4 ≤ (awayState (List.replicate 4 (Job.empty .motion .link))).engine.queue.length := by decide

theorem meets_SetOptionByItsTable_scope :
    optionOf 0x20 = some .wrap ∧ OptionId.wrap.scope .link = true ∧ 1 < (2 : Half).toNat
      ∧ (∃ o, optionOf 0x01 = some o ∧ o.scope .link = false) ∧ (∃ o, optionOf 0x10 = some o ∧ o.scope .console = false)
      ∧ onOff 1 = some true ∧ onOff 0 = some false ∧ settle home = home ∧ home.line.holder ≠ some .console := by decide

theorem meets_SetOptionByItsTable_holder :
    portFree .link spelledLine ∧ spelledLine.line.holder = some .link ∧ spelledLine.spelling.queries = []
      ∧ spelledLine.store.link.isSome = true ∧ spelledLine.lift.away = false
      ∧ (∃ w ∈ wordsOf spelledLine.line.cells, w.complete = true)
      ∧ (awaiting [⟨6, 2, [], false, none⟩]).composer.awaits ≠ [] := by unfold portFree; decide

theorem meets_KeyStrokeRoutedToAwait_echo :
    portFree .console (awaiting [⟨6, 2, [], true, none⟩])
      ∧ (awaiting [⟨6, 2, [], true, none⟩]).composer.awaits = ⟨6, 2, [], true, none⟩ :: []
      ∧ (awaiting [⟨6, 2, [], true, none⟩]).composer.consoleRing.length < 32
      ∧ (let s := { awaiting [⟨6, 2, [], true, none⟩] with partition := { home.partition with consoleRing := 0 } };
        portFree .console s ∧ s.options.keyboardSharing = true ∧ s.partition.consoleRing ≤ s.composer.consoleRing.length) := by unfold portFree; decide

theorem meets_MarginAndTabCommands_margins :
    portFree .link { home with engine := { home.engine with petalMap := none } }
      ∧ ownsFormat .link { home with engine := { home.engine with petalMap := none } } = true
      ∧ (1440 : Half).toNat ≤ 1440 ∧ 120 ≤ (1560 : Half).toNat ∧ (1440 : Half).toNat + 120 ≤ (1560 : Half).toNat
      ∧ (0 : Half).toNat ≤ 1440 ∧ 120 ≤ (120 : Half).toNat ∧ (0 : Half).toNat + 120 ≤ (120 : Half).toNat
      ∧ home.engine.petalMap.isSome = true := by unfold portFree; decide

theorem meets_CheckWordAnswersOrQueues_list :
    (let s := { present with spelling := { present.spelling with userWords := [userWordOf suspectTeh.letters] } };
        portFree .link s ∧ s.store.lexiconAvailable = true ∧ userGood s.spelling.userWords suspectTeh.letters = true
          ∧ queryAtOnce suspectTeh.letters s = some 0) := by
  simp only [portFree]; decide

theorem meets_CheckWordAnswersOrQueues_bucket :
    looking.store.link = some ⟨.lookup, .wrappedRead 4096, some 51⟩
      ∧ (List.replicate 32 (0 : Byte)).length = (StoreOp.wrappedRead 4096).answer
      ∧ looking.spelling.queue = queryTeh :: [] ∧ queryTeh.inFlight = true ∧ queryTeh.stale = false
      ∧ queryTeh.origin = .query ∧ looking.spelling.queries = [⟨0, suspectTeh.letters, true⟩] ∧ queryTeh.tag = 0
      ∧ looking.line.phase ≠ .checking ∧ verdict queryTeh (List.replicate 32 0) = .suspect
      ∧ verdict queryTeh (slotBytes ++ List.replicate 28 1) = .good
      ∧ verdict queryTeh goOnBytes = .goOn
      ∧ (∀ y ∈ [Slot.mk 1 2 false false], y.fingerprint ≠ 0
        ∧ ¬ (y.fingerprint = queryTeh.fingerprint ∧ y.length = queryTeh.length))
      ∧ (Slot.mk queryTeh.fingerprint 3 true false).length = queryTeh.length ∧ queryTeh.fingerprint ≠ 0
      ∧ (Slot.mk 0 0 false false).fingerprint = 0 := by decide

/-- A word that went with the carry, and one that is still in the line. -/
theorem meets_CheckWordAnswersOrQueues_line :
    (let s := wrapped;
        s.store.link = some ⟨.lookup, .wrappedRead 4096, some 51⟩ ∧ s.spelling.queue = lineTeh :: []
          ∧ (List.replicate 32 (0 : Byte)).length = (StoreOp.wrappedRead 4096).answer
          ∧ lineTeh.inFlight = true ∧ lineTeh.stale = false ∧ lineTeh.origin = .line .link ∧ s.spelling.queries = []
          ∧ s.line.phase ≠ .free ∧ s.line.phase ≠ .checking ∧ lineTeh.serial = s.line.serial ∧ s.lift.away = false
          ∧ verdict lineTeh (List.replicate 32 0) = .suspect ∧ userGood s.spelling.userWords lineTeh.letters = false
          ∧ s.line.words.any (·.first == lineTeh.first) = false)
      ∧ (let s := { wrapped with line := { wrapped.line with words := [⟨4, 3, false, .queued, none, 0, false⟩] } };
        s.line.words.any (fun w => w.first == lineTeh.first && w.generation == lineTeh.generation) = true) := by decide

theorem meets_DirectCharacterIsStruck_overstrike :
    (directOn 1000 [cellA 1000]).line.cells.findIdx? (·.position == 1000) = some 0
      ∧ (directOn 1000 [cellA 1000]).composer.position + 10 ≤ (directOn 1000 [cellA 1000]).format.right
      ∧ (directOn 1000 (List.replicate 160 (cellA 120))).line.cells.findIdx? (·.position == 1000) = none
      ∧ 160 ≤ (directOn 1000 (List.replicate 160 (cellA 120))).line.cells.length
      ∧ (directOn 1000 (List.replicate 160 (cellA 120))).composer.position
        + advanceOf (directOn 1000 []).format wheel 0x61 ≤ (directOn 1000 []).format.right
      ∧ (cellA 120).kind = .character ∧ wheel.find 0x61 = some ⟨0x61, 64, 10, 2⟩ ∧ wheel.find 0x62 = none
      ∧ 0 < underscoreWidth wheel := by
  decide +kernel

theorem meets_ClaimOrRefusalOnAFreeLine_console :
    (let s := { home with composer := { home.composer with consoleRing := [⟨.character 0x61, false, false⟩] } };
        s.line.phase = .free ∧ s.lift.away = false ∧ s.composer.consoleRing = ⟨.character 0x61, false, false⟩ :: []
          ∧ s.engine.petalMap = some wheel ∧ s.composer.linkRing = [] ∧ s.engine.queue.length < 4
          ∧ s.engine.state ≠ .fault)
      ∧ (⟨.function .carriageReturn, false, false⟩ : Stroke).edits = false
      ∧ (⟨.function .delete, false, false⟩ : Stroke).edits = true := by decide

/-- R144: a fragment of each port, seven and six lookups queued, and a claim by a letter and by a Space of either port. -/
theorem meets_ClaimOrRefusalOnAFreeLine_fragment :
    (let f : Fragment := ⟨8, 0, 3, [0x74, 0x65, 0x68]⟩;
        let s : State := { present with
          options := { home.options with spelling := true, linkSpelling := true }
          composer := { home.composer with linkRing := [⟨.character 0x61, false, false⟩] }
          spelling := { home.spelling with
            consoleFragment := some f, linkFragment := some f, queue := List.replicate 6 queryTeh } };
        s.line.phase = .free ∧ s.composer.linkRing = ⟨.character 0x61, false, false⟩ :: [] ∧ s.composer.consoleRing = []
          ∧ s.spelling.fragment .console = some f ∧ s.spelling.fragment .link = some f
          ∧ s.options.spellingOf .console = true ∧ s.options.spellingOf .link = true ∧ f.letters.length ≤ 24
          ∧ userGood s.spelling.userWords f.letters = false ∧ s.spelling.queue.length < 7
          ∧ (List.replicate 7 queryTeh).length < 8 ∧ s.store.lexiconAvailable = true ∧ isLetter 0x61 = true
          ∧ (after .composeStroke s).line.joined = some f ∧ (after .composeStroke s).line.phase ≠ .free
          ∧ (after .composeStroke { s with composer := { s.composer with linkRing := [⟨.space, false, false⟩] } }).line.cells
            ≠ []
          ∧ (after .composeStroke { s with composer := { s.composer with
              linkRing := [], consoleRing := [⟨.character 0x31, false, false⟩] } }).line.cells ≠ []
          ∧ isLetter 0x31 = false) := by
  decide +kernel

/-- R26: the link is served while the console's Direct-mode head finds the queue full. -/
theorem meets_ClaimOrRefusalOnAFreeLine_linkAlone :
    (let s := { withEngine { home.engine with queue := List.replicate 4 (Job.empty .motion .link) } with
          composer := { home.composer with
            consoleRing := [⟨.space, false, false⟩], linkRing := [⟨.character 0x61, false, false⟩] } };
        headWaits .console s ∧ s.line.phase = .free ∧ s.lift.away = false ∧ s.engine.petalMap = some wheel
          ∧ s.composer.linkRing = ⟨.character 0x61, false, false⟩ :: [] ∧ s.composer.lastHolder = none) := by
  refine ⟨.inr (.inr (.inr (.inr (.inr (.inr ⟨?_, .inl ?_⟩))))), ?_⟩ <;> decide

/-- R25, R37, R41, R85: each way for a head stroke to wait, with the other port's waiting too. -/
theorem meets_ClaimOrRefusalOnAFreeLine_waits :
    (headWaits .console home ∧ headWaits .link home)
      ∧ (let s := withEngine { home.engine with petalMap := none, state := .wheelChange };
        headWaits .console s ∧ headWaits .link s)
      ∧ (∀ phase, phase = .checking ∨ phase = .waiting →
        headWaits .console (withLine .link .line phase) ∧ headWaits .link (withLine .link .line phase))
      ∧ (let s := { awayState (List.replicate 4 (Job.empty .motion .link)) with composer := { home.composer with
            consoleRing := [⟨.space, false, false⟩], linkRing := [⟨.space, false, false⟩] } };
        headWaits .console s ∧ headWaits .link s)
      ∧ (let s := { withLine .console .direct .composing with
            engine := { home.engine with state := .fault }
            composer := { home.composer with
              consoleRing := [⟨.space, false, false⟩], linkRing := [⟨.space, false, false⟩] } };
        headWaits .console s ∧ headWaits .link s) := by
  refine ⟨⟨.inl rfl, .inl rfl⟩, ⟨.inl rfl, .inl rfl⟩, ?_, ?_, ?_⟩
  · rintro phase (rfl | rfl)
    · exact ⟨.inr (.inr (.inl rfl)), .inr (.inr (.inl rfl))⟩
    · exact ⟨.inr (.inr (.inr (.inl rfl))), .inr (.inr (.inr (.inl rfl)))⟩
  · exact ⟨.inr (.inr (.inr (.inr (.inr (.inr ⟨rfl, .inl (by decide)⟩))))),
      .inr (.inr (.inr (.inr (.inr (.inl ⟨rfl, rfl⟩)))))⟩
  · exact ⟨.inr (.inr (.inr (.inr (.inr (.inr ⟨rfl, .inr rfl⟩))))),
      .inr (.inr (.inr (.inr (.inl ⟨.inl rfl, by decide⟩))))⟩

theorem meets_LineConversionMakesALineJob_layout :
    (let l := lineOf .link .line .waiting;
        let cells := [cellA 0, space, cellA 0];
        ({ l with center := true, cells := cells } : WorkingLine).center = true ∧ (∀ c ∈ cells, c.kind ≠ .tab)
          ∧ (∃ c ∈ [{ space with kind := .tab }], c.kind = .tab)
          ∧ l.center = false ∧ l.endCause ≠ some .wrap
          ∧ ({ l with endCause := some .wrap, cells := cells } : WorkingLine).endCause = some .wrap
          ∧ gapStarts (layFrom narrow wheel narrow.left cells) ≠ []
          ∧ lastCharacterEdge (layFrom narrow wheel narrow.left cells) < narrow.right
          ∧ narrow.right - lastCharacterEdge (layFrom narrow wheel narrow.left cells) = 3 * spaceWidth narrow wheel
          ∧ 3 * spaceWidth narrow wheel
            < home.format.right - lastCharacterEdge (layFrom home.format wheel home.format.left cells)
          ∧ gapStarts (layFrom narrow wheel narrow.left [cellA 0]) = []) := by decide

/-- 48 petals either way: the wheel turns towards higher numbers. -/
theorem meets_JobStartBeginsTheFirstOrder_halfTurn :
    (let s := withEngine { home.engine with queue := [{ jobAt (.strike strikeA) (.feed 2) with started := false }], petal := 16 };
        s.engine.state = .ready ∧ s.engine.petalMap.isSome = true ∧ 0 < s.engine.ribbon ∧ s.engine.petal < 96
          ∧ (strikeA.petal + 96 - s.engine.petal) % 96 = 48 ∧ s.engine.wheelMove = none ∧ s.engine.carrierMove = none)
      ∧ (let s := withEngine { home.engine with queue := [Job.empty .motion .link], ribbon := 0 };
        s.engine.queue = Job.empty .motion .link :: [] ∧ (Job.empty .motion .link).started = false
          ∧ (Job.empty .motion .link).correction = none ∧ s.engine.ribbon = 0) := by decide

theorem meets_JobStartBeginsTheFirstOrder_corrections :
    (let s := correcting (liftOf .line) [];
        s.engine.state = .ready ∧ s.engine.petalMap.isSome = true ∧ s.engine.queue = [liftJob (liftOf .line)]
          ∧ (liftJob (liftOf .line)).started = false ∧ (liftJob (liftOf .line)).next = 0
          ∧ (liftJob (liftOf .line)).correction = some (liftOf .line)
          ∧ s.lift.owed = false ∧ s.line.phase ≠ .checking
          ∧ liftCheck .line ⟨recordOf [], [], none⟩ [] s = some .noTarget
          ∧ findTarget (liftOf .line) s = some ⟨recordOf [], [], none⟩
          ∧ findTarget (liftOf .line) { s with memory := .reset } = none)
      ∧ (let s := correcting (liftOf .line) [entryA];
        findTarget (liftOf .line) s = some ⟨recordOf [entryA], [entryA], none⟩
          ∧ liftCheck .line ⟨recordOf [entryA], [entryA], none⟩ [] s = none
          ∧ liftCheck .line ⟨recordOf [entryA], [entryA], none⟩ [] (withTape 0 s) = some .tapeOut
          ∧ findTarget (liftOf .line) (withTape 0 s) = some ⟨recordOf [entryA], [entryA], none⟩)
      ∧ findTarget (liftOf .last) (correcting (liftOf .last) [entryA]) = some ⟨recordOf [entryA], [entryA], none⟩
      ∧ (findTarget (liftOf .word) (correcting (liftOf .word) [entryA])).isSome = true
      ∧ (findTarget (liftOf .retract) (correcting (liftOf .retract) [entryA])).isSome = true
      ∧ [entryA] ≠ [] := by decide

theorem meets_JobStartBeginsTheFirstOrder_back :
    (let s := correcting (liftOf .back) [entryA];
        findTarget (liftOf .back) s = some ⟨recordOf [entryA], [entryA], some ⟨[entryA], 120, 130⟩⟩
          ∧ liftCheck .back ⟨recordOf [entryA], [entryA], some ⟨[entryA], 120, 130⟩⟩ [] s = none) := by decide

theorem meets_HammerReturnedRecordsTheStrike_lift :
    (let s := liftingDirect;
        s.engine.hammer = .returning 1 ∧ s.engine.state = .working ∧ s.engine.queue = lifting :: []
          ∧ lifting.cancelled = false ∧ lifting.started = true ∧ lifting.correction = some (liftOf .last)
          ∧ lifting.orders[lifting.next]? = some (.lift 0 entryA) ∧ lifting.orders[lifting.next + 1]? = some (.feed 2)
          ∧ 0 < s.engine.ribbon ∧ s.line.holder.isSome = true ∧ s.line.mode = .direct ∧ s.line.serial = 9
          ∧ lifting.serial = some 9 ∧ entryA.pass = .main
          ∧ s.line.cells.findIdx? (fun x => x.kind == .character && x.code == entryA.code
            && x.position ≤ entryA.position + entryA.width / 2
            && entryA.position + entryA.width / 2 < x.position + x.width) = some 0) := by decide

theorem meets_PlatenStoppedMovesThePage_correction :
    (let s := { correcting (liftOf .last) [] with engine := { home.engine with
            state := .working, platenMove := some (.feed 0)
            queue := [{ liftJob (liftOf .last) with started := true, orders := [.feed 0] }] } };
        s.engine.platenMove = some (.feed 0) ∧ s.lift.owed = false ∧ s.line.phase ≠ .checking
          ∧ max (-64) (min 8191 (s.engine.platen + 0)) ≤ s.engine.pageLines ∧ s.memory.openRecord = some 0
          ∧ [Order.feed 0].length = 0 + 1 ∧ s.line.phase = .free ∧ s.options.entryMode = .direct)
      ∧ ({ liftOf .back with target := some 0, leftmost := some 120 } : Correction).target = some 0
      ∧ (oneRecord.records.any (·.name == 0)) = true := by decide

theorem meets_PlatenStoppedMovesThePage_relocate :
    (let j : Job := { relocateJob 120 with orders := [.move 120, .feed 3], next := 1, started := true };
        let s := { awayState [j] with engine := { home.engine with
            state := .working, queue := [j], platenMove := some (.feed 3), pageLines := 3 } };
        s.engine.platenMove = some (.feed 3) ∧ s.engine.queue = [j] ∧ j.kind = .motion ∧ j.relocate = true
          ∧ j.source = .console ∧ j.cancelled = false ∧ s.lift.away = true ∧ s.line.phase ≠ .checking
          ∧ max (-64) (min 8191 (s.engine.platen + 3)) ≤ s.engine.pageLines) := by decide

theorem meets_HomingFindsCarrierAndWheel_table :
    (let x : LinkOp := ⟨.wheel, .straightRead 4100 392, some 51⟩;
        let s := { onLink x none with store := { (onLink x none).store with state := .present, wheelRequest := some 7 } };
        s.store.link = some x ∧ (List.replicate 392 (0 : Byte)).length = x.op.answer ∧ s.store.wheelRequest = some 7
          ∧ mapOfTable 7 (List.replicate 392 0) = none ∧ mapOfTable 7 wheelTable ≠ none ∧ wheelTable.length = 392) := by
  decide +kernel

theorem meets_StoreOperationsGoOn_startUp :
    (onLink ⟨.startUp, .statusRead, none⟩ (some .recovery)).store.startUp = some .recovery
      ∧ ([] : List Byte).length = StoreOp.statusRead.answer ∧ ([] : List Byte).length = StoreOp.setWrap.answer
      ∧ headerCount [0x4F, 0x48, 0x4C, 0x53, 1, 0, 8, 0] = some 8
      ∧ (rawEntries userEntry = [⟨3, 0, 1048576, 8192⟩]
        ∧ overlapFree ⟨0, 1048576, 8192⟩ { Examination.none with userArea := some ⟨0, 1048576, 8192⟩, userSeen := true } = true)
      ∧ (1 ≤ number [32] ∧ number [32] ≤ 32 ∧ 4 + 392 * number [32] ≤ 12548)
      ∧ number (([0x55, 0x57, 3, 0xFF, 0, 0, 0, 0] : List Byte).drop 2 |>.take 2) ≤ 1023 := by decide

theorem meets_StoreOperationsGoOn_examined :
    examine [⟨3, 0, 1048576, 8192⟩] .none
      = .done { Examination.none with userArea := some ⟨0, 1048576, 8192⟩, userSeen := true } := rfl

theorem meets_StoreOperationsGoOn_records :
    (let s := onLink ⟨.startUp, .straightRead 8 8, none⟩ (some (.userRecords 1 10 true));
        s.store.startUp = some (.userRecords 1 10 true) ∧ s.store.wheelRequest = none ∧ s.spelling.queue = []
          ∧ s.spelling.queries = []
          ∧ ([0, 0, 1, 2, 0, 5, 2, 0] : List Byte).length = (StoreOp.straightRead 8 8).answer
          ∧ ([0, 0, 1, 2, 0, 5, 2, 0] : List Byte).foldl (fun n b => n + b.toNat) 0 % 4294967296 = 10
          ∧ (∀ u ∈ userRecords [0, 0, 1, 2, 0, 5, 2, 0], u.fingerprint ≠ 0 ∧ 2 ≤ u.length ∧ u.length ≤ 24)
          ∧ ascending (userRecords [0, 0, 1, 2, 0, 5, 2, 0]) = true)
      ∧ (let s := { onLink ⟨.save, .sectorErase 4096, some 51⟩ none with store :=
          { (onLink ⟨.save, .sectorErase 4096, some 51⟩ none).store with
            state := .present, save := some ⟨.link, [.sectorErase 4096, .pageProgram 4096 [1]]⟩ } };
        s.store.save = some ⟨.link, .sectorErase 4096 :: .pageProgram 4096 [1] :: []⟩ ∧ s.store.state = .present
          ∧ s.store.wheelOp = none ∧ (StoreOp.sectorErase 4096).answer = 0) := by decide

theorem meets_OtherStrokesAndLineEnds_direct :
    (let s := directStroke .space 1000 [];
        s.line.phase = .composing ∧ s.line.holder = some .console ∧ s.line.mode = .direct
          ∧ s.composer.consoleRing = ⟨.space, false, false⟩ :: [] ∧ s.engine.petalMap = some wheel
          ∧ s.engine.queue.length < 4 ∧ s.engine.state ≠ .fault ∧ s.composer.position + spaceWidth s.format wheel ≤ 1560)
      ∧ (directStroke .space 1550 []).composer.position + spaceWidth home.format wheel = 1560
      ∧ 1560 < (directStroke .space 1551 []).composer.position + spaceWidth home.format wheel
      ∧ 160 ≤ (directStroke .space 1000 (List.replicate 160 (cellA 120))).line.cells.length
      ∧ (directStroke .space 1000 (List.replicate 160 (cellA 120))).line.cells.findIdx? (·.position == 1000) = none
      ∧ ([300, 600] : List Nat).find? (fun y => 300 < y) = some 600 ∧ (∀ y ∈ ([300, 600] : List Nat), y ≤ 600)
      ∧ (∀ c ∈ [cellA 120], c.position + c.width ≠ 120)
      ∧ (∃ c ∈ [cellA 120], c.position + c.width = 130 ∧ (120 : Nat) = 130 - c.width
        ∧ ∀ b ∈ [cellA 120], b.position + b.width = 130 → b ≠ c → b.stamp < c.stamp)
      ∧ (-4 : Int) ≤ (3 : Int) + 1 ∧ (3 : Int) + 1 ≤ 4 ∧ (4 : Int) < 4 + 1 ∧ (-4 : Int) - 1 < -4
      ∧ (awayState []).lift.away = true := by
  decide +kernel

theorem meets_OtherStrokesAndLineEnds_line :
    (let s := { withLine .console .line .held with
          line := { lineOf .console .line .held with cells := [cellA 120], cursor := 1 }
          composer := { home.composer with consoleRing := [⟨.function .delete, false, false⟩] } };
        s.line.phase = .held ∧ s.line.holder = some .console ∧ s.line.mode = .line ∧ s.lift.away = false
          ∧ s.composer.ring .console = ⟨.function .delete, false, false⟩ :: [] ∧ s.engine.petalMap = some wheel
          ∧ 0 < s.line.cursor ∧ s.line.cursor ≤ s.line.cells.length)
      ∧ (withLine .link .line .composing).line.cursor = 0
      ∧ (let s := { withLine .console .line .composing with
          options := { home.options with spellHold := true, spelling := true } };
        s.options.spellHold = true ∧ s.options.spelling = true ∧ s.line.phase = .composing) := by decide

theorem meets_OtherStrokesAndLineEnds_wrap :
    (let s := wrapping;
        s.line.phase = .composing ∧ s.line.holder = some .link ∧ s.line.mode = .line ∧ s.lift.away = false
          ∧ s.composer.ring .link = ⟨.character 0x61, false, false⟩ :: [] ∧ s.engine.petalMap = some wheel
          ∧ s.line.cursor = s.line.cells.length ∧ s.line.marginRelease = false ∧ s.format.wrapOf .link = true
          ∧ s.format.right < extentOf s.format.left (layFrom s.format wheel s.format.left
            (s.line.cells ++ [newCell s.line.cells .character 0x61 ⟨.character 0x61, false, false⟩ 0 0]))
          ∧ wrapSpace s.line.cells = some 1
          ∧ extentOf s.format.left (layFrom s.format wheel s.format.left
            (s.line.cells.drop 2 ++ [newCell s.line.cells .character 0x61 ⟨.character 0x61, false, false⟩ 0 0]))
            ≤ s.format.right) := by decide

theorem meets_OtherStrokesAndLineEnds_checked :
    (let s := { looking with
          line := { lineOf .console .line .checking with words := [⟨0, 3, false, .queued, none, 0, false⟩] } };
        s.store.link = some ⟨.lookup, .wrappedRead 4096, some 51⟩ ∧ s.line.phase = .checking
          ∧ enabled s.console.enable 0xA4 = true) := by decide

theorem meets_TypeTextIsTakenWhole_bytes :
    (∀ b ∈ ([0x21, 0x7E, 0xC0, 0xFE] : List Byte),
        (0x21 ≤ b.toNat ∧ b.toNat ≤ 0x7E) ∨ (0xC0 ≤ b.toNat ∧ b.toNat ≤ 0xFE))
      ∧ ∀ b ∈ ([0x7F, 0x1C, 0x1D, 0x1F, 0xBF, 0xFF, 0x00] : List Byte),
        ¬ ((0x21 ≤ b.toNat ∧ b.toNat ≤ 0x7E) ∨ (0xC0 ≤ b.toNat ∧ b.toNat ≤ 0xFE))
          ∧ b.toNat ∉ [0x0E, 0x0F, 0x02, 0x03, 0x20, 0x08, 0x09, 0x0A, 0x0B, 0x0D, 0x1E] := by decide

theorem meets_CancelPrintingRemovesJobs_release :
    (let j : Job := { Job.empty .stroke .console with serial := some 9 };
        let s := { withLine .console .direct .composing with
          engine := { home.engine with state := .supplyOut, queue := [j], carrierMove := some ⟨150, 3⟩ } };
        portFree .console s ∧ s.line.holder = some .console ∧ s.line.mode = .direct
          ∧ (s.engine.queue.any fun j => j.kind == .stroke && j.serial == some s.line.serial) = true
          ∧ s.lift.owed = false ∧ s.line.phase ≠ .checking ∧ s.spelling.queries = [])
      ∧ (let c : Correction := { liftOf .last with lifted := 2, leftmost := some 120 };
        let j : Job := { liftJob c with started := true };
        let i : Job := { Job.empty .stroke .console with serial := some 8 };
        let s := { withLine .console .direct .composing with
          engine := { home.engine with state := .supplyOut, queue := [j, i] } };
        portFree .console s ∧ (∀ x ∈ s.engine.queue, x = j ∨ x.correction = none) ∧ j.correction = some c
          ∧ c.leftmost = some 120
          ∧ (s.engine.queue.any fun j => j.kind == .stroke && j.serial == some s.line.serial) = false
          ∧ s.line.holder = some .console ∧ s.line.mode = .direct)
      ∧ (let s := { awayState [{ Job.empty .motion .link with cancelled := true }] with
          lift := { home.lift with away := true, owed := true } };
        portFree .console s ∧ s.lift.owed = true ∧ s.engine.queue.length < 4 ∧ ∃ j ∈ s.engine.queue, j.cancelled = true) := by unfold portFree; decide

theorem meets_LoadSupplySetsTheCounts_started :
    (let s := withEngine { home.engine with state := .supplyOut, ribbon := 0, queue := [jobAt (.move 130) (.feed 2)] };
        portFree .console s ∧ ribbonKindOf 0 = some .correctable ∧ s.engine.state = .supplyOut ∧ 0 < (500 : Half).toNat
          ∧ s.engine.queue.head? = some (jobAt (.move 130) (.feed 2)) ∧ (jobAt (.move 130) (.feed 2)).started = true
          ∧ (jobAt (.move 130) (.feed 2)).orders[0]? = some (.move 130) ∧ (Order.move 130).takesTime s = true
          ∧ s.line.phase ≠ .checking ∧ s.spelling.queries = [])
      ∧ (500 : Half).toNat ≤ 500 ∧ ¬ (501 : Half).toNat ≤ 500 := by unfold portFree; decide

theorem meets_SaveUserWordsStarts_steps :
    (userWordOf suspectTeh.letters).fingerprint < 16777216 ∧ (userWordOf suspectTeh.letters).length < 256
      ∧ (userWordOf suspectTeh.letters).primary < 65536
      ∧ (8 + 8 * 31 + 255) / 256 = 1 ∧ (8 + 8 * 32 + 255) / 256 = 2 ∧ (0 : Nat) < 1 := by decide

theorem meets_DirectCharacterIsStruck_widths :
    wheel.pitch = PitchClass.twelve ∧ home.format.spacing = .fixed12
      ∧ ({ wheel with pitch := .proportional } : PetalMap).pitch = .proportional
      ∧ ({ home.format with spacing := .proportional } : FormatRecord).spacing = .proportional
      ∧ wheel.find 0x61 = some ⟨0x61, 64, 10, 2⟩ ∧ wheel.find 0x62 = none := by decide

theorem meets_LineCharacterIsInserted_tab :
    (let s := inRing (.function .tab) { withLine .link .line .composing with format := { home.format with tabs := [1560] } };
        s.line.phase = .composing ∧ s.line.holder = some .link ∧ s.line.mode = .line ∧ s.lift.away = false
          ∧ s.composer.ring .link = ⟨.function .tab, false, false⟩ :: [] ∧ s.engine.petalMap = some wheel
          ∧ s.line.cursor = s.line.cells.length
          ∧ extentOf s.format.left (layFrom s.format wheel s.format.left (insertAt s.line.cells s.line.cursor
            (newCell s.line.cells .tab 0x09 ⟨.function .tab, false, false⟩ 0 0))) = 1560)
      ∧ (let s := inRing .space { withLine .link .line .composing with
            line := { lineOf .link .line .composing with cells := [cellA 120], cursor := 0 }, format := narrow };
        s.line.cursor ≠ s.line.cells.length ∧ s.line.marginRelease = false
          ∧ extentOf s.format.left (layFrom s.format wheel s.format.left (insertAt s.line.cells s.line.cursor
            (newCell s.line.cells .space 0x20 ⟨.space, false, false⟩ 0 0))) ≤ s.format.right)
      ∧ (let s := inRing (.character 0x61) { withLine .link .line .composing with
            line := { lineOf .link .line .composing with cells := List.replicate 6 (cellA 120), cursor := 6 }
            format := { narrow with linkWrap := false } };
        s.line.marginRelease = false ∧ s.format.wrapOf .link = false
          ∧ extentOf s.format.left (layFrom s.format wheel s.format.left (insertAt s.line.cells s.line.cursor
            (newCell s.line.cells .character 0x61 ⟨.character 0x61, false, false⟩ 0 0))) = s.format.right + 10)
      ∧ (let s := inRing .space { withLine .link .line .composing with
            line := { lineOf .link .line .composing with cells := List.replicate 160 { space with kind := .tab }, cursor := 160 } };
        160 ≤ s.line.cells.length
          ∧ extentOf s.format.left (layFrom s.format wheel s.format.left (insertAt s.line.cells s.line.cursor
            (newCell s.line.cells .space 0x20 ⟨.space, false, false⟩ 0 0))) ≤ 1560)
      ∧ (let s := inRing (.character 0x61) { withLine .link .line .composing with
            line := { lineOf .link .line .composing with cells := List.replicate 4 (cellA 120), cursor := 4 }
            format := { narrow with zone := 10 } };
        s.line.bell = false
          ∧ extentOf s.format.left (layFrom s.format wheel s.format.left (insertAt s.line.cells s.line.cursor
            (newCell s.line.cells .character 0x61 ⟨.character 0x61, false, false⟩ 0 0))) = s.format.right - s.format.zone) := by
  decide +kernel

theorem meets_JobStartBeginsTheFirstOrder_orders :
    (let j : Job := { jobAt (.move 130) (.feed 2) with started := false };
        let s := withEngine { home.engine with queue := [j], ribbon := 1 };
        s.engine.state = .ready ∧ s.engine.petalMap.isSome = true ∧ s.engine.queue = j :: [] ∧ 0 < s.engine.ribbon
          ∧ j.started = false ∧ j.correction = none ∧ j.relocate = false ∧ j.orders[j.next]? = some (.move 130)
          ∧ (Order.move 130).takesTime s = true ∧ (Order.feed 2).takesTime s = true ∧ Order.eject.takesTime s = true)
      ∧ (let j : Job := { jobAt (.feed 0) (.strike strikeA) with started := false };
        let s := withEngine { home.engine with queue := [j] };
        j.orders[j.next]? = some (.feed 0) ∧ j.orders[j.next + 1]? = some (.strike strikeA)
          ∧ (Order.strike strikeA).takesTime s = true ∧ -64 ≤ s.engine.platen ∧ s.engine.platen ≤ s.engine.pageLines)
      ∧ (let j : Job := { jobAt (.move 0) (.feed 2) with started := false };
        let s := withEngine { home.engine with queue := [j] };
        j.orders[j.next]? = some (.move s.engine.carrier) ∧ (Order.feed 2).takesTime s = true)
      ∧ (let j : Job := { Job.empty .motion .link with orders := [.eject] };
        let s := withEngine { home.engine with queue := [j], platen := 132 };
        s.engine.queue = [j] ∧ j.orders = [.eject] ∧ s.format.pageLength ≤ s.engine.platen ∧ s.lift.owed = false)
      ∧ (let s := { withPoint with engine := { home.engine with queue := [relocateJob 120] } };
        s.engine.queue = relocateJob 120 :: [] ∧ (relocateJob 120).relocate = true ∧ (relocateJob 120).next = 0
          ∧ s.lift.point = some (150, 60) ∧ s.engine.carrier ≠ 150)
      ∧ (let s := { withPoint with engine := { home.engine with queue := [relocateJob 120], carrier := 150 } };
        s.engine.carrier = 150 ∧ 60 - s.engine.platen ≠ 0) := by decide

theorem meets_MotionReportsLeadToTheHammer_move :
    (let s := { withEngineAt (.lift 0 entryA) (.feed 2) with engine := { (withEngineAt (.lift 0 entryA) (.feed 2)).engine with
          wheelMove := some ⟨64, true, 24, 16⟩ } };
        s.engine.wheelMove = some ⟨64, true, 24, 16⟩ ∧ s.engine.state = .working
          ∧ currentOrder s = some (.lift 0 entryA))
      ∧ (let j := jobAt (.move 120) (.feed 2);
        let s := withEngine { home.engine with state := .working, queue := [j], carrierMove := some ⟨120, 61⟩ };
        s.engine.carrierMove = some ⟨120, 61⟩ ∧ s.engine.queue = j :: [] ∧ j.started = true ∧ j.cancelled = false
          ∧ j.orders[j.next]? = some (.move 120) ∧ j.orders[j.next + 1]? = some (.feed 2) ∧ 0 < s.engine.ribbon
          ∧ (Order.feed 2).takesTime { s with engine := { s.engine with carrier := 120, carrierMove := none } } = true)
      ∧ (let j : Job := { Job.empty .stroke .console with serial := some 9, orders := [.move 120], started := true };
        j.orders[j.next]? = some (.move 120) ∧ j.orders[j.next + 1]? = none ∧ j.kind = .stroke ∧ j.lineEnding = false
          ∧ home.lift.owed = false)
      ∧ (let j : Job := { Job.empty .motion .console with orders := [.move 120], started := true, cancelled := true };
        j.orders[j.next + 1]? = none ∧ j.kind = .motion ∧ j.relocate = false ∧ j.cancelled = true
          ∧ j.correction = none) := by decide

theorem meets_StrikeEntryIsAppended_records :
    (let s := { home with memory := { oneRecord with openRecord := none, resumeRecord := some 0 } };
        s.memory.resumeRecord = some 0 ∧ s.memory.record 0 = some (recordOf []) ∧ (recordOf []).serial = 9
          ∧ (recordOf []).vertical = 0 + entryA.rise ∧ 0 < s.freeEntries)
      ∧ (let s := { home with memory := { oneRecord with openRecord := some 0, resumeRecord := none } };
        s.memory.record 0 = some (recordOf []) ∧ (recordOf []).serial ≠ 10 ∧ s.memory.records.length < 8)
      ∧ (let s := { home with memory := eightRecords };
        s.memory.records.head? = some (recordOf []) ∧ 8 ≤ s.memory.records.length ∧ s.memory.openRecord = none
          ∧ s.memory.resumeRecord = none
          ∧ ((s.memory.records.filter (·.name != 0)).map (·.entries.length)).sum < s.partition.pool)
      ∧ (let s := { home with memory := twoRecords, partition := { home.partition with pool := 1 } };
        s.memory.openRecord = some 1 ∧ (s.memory.record 1).map (·.serial) = some 9 ∧ s.freeEntries = 0
          ∧ s.memory.records.find? (·.name != 1) = some (recordOf [entryA])
          ∧ ((s.memory.records.filter (·.name != 0)).map (·.entries.length)).sum < s.partition.pool)
      ∧ (let s := { home with memory := twoRecords, partition := { home.partition with pool := 0 } };
        s.freeEntries = 0
          ∧ s.partition.pool ≤ ((s.memory.records.filter (·.name != 0)).map (·.entries.length)).sum) := by decide

theorem meets_PlatenStoppedMovesThePage_done :
    (let j := jobAt (.feed 2) (.strike strikeA);
        let s := withEngine { home.engine with
          state := .working, queue := [j], platenMove := some (.feed 2), platen := 130, pageLines := 130 };
        s.engine.platenMove = some (.feed 2) ∧ s.engine.queue = j :: [] ∧ j.orders[j.next + 1]? = some (.strike strikeA)
          ∧ s.engine.pageLines < 132 ∧ s.format.pageLength ≤ max (-64) (min 8191 (s.engine.platen + 2))
          ∧ s.engine.pageEnd = false ∧ (Order.strike strikeA).takesTime s = true ∧ j.source = .link)
      ∧ (let j : Job := { jobAt (.move 120) (.feed 2) with next := 1 };
        let s := withEngine { home.engine with state := .working, queue := [j], platenMove := some (.feed 2), pageLines := 2 };
        s.engine.queue = [j] ∧ j.orders[j.next + 1]? = none ∧ s.lift.owed = false ∧ j.kind = .line
          ∧ max (-64) (min 8191 (s.engine.platen + 2)) ≤ s.engine.pageLines)
      ∧ (let j : Job := { jobAt (.move 120) (.feed 2) with kind := .stroke, source := .console, next := 1, lineEnding := true };
        j.kind = .stroke ∧ j.lineEnding = true ∧ j.serial = some 9
          ∧ ({ home.options with doneTone := true } : Options).doneTone = true) := by decide

theorem meets_HomingFindsCarrierAndWheel_others :
    (let s := { present with
          store := { present.store with wheelSet := some ⟨0, 8192, 8192⟩, wheelIndex := [(7, 1)] }
          engine := { Engine.reset with homing := some ⟨true, false, .wheel⟩ } };
        s.engine.homing = some ⟨true, false, .wheel⟩ ∧ (7 : BitVec 6) ≠ 0 ∧ s.store.state = .present
          ∧ s.store.flags.noWheelSet = false ∧ s.store.table (7 : BitVec 6).toNat = some 1
          ∧ s.store.wheelSet = some ⟨0, 8192, 8192⟩ ∧ s.store.link = none)
      ∧ (let s := { present with
          store := { present.store with flags := { StoreFlags.clear with noWheelSet := true } }
          engine := { Engine.reset with homing := some ⟨false, false, .wheel⟩ } };
        s.engine.homing = some ⟨false, false, .wheel⟩ ∧ s.store.state = .present ∧ s.store.flags.noWheelSet = true
          ∧ s.spelling.queries = [])
      ∧ (let s := { withLine .console .direct .composing with engine := { home.engine with
          state := .homing, homing := some ⟨false, true, .wheel⟩
          queue := [{ Job.empty .stroke .console with serial := some 9 }] } };
        s.engine.homing = some ⟨false, true, .wheel⟩ ∧ s.engine.petalMap = some wheel
          ∧ wheel.wheelId ≠ (6 : BitVec 6).toNat ∧ s.engine.state = .homing ∧ s.lift.owed = false
          ∧ (∀ j ∈ s.engine.queue, j.cancelled = false) ∧ s.lift.away = false
          ∧ (s.engine.queue.any fun j => j.kind == .stroke && j.serial == some s.line.serial) = true) := by decide

theorem meets_StoreOperationsGoOn_ends :
    (let s := onLink ⟨.startUp, .straightRead 1048576 8, none⟩ (some .userHeader);
        s.store.startUp = some .userHeader ∧ s.store.wheelRequest = none ∧ s.store.save = none ∧ s.spelling.queue = []
          ∧ s.spelling.queries = []
          ∧ 1023 < number (([0x55, 0x57, 4, 0, 0, 0, 0, 0] : List Byte).drop 2 |>.take 2))
      ∧ examine (rawEntries []) .none = .done .none ∧ Examination.none.userArea = none
      ∧ (onLink ⟨.startUp, .straightRead 8192 1, none⟩ (some (.wheelIds 31 32))).store.userArea = none
      ∧ (32 : Nat) ≤ 31 + 1
      ∧ (let s := { onLink ⟨.save, .sectorErase 4096, some 51⟩ none with store :=
          { (onLink ⟨.save, .sectorErase 4096, some 51⟩ none).store with save := some ⟨.link, [.sectorErase 4096]⟩ } };
        s.store.link = some ⟨.save, .sectorErase 4096, some 51⟩ ∧ s.store.save = some ⟨.link, [.sectorErase 4096]⟩
          ∧ enabled (s.port .link).enable 0xB1 = true) := ⟨by decide, rfl, by decide⟩

theorem meets_OtherStrokesAndLineEnds_underlined :
    (let s := { directStroke .space 1000 [] with
          composer := { (directStroke .space 1000 []).composer with consoleRing := [⟨.space, true, false⟩] } };
        s.composer.consoleRing = ⟨.space, true, false⟩ :: [] ∧ s.engine.petalMap = some wheel
          ∧ s.composer.position + spaceWidth s.format wheel ≤ 1560 ∧ s.line.cells.length < 160) := by decide

theorem meets_RestAndHoldExpiries_busy :
    (onLink ⟨.startUp, .statusRead, some 1⟩ (some .recovery)).store.link = some ⟨.startUp, .statusRead, some 1⟩
      ∧ (onLink ⟨.save, .sectorErase 4096, some 51⟩ none).store.link = some ⟨.save, .sectorErase 4096, some 51⟩
      ∧ home.store.polling = false := by decide

theorem meets_HammerReturnedRecordsTheStrike_next :
    (let j := jobAt (.strike strikeA) (.feed 2);
        let s := withEngine { home.engine with
          state := .working, queue := [j], hammer := .returning 1, ribbon := 501 };
        s.engine.hammer = .returning 1 ∧ s.engine.state = .working ∧ s.engine.queue = j :: [] ∧ j.cancelled = false
          ∧ j.started = true ∧ j.orders[j.next]? = some (.strike strikeA) ∧ j.orders[j.next + 1]? = some (.feed 2)
          ∧ 2 ≤ s.engine.ribbon ∧ s.engine.ribbon = 501 ∧ s.line.phase ≠ .checking
          ∧ (Order.feed 2).takesTime { s with engine := { s.engine with
            ribbon := 500, hammer := .idle, queue := [{ j with next := 1, struck := j.struck + 1 }] } } = true)
      ∧ (2 : Nat) ≤ 2 ∧ (1 : Nat) ≤ 1
      ∧ (let j : Job := { Job.empty .stroke .console with orders := [.strike strikeA], started := true, serial := some 9 };
        j.orders[j.next]? = some (.strike strikeA) ∧ j.orders[j.next + 1]? = none ∧ j.kind = .stroke
          ∧ j.lineEnding = false ∧ j.cancelled = false ∧ home.lift.owed = false) := by decide

theorem meets_StrikeEntryIsAppended_full :
    (eightRecords.records.head? = some (recordOf []) ∧ eightRecords.records.length = 8
        ∧ eightRecords.openRecord = none ∧ eightRecords.resumeRecord = none)
      ∧ (let s := { home with memory := { twoRecords with openRecord := none }, partition := { home.partition with pool := 0 } };
        s.freeEntries = 0 ∧ s.memory.openRecord = none ∧ s.memory.resumeRecord = none ∧ s.memory.records.length < 8
          ∧ s.memory.records.find? (·.name != s.memory.nextRecord) = some (recordOf [entryA]))
      ∧ (let s := { home with memory := { twoRecords with records := [] }, partition := { home.partition with pool := 0 } };
        s.freeEntries = 0 ∧ s.memory.records.find? (·.name != s.memory.nextRecord) = none)
      ∧ (let s := { home with
            memory := { twoRecords with openRecord := none, resumeRecord := some 1 }
            partition := { home.partition with pool := 0 } };
        s.freeEntries = 0 ∧ s.memory.resumeRecord = some 1 ∧ (s.memory.record 1).map (·.serial) = some 9
          ∧ s.memory.records.find? (·.name != 1) = some (recordOf [entryA]))
      ∧ (let s := { home with
            memory := { oneRecord with openRecord := none, resumeRecord := some 0 }
            partition := { home.partition with pool := 0 } };
        s.freeEntries = 0 ∧ s.memory.records.find? (·.name != 0) = none) := by decide

/-- R104: no record of the line, a cell without entries, a cell with one. -/
theorem meets_StrikeEntryIsAppended_cells :
    twoRecords.entriesOf 10 0 = none ∧ twoRecords.entriesOf 9 (entryA.cell + 1) = some []
      ∧ twoRecords.entriesOf 9 entryA.cell = some [entryA]
      ∧ twoRecords.onPaper 9 entryA.cell 1 = true ∧ twoRecords.onPaper 9 entryA.cell 0 = false := by decide

theorem meets_LimitExpiriesEnterFault_reports :
    (let j : Job := { Job.empty .line .link with serial := some 9, struck := 2 };
        let c : Correction := { liftOf .last with lifted := 1, leftmost := some 120 };
        let s := withEngine { home.engine with
          state := .working, queue := [j, liftJob c], wheelMove := some ⟨64, true, 24, 16⟩ };
        s.engine.wheelMove.isSome = true ∧ s.line.phase ≠ .checking ∧ faultedNotice j = Notice.lineCancelled 9 2
          ∧ faultedNotice (liftJob c) = Notice.liftDone c.command.code 2 1 120) := by decide

theorem meets_PortResetClearsThePort_checking :
    (withLine .console .line .checking).line.phase = .checking
      ∧ (withLine .console .line .checking).line.holder = some .console
      ∧ (withLine .console .line .checking).lift.away = false
      ∧ (awayState []).line.holder = some .console ∧ (awayState []).line.phase ≠ .checking := by decide

theorem meets_DirectCharacterIsStruck_bell :
    (let s := directOn 1000 [];
        s.line.bell = false
          ∧ inZone s.format (s.format.right - 1) = true ∧ inZone s.format s.format.right = false
          ∧ inZone s.format (s.format.right - s.format.zone) = true
          ∧ inZone s.format (s.format.right - s.format.zone - 1) = false
          ∧ inZone s.format (s.composer.position + advanceOf s.format wheel 0x61) = true) := by decide

theorem meets_OtherStrokesAndLineEnds_noWrapSpace :
    (let s := inRing (.character 0x61) { withLine .link .line .composing with
            line := { lineOf .link .line .composing with cells := List.replicate 6 (cellA 120), cursor := 6 }
            format := { narrow with linkWrap := true } };
        s.line.phase = .composing ∧ s.line.holder = some .link ∧ s.line.mode = .line ∧ s.lift.away = false
          ∧ s.composer.ring .link = ⟨.character 0x61, false, false⟩ :: [] ∧ s.engine.petalMap = some wheel
          ∧ s.line.cursor = s.line.cells.length ∧ s.line.marginRelease = false ∧ s.format.wrapOf .link = true
          ∧ wrapSpace s.line.cells = none
          ∧ s.format.right < extentOf s.format.left (layFrom s.format wheel s.format.left
            (s.line.cells ++ [newCell s.line.cells .character 0x61 ⟨.character 0x61, false, false⟩ 0 0])))
      ∧ wrapSpace [cellA 120, space, space, cellA 150] = some 2
      ∧ wrapSpace [space, cellA 130, { space with kind := .tab }, space] = none := by decide

theorem meets_PlatenStoppedMovesThePage_relocateBehind :
    (let j : Job := { relocateJob 120 with orders := [.move 120, .feed 2], started := true, next := 1 };
        let stale : Job := { Job.empty .stroke .console with serial := some 9, orders := [.strike strikeA] };
        let kept : Job := { Job.empty .line .link with serial := some 10, orders := [.move 300] };
        let s := { awayState [j, stale, kept] with engine := { home.engine with
          state := .working, queue := [j, stale, kept], platenMove := some (.feed 2), pageLines := 2 } };
        let leaves (i : Job) : Bool := s.lift.away && i.kind == .stroke && i.serial == some s.line.serial;
        s.engine.platenMove = some (.feed 2) ∧ s.engine.state = .working ∧ s.engine.queue = j :: [stale, kept]
          ∧ j.kind = .motion ∧ j.relocate = true ∧ j.source = .console ∧ j.started = true ∧ j.cancelled = false
          ∧ j.next = 1 ∧ j.orders = [.move 120, .feed 2]
          ∧ max (-64) (min 8191 (s.engine.platen + 2)) ≤ s.engine.pageLines
          ∧ ([stale].filter (!leaves ·)) = [] ∧ [stale, kept].filter leaves = [stale]
          ∧ ([stale, kept].filter (!leaves ·)).head? = some kept ∧ kept.started = false ∧ kept.correction = none
          ∧ stale.correction = none ∧ 0 < s.engine.ribbon ∧ s.line.phase ≠ .checking
          ∧ ({ s with engine := { s.engine with ribbon := 0 } } : State).engine.ribbon = 0
          ∧ kept.orders[kept.next]? = some (.move 300)
          ∧ (Order.move 300).takesTime { s with engine := { s.engine with platenMove := none, queue := [kept] } } = true) := by decide

/-- R101, R102, R112, R113: two words and an underscore at the edges of a reference and of an extent. -/
theorem meets_JobStartBeginsTheFirstOrder_words :
    (let a (name x : Nat) (pass : Pass) : StrikeEntry := { entryA with name := name, position := x, pass := pass };
        let r := recordOf [a 0 120 .main, a 1 130 .main, a 2 125 .underscore, a 3 141 .main];
        let w : PaperWord := ⟨[a 0 120 .main, a 1 130 .main, a 2 125 .underscore], 120, 140⟩;
        let last : PaperWord := ⟨[a 3 141 .main], 141, 151⟩;
        let s := { home with memory := { oneRecord with records := [r] } };
        let c : Correction := liftOf .word;
        r.words = [w, last] ∧ s.memory.current = some r
          ∧ findTarget { c with reference := some 131 } s = some ⟨r, w.entries, some w⟩
          ∧ findTarget { c with reference := some 130 } s = some ⟨r, w.entries, some w⟩
          ∧ findTarget { c with reference := none } s = some ⟨r, last.entries, some last⟩
          ∧ findTarget { c with reference := some 120 } s = none
          ∧ findTarget { liftOf .back with offset := 0, position := 139 } s = some ⟨r, w.entries, some w⟩
          ∧ findTarget { liftOf .back with offset := 0, position := 140 } s = none
          ∧ s.memory.back 0 = some r)
      ∧ findTarget (liftOf .last) home = none ∧ home.memory.current = none
      ∧ findTarget (liftOf .retract) home = none := by decide

/-- R40, R141: a line in hand with a Working suspect, a suspect of paper and a lookup in flight. -/
theorem meets_ReleaseLineDiscards_lookups :
    (let x : Suspect := { suspectTeh with place := .working, serial := 9 };
        let s := { withLine .link .line .held with
          spelling := { home.spelling with suspects := [x, suspectTeh], queue := [{ lineTeh with inFlight := true }] } };
        portFree .link s ∧ s.line.holder = some .link ∧ s.line.mode = .line
          ∧ s.spelling.suspects.filter (·.place != .working) = [suspectTeh]
          ∧ { lineTeh with inFlight := true } ∈ s.spelling.queue ∧ lineTeh.origin ≠ .query
          ∧ lineTeh.serial = s.line.serial) := by unfold portFree; decide

/-- R141, R148: "aaa teh" Held, its second word Suspect. -/
theorem meets_SuspectAndAddWordCommands_words :
    (let r : WordRecord := ⟨4, 3, false, .suspect, none, 0, false⟩;
        let x : Suspect := { suspectTeh with place := .working, serial := 9, first := 4 };
        let cells := [cellA 120, cellA 130, cellA 140, space,
          { cellA 160 with code := 0x74 }, { cellA 170 with code := 0x65 }, { cellA 180 with code := 0x68 }];
        let s := { withLine .link .line .held with
          line := { lineOf .link .line .held with cells := cells, words := [⟨0, 3, false, .good, none, 0, false⟩, r] }
          spelling := { home.spelling with suspects := [x] } };
        portFree .link s ∧ s.spelling.suspects[(0 : Byte).toNat]? = some x ∧ x.place = .working
          ∧ x.serial = s.line.serial ∧ r ∈ s.line.words ∧ r.first = x.first ∧ r.status = .suspect
          ∧ listFrozen s = false ∧ wordForm x.letters = true
          ∧ ((s.line.cells.drop r.first).take r.count).map (·.code) = x.letters
          ∧ s.spelling.userWords.any (·.matches x.letters) = false
          ∧ s.spelling.userWords.length < s.partition.userWords) := by unfold portFree; decide

/-- R128, R131: an overstrike, an inner cell and a cell at the end. -/
theorem meets_DirectCharacterIsStruck_edit :
    (directOn 1000 [cellA 1000]).line.cells.findIdx? (·.position == 1000) = some 0
      ∧ ((directOn 1000 [cellA 990, cellA 1010]).line.cells.filter (·.position < 1000)).length = 1
      ∧ 1 < (directOn 1000 [cellA 990, cellA 1010]).line.cells.length
      ∧ ((directOn 1000 [cellA 990]).line.cells.filter (·.position < 1000)).length
        = (directOn 1000 [cellA 990]).line.cells.length := by decide +kernel

/-- R128, R131: a Character inside "aa a", whose words are cells 0 and 1 and cell 3. -/
theorem meets_LineCharacterIsInserted_edit :
    (let line := { lineOf .link .line .composing with
          cells := [cellA 120, cellA 130, space, cellA 150], cursor := 1
          words := [⟨0, 2, false, .queued, none, 0, false⟩] };
        let s := inRing (.character 0x61) { withLine .link .line .composing with
          line := line
          spelling := { home.spelling with queue := [{ queryTeh with origin := .line .link, serial := 9, count := 2 }] } };
        s.line.phase = .composing ∧ s.line.holder = some .link ∧ s.line.mode = .line ∧ s.lift.away = false
          ∧ s.composer.ring .link = ⟨.character 0x61, false, false⟩ :: [] ∧ s.engine.petalMap = some wheel
          ∧ s.line.cursor ≠ s.line.cells.length ∧ s.line.cells.length < 160
          ∧ extentOf s.format.left (layFrom s.format wheel s.format.left (insertAt s.line.cells s.line.cursor
            (newCell s.line.cells .character 0x61 ⟨.character 0x61, false, false⟩ 0 0))) ≤ s.format.right)
      ∧ wordAtCells [cellA 120, cellA 130, space, cellA 150] 0 2 = true
      ∧ wordAtCells [cellA 120, cellA 130, space, cellA 150] 0 1 = false
      ∧ wordAtCells [cellA 120, cellA 130, space, cellA 150] 1 2 = false
      ∧ wordAtCells [cellA 120, cellA 130, space, cellA 150] 3 1 = true := by decide

/-- R129, R130: a Space after "aa", with seven and with eight lookups queued, with and without a lexicon, on and off the user
word list, with a fragment joined that makes 24 letters; a letter there; and a Held line. -/
theorem meets_LineCharacterIsInserted_end :
    (let line : WorkingLine := { lineOf .link .line .composing with
          cells := [cellA 120, cellA 130], cursor := 2, words := [⟨0, 2, false, .unchecked, none, 0, false⟩] };
        let s := inRing .space { present with
          line := line
          options := { home.options with linkSpelling := true }
          spelling := { home.spelling with queue := List.replicate 7 queryTeh } };
        s.line.phase = .composing ∧ s.line.holder = some .link ∧ s.line.mode = .line ∧ s.lift.away = false
          ∧ s.composer.ring .link = ⟨.space, false, false⟩ :: [] ∧ s.engine.petalMap = some wheel
          ∧ s.line.cursor = s.line.cells.length ∧ s.line.cells.length < 160
          ∧ extentOf s.format.left (layFrom s.format wheel s.format.left (insertAt s.line.cells s.line.cursor
            (newCell s.line.cells .space 0x20 ⟨.space, false, false⟩ 0 0))) ≤ 1560
          ∧ wordListKept s = true ∧ s.line.unmapped = false ∧ s.line.joined = none
          ∧ wordAtCells s.line.cells 0 2 = true ∧ (s.line.cells.drop 2).all (fun _ => false) = true
          ∧ (∀ o ∈ s.line.words, o.status = .unchecked ∧ o.cause = none)
          ∧ (∀ b ∈ ([0x61, 0x61] : List Byte), fold b ≠ none ∨ b = 0x27)
          ∧ userGood s.spelling.userWords [0x61, 0x61] = false ∧ userGood [userWordOf [0x61, 0x61]] [0x61, 0x61] = true
          ∧ s.spelling.queue.length < 8 ∧ ¬ (List.replicate 8 queryTeh).length < 8
          ∧ s.store.lexiconAvailable = true ∧ home.store.lexiconAvailable = false
          ∧ (List.replicate 22 (0x61 : Byte) ++ [0x61, 0x61]).length ≤ 24
          ∧ (after .composeStroke s).line.words.map (·.status) = [.queued]
          ∧ (after .composeStroke s).spelling.queue.map (·.letters.length) = List.replicate 7 3 ++ [2]
          ∧ (after .composeStroke (inRing (.character 0x61) s)).spelling.queue = s.spelling.queue)
      ∧ (let s := inRing (.character 0x61) (withLine .link .line .held);
        s.line.phase = .held ∧ s.composer.ring .link = ⟨.character 0x61, false, false⟩ :: []) := by
  decide +kernel

/-- R58: 11 units over two gaps, the rightmost one unit more. -/
theorem meets_LineConversionMakesALineJob_justified :
    (let cells := [cellA 0, space, cellA 0, space, cellA 0];
        let f := { narrow with right := 181 };
        let plain := layFrom f wheel f.left cells;
        gapStarts plain = [1, 3] ∧ lastCharacterEdge plain = 170 ∧ lastCharacterEdge plain < f.right
          ∧ additions cells.length [1, 3] 5 1 = [0, 5, 0, 6, 0]
          ∧ lastCharacterEdge (layWith f wheel f.left (cells.zip [0, 5, 0, 6, 0])) = 181) := by decide

/-- R153 to R160: the images of the cases, and a cursor beyond the window. -/
theorem meets_BlinkAndFrames_image :
    home.display.live = true ∧ State.reset.display.live = false ∧ State.reset.engine.petalMap = none
      ∧ home.engine.petalMap = some wheel ∧ wheel.pitch = .twelve ∧ home.lift.away = false ∧ home.line.phase = .free
      ∧ (let s := { withLine .console .line .composing with
            line := { lineOf .console .line .composing with cells := List.replicate 39 (cellA 120), cursor := 39 } };
        s.display.live = true ∧ s.line.phase ≠ .free ∧ s.lift.away = false ∧ s.display.window + 35 < s.line.cursor)
      ∧ (withOverlay .link 2).display.overlay = some ⟨[0x41], .link, 2⟩
      ∧ (awayState []).lift.away = true ∧ (awayState []).display.live = true
      ∧ home.memory.records = []
      ∧ (let s := { awayState [] with memory := oneRecord, lift := { (awayState []).lift with target := some 0 } };
        s.lift.away = true ∧ s.memory.records.find? (fun r => some r.name == s.lift.target) = some (recordOf []))
      ∧ ({ home.options with linkSpelling := false } : Options).linkSpelling = false
      ∧ (home.store.state = .present) = False ∧ present.store.state = .present := by decide

/-- R156: `c - 35` at both sides of the range that R153 gives the window start (log entry 77). -/
theorem test_window_past_its_range : adjustWindow 0 195 = 160 ∧ adjustWindow 160 196 = 161 := by decide

/-- R161, R162: a changed image with the transfer free and in flight, an unchanged one, and the codes of a glyph. -/
theorem meets_BlinkAndFrames_frames :
    (displayNow home).image = (drawn home).display.image
      ∧ (let s := { home with display := { home.display with image := blinking } };
        (displayNow s).image ≠ s.display.image ∧ s.display.transfer = none)
      ∧ (let s := { home with display := { home.display with image := blinking, transfer := some .blank } };
        (displayNow s).image ≠ s.display.image ∧ s.display.transfer.isSome = true)
      ∧ (displayNow (drawn home)).image = (drawn home).display.image
      ∧ blinking.cells[0]? = some ⟨some 0x61, true, false, false⟩ ∧ (0x7E : Byte).toNat ≤ 0x7E
      ∧ 0x7E < (0xFF : Byte).toNat ∧ fold (0xFF : Byte) = none ∧ fold (0xE9 : Byte) = some 0x65 := by decide

/-- R34, R37: the wrap reached from Held. -/
theorem meets_OtherStrokesAndLineEnds_heldWrap :
    (let s := { wrapping with line := { wrapping.line with phase := .held } };
        s.line.phase = .held ∧ s.line.holder = some .link ∧ s.line.mode = .line ∧ s.lift.away = false
          ∧ s.composer.ring .link = ⟨.character 0x61, false, false⟩ :: [] ∧ s.engine.petalMap = some wheel
          ∧ s.line.cursor = s.line.cells.length ∧ s.line.marginRelease = false ∧ s.format.wrapOf .link = true
          ∧ s.format.right < extentOf s.format.left (layFrom s.format wheel s.format.left
            (s.line.cells ++ [newCell s.line.cells .character 0x61 ⟨.character 0x61, false, false⟩ 0 0]))
          ∧ wrapSpace s.line.cells = some 1) := by decide

end Sys2Proof.Tests
end

/-! SUPPORT. The arbiter with a save in progress: what a grant writes, and to whom it goes. -/

namespace Sys2Proof.Machine

/-! ### Grants (R16) -/

theorem setStore_frame (s : State) (st : Store) : changesOnly [.store] s { s with store := st } := by
  intro q hq
  cases q with
  | store => exact absurd List.mem_cons_self hq
  | _ => rfl

/-- R16, 3: no lookup is granted while a save is in progress. -/
theorem lookupOp_of_save {s : State} {v : Save} (hv : s.store.save = some v) : lookupOp s = none := by
  simp [lookupOp, hv]

/-- A grant writes nothing of the Store Interface but the link. -/
theorem arbitrate_store (s : State) : (arbitrate s).store = { s.store with link := (arbitrate s).store.link } := by
  unfold arbitrate
  split
  · split <;> rfl
  · rfl

/-- R16: while a save is in progress a grant leaves the spell queue as it is. -/
theorem arbitrate_frame_of_save {s : State} {v : Save} (hv : s.store.save = some v) :
    changesOnly [.store] s (arbitrate s) := by
  unfold arbitrate
  rw [lookupOp_of_save hv]
  split
  · split
    · exact putOnLink_frame _ _ _
    · exact putOnLink_frame _ _ _
    · contradiction
    · exact .refl _ _
  · exact .refl _ _

/-- R16, 2: on a free link with no wheel load waiting the next step of the save is granted. -/
theorem arbitrate_grants_save {s : State} {v : Save} {op : StoreOp} (hl : s.store.link = none)
    (hp : s.store.state = .present) (hw : s.store.wheelOp = none) (hv : s.store.save = some v)
    (ho : v.steps.head? = some op) : arbitrate s = putOnLink .save op s := by
  have hs : s.store.saveOp = some op := by simp [Store.saveOp, hv, ho]
  simp [arbitrate, hl, hp, hw, hs]

end Sys2Proof.Machine

/-! SUPPORT. Save User Words (O41): its cases as a command, the steps of a save, and the bytes of a record. -/

namespace Sys2Proof.Machine

/-! ### The command (R13) -/

/-- Save User Words passes the checks of R174 from either port. -/
theorem exec_saveUserWords {p : Port} {s : State} (hf : portFree p s) :
    exec (.saveUserWords p) s
      = .next (finish ((cmdSaveUserWords p (taken p s)).1.reply p 0x55 (cmdSaveUserWords p (taken p s)).2)) := by
  have hc : checkBlock p 0x55 0 = none := by cases p <;> rfl
  exact congrArg Host.Outcome.next (offer_taken (cmdSaveUserWords p) hf (by decide) hc)

theorem cmdSaveUserWords_busy (p : Port) {s : State}
    (h : s.store.state = .starting ∨ (s.store.state = .present ∧ s.store.save.isSome = true)) :
    cmdSaveUserWords p s = refuse .busy s := by
  rcases h with h | ⟨hp, hv⟩
  · simp [cmdSaveUserWords, h]
  · simp [cmdSaveUserWords, hp, hv]

theorem cmdSaveUserWords_noTarget (p : Port) {s : State}
    (h : s.store.state = .absent ∨ s.store.state = .faulted
      ∨ (s.store.state = .present ∧ s.store.save = none ∧ s.store.flags.noUserArea = true)) :
    cmdSaveUserWords p s = refuse .noTarget s := by
  rcases h with h | h | ⟨hp, hv, hn⟩
  · simp [cmdSaveUserWords, h]
  · simp [cmdSaveUserWords, h]
  · simp [cmdSaveUserWords, hp, hv, hn]

/-- The save that a Started Save User Words keeps, before the arbiter decides. -/
def withSave (p : Port) (u : StoreSection) (s : State) : State :=
  { s with store := { s.store with save := some { issuer := p, steps := saveSteps u.base s.spelling.userWords } } }

theorem cmdSaveUserWords_started {p : Port} {u : StoreSection} {s : State} (hp : s.store.state = .present)
    (hv : s.store.save = none) (hn : s.store.flags.noUserArea = false) (hu : s.store.userArea = some u) :
    cmdSaveUserWords p s = (arbitrate (withSave p u s), .plain .started) := by
  simp [cmdSaveUserWords, hp, hv, hn, hu, withSave]

theorem withSave_frame (p : Port) (u : StoreSection) (s : State) :
    changesOnly [.store] s (arbitrate (withSave p u s)) := by
  exact (setStore_frame s _).trans (arbitrate_frame_of_save rfl)

/-! ### The steps of a save (R14) -/

theorem UserWord.bytes_length (u : UserWord) : u.bytes.length = 8 := rfl

theorem flatMap_bytes_length (users : List UserWord) : (users.flatMap (·.bytes)).length = 8 * users.length := by
  simp [List.length_flatMap, UserWord.bytes_length, Nat.mul_comm]

/-- R14, step 3: a page holds 248 record bytes behind the header's place, or 256, and the last those that are left. -/
theorem recordProgram_eq (base : Nat) (records : List Byte) (k : Nat) :
    recordProgram base records k = .pageProgram (base + max 8 (256 * k))
      ((records.drop (256 * k - 8)).take (if k = 0 then 248 else 256)) := by
  have hstart : max 8 (256 * k) - 8 = 256 * k - 8 := by omega
  have hcount : min (256 * (k + 1)) (8 + records.length) - max 8 (256 * k)
      = min (if k = 0 then 248 else 256) (records.drop (256 * k - 8)).length := by
    rw [List.length_drop]; split <;> omega
  unfold recordProgram
  dsimp only
  rw [hstart, hcount, ← List.take_eq_take_min]

/-- R14, step 4: the check value is sent modulo 2^32, one byte at a time. -/
theorem areaHeader_eq (n : Nat) (records : List Byte) :
    areaHeader n records = [0x55, 0x57, BitVec.ofNat 8 (n / 256), BitVec.ofNat 8 n]
      ++ (let sum := records.foldl (fun m b => m + b.toNat) 0
          [BitVec.ofNat 8 (sum / 16777216), BitVec.ofNat 8 (sum / 65536), BitVec.ofNat 8 (sum / 256),
            BitVec.ofNat 8 sum]) := by
  have key (sum d : Nat) (hd : d = 16777216 ∨ d = 65536 ∨ d = 256 ∨ d = 1) :
      BitVec.ofNat 8 (sum % 4294967296 / d) = BitVec.ofNat 8 (sum / d) := by
    apply BitVec.eq_of_toNat_eq
    rw [BitVec.toNat_ofNat, BitVec.toNat_ofNat]
    rcases hd with rfl | rfl | rfl | rfl <;> omega
  simp only [areaHeader, byteSum, two, byte, Nat.div_div_eq_div_mul, List.cons_append, List.nil_append]
  rw [key _ (65536 * 256) (by simp), key _ 65536 (by simp), key _ 256 (by simp)]
  have h1 := key (records.foldl (fun m b => m + b.toNat) 0) 1 (by simp)
  rw [Nat.div_one, Nat.div_one] at h1
  rw [h1]

/-! ### The bytes of a record (section 9.8) -/

theorem number_byte (n : Nat) (h : n < 256) : number [byte n] = n := by
  simp [number, byte, Nat.mod_eq_of_lt h]

theorem number_two (n : Nat) (h : n < 65536) : number (two n) = n := by
  simp only [number, two, byte, List.foldl_cons, List.foldl_nil, BitVec.toNat_ofNat]
  omega

theorem number_three (n : Nat) (h : n < 16777216) : number [byte (n / 65536), byte (n / 256), byte n] = n := by
  simp only [number, byte, List.foldl_cons, List.foldl_nil, BitVec.toNat_ofNat]
  omega

/-- Settles O41: the cases of the command, each by its own lemma, and the steps and record bytes by computation. -/
theorem saveUserWordsStarts : Obligations.SaveUserWordsStarts := by
  unfold Obligations.SaveUserWordsStarts
  refine ⟨fun p s hf => ⟨_, exec_saveUserWords hf, fun h => ?busy, fun h => ?noTarget,
    fun u hp hv hn hu => ?started⟩, fun base users => ?steps, fun u hfp hl hpv => ?record⟩
  case busy =>
    rw [cmdSaveUserWords_busy p (by simpa using h)]
    exact blockOnly_refused p 0x55 _ s
  case noTarget =>
    rw [cmdSaveUserWords_noTarget p (by simpa using h)]
    exact blockOnly_refused p 0x55 _ s
  case started =>
    rw [cmdSaveUserWords_started (u := u) (by simpa using hp) (by simpa using hv) (by simpa using hn)
      (by simpa using hu)]
    have hstore : (withSave p u (taken p s)).store = { s.store with
        save := some { issuer := p, steps := saveSteps u.base s.spelling.userWords } } := by
      simp [withSave]
    refine ⟨blockDone_of (withSave_frame p u _) (by cases p <;> decide) (by decide), ?_, rfl, fun hl => ?_,
      fun hl hw => ?_⟩
    · rw [finish_store, State.reply_store, arbitrate_store, hstore]
    · rw [finish_store, State.reply_store, arbitrate_idle (.inl (by rw [hstore]; exact hl)), hstore]
    · rw [finish_store, State.reply_store, arbitrate_grants_save (v := ⟨p, saveSteps u.base s.spelling.userWords⟩)
        (op := .sectorErase u.base) (by rw [hstore]; exact hl) (by rw [hstore]; exact hp)
        (by rw [hstore]; exact hw) (by rw [hstore]) rfl]
      rfl
  case steps =>
    have hpages : ((saveSteps base users).drop 2).take (recordPages users.length)
        = (List.range (recordPages users.length)).map (recordProgram base (users.flatMap (·.bytes))) := by
      simp [saveSteps]
    have hlen : (((saveSteps base users).drop 2).take (recordPages users.length)).length
        = recordPages users.length := by simp [hpages]
    refine ⟨?_, hlen, fun k hk => ?_, flatMap_bytes_length users⟩
    · show saveSteps base users = _ ++ ((saveSteps base users).drop 2).take (recordPages users.length) ++ _
      rw [hpages, ← areaHeader_eq]; rfl
    · show (((saveSteps base users).drop 2).take (recordPages users.length))[k]? = _
      have hk' : k < recordPages users.length := hlen ▸ hk
      rw [hpages, List.getElem?_map, List.getElem?_range hk', Option.map_some, recordProgram_eq]
  case record =>
    refine ⟨u.bytes_length, number_three _ hfp, number_byte _ hl, number_two _ hpv, ?_, rfl⟩
    show number [byte (flagBit u.capital 0)] = _
    cases u.capital <;> rfl

end Sys2Proof.Machine

/-! SUPPORT. What the end of a step keeps of the Store Interface, the spell queue and the port queues. -/

namespace Sys2Proof.Machine

/-! ### The Spelling Unit at the end of a step -/

/-- No lookup can start: the lexicon is unavailable, or no line is held (R130, R138). -/
def noLookupStarts (s : State) : Prop := s.store.lexiconAvailable = false ∨ s.line.holder = none

/-- R130: all that the attempt for a word can do: a lookup joins the queue only where one can start. -/
theorem attemptWord_cases (first : Nat) (s : State) :
    attemptWord first s = s ∨ (∃ g, attemptWord first s = setWord first g s)
      ∨ (¬ noLookupStarts s ∧ ∃ g e, attemptWord first s = setWord first g (joinSpellQueue e s)) := by
  unfold attemptWord
  split
  · rename_i hp _
    split
    · dsimp only
      split
      · exact .inr (.inl ⟨_, rfl⟩)
      · split
        · exact .inl rfl
        · split
          · exact .inr (.inl ⟨_, rfl⟩)
          · rename_i hl
            exact .inr (.inr ⟨by simpa [noLookupStarts, hp] using hl, _, _, rfl⟩)
    · exact .inl rfl
  · exact .inl rfl

theorem attemptWord_noLookupStarts (first : Nat) (s : State) :
    noLookupStarts (attemptWord first s) ↔ noLookupStarts s := by
  rcases attemptWord_cases first s with h | ⟨g, h⟩ | ⟨-, g, e, h⟩ <;> rw [h] <;> rfl

theorem attemptWord_userWords (first : Nat) (s : State) :
    (attemptWord first s).spelling.userWords = s.spelling.userWords := by
  rcases attemptWord_cases first s with h | ⟨g, h⟩ | ⟨-, g, e, h⟩ <;> rw [h] <;> rfl

theorem attemptWord_spelling_of_noLookupStarts {first : Nat} {s : State} (hs : noLookupStarts s) :
    (attemptWord first s).spelling = s.spelling := by
  rcases attemptWord_cases first s with h | ⟨g, h⟩ | ⟨hn, -⟩
  · rw [h]
  · rw [h]; rfl
  · exact absurd hs hn

theorem attemptWords_userWords (firsts : List Nat) (s : State) :
    (attemptWords firsts s).spelling.userWords = s.spelling.userWords :=
  List.foldlRecOn (motive := fun t => t.spelling.userWords = s.spelling.userWords) firsts _ rfl
    fun t ht first _ => (attemptWord_userWords first t).trans ht

theorem attemptWords_spelling_of_noLookupStarts (firsts : List Nat) {s : State} (h : noLookupStarts s) :
    (attemptWords firsts s).spelling = s.spelling := by
  induction firsts generalizing s with
  | nil => rfl
  | cons first rest ih =>
    exact (ih ((attemptWord_noLookupStarts first s).2 h)).trans (attemptWord_spelling_of_noLookupStarts h)

theorem fillFromChecking_userWords (s : State) : (fillFromChecking s).spelling.userWords = s.spelling.userWords := by
  unfold fillFromChecking; split
  · exact attemptWords_userWords _ _
  · rfl

theorem fillFromChecking_spelling_of_noLookupStarts {s : State} (h : noLookupStarts s) :
    (fillFromChecking s).spelling = s.spelling := by
  unfold fillFromChecking; split
  · exact attemptWords_spelling_of_noLookupStarts _ h
  · rfl

theorem fillQueries_userWords (done l : List Query) (s : State) :
    (fillQueries done l s).spelling.userWords = s.spelling.userWords := by
  induction l generalizing done s with
  | nil => rfl
  | cons q rest ih =>
    unfold fillQueries; split
    · exact ih _ _
    · exact ih _ _

theorem holdTest_spelling (s : State) : (holdTest s).spelling = s.spelling := (holdTest_frame s).same .spelling

theorem settleSpelling_userWords (s : State) : (settleSpelling s).spelling.userWords = s.spelling.userWords := by
  unfold settleSpelling
  rw [holdTest_spelling]
  exact (fillQueries_userWords _ _ _).trans (fillFromChecking_userWords s)

/-- With no query outstanding and no lookup that can start the Spelling Unit's own part stays as it is. -/
theorem settleSpelling_spelling_of_noLookupStarts {s : State} (h : noLookupStarts s) (hq : s.spelling.queries = []) :
    (settleSpelling s).spelling = s.spelling := by
  have hf := fillFromChecking_spelling_of_noLookupStarts h
  unfold settleSpelling
  rw [holdTest_spelling, fillFromQueries_idle (by rw [hf]; exact hq), hf]

@[simp] theorem settleSpelling_store (s : State) : (settleSpelling s).store = s.store :=
  (settleSpelling_frame s).same .store

/-! ### The end of a step -/

theorem arbitrate_userWords (s : State) : (arbitrate s).spelling.userWords = s.spelling.userWords := by
  unfold arbitrate; split
  · split <;> rfl
  · rfl

@[simp] theorem endStep_userWords (s : State) : (endStep s).spelling.userWords = s.spelling.userWords :=
  (arbitrate_userWords _).trans (settleSpelling_userWords s)

@[simp] theorem endStep_link (s : State) : (endStep s).link = s.link := (endStep_frame s).same .link

theorem endStep_store_eq (s : State) : (endStep s).store = (arbitrate (settleSpelling s)).store := rfl

/-- The end of a step writes nothing of the Store Interface but the link. -/
theorem endStep_store (s : State) : (endStep s).store = { s.store with link := (endStep s).store.link } := by
  have h := arbitrate_store (settleSpelling s)
  rw [settleSpelling_store] at h
  exact h

/-- R16: with the link taken, or the store not Present, the end of a step writes nothing of the Store Interface. -/
theorem endStep_store_idle {s : State} (h : s.store.link.isSome ∨ s.store.state ≠ .present) :
    (endStep s).store = s.store := by
  have ha : arbitrate (settleSpelling s) = settleSpelling s := arbitrate_idle (by simpa using h)
  rw [endStep_store_eq, ha, settleSpelling_store]

/-- R16, 2: the end of a step grants the free link to the next step of a save when no wheel load waits. -/
theorem endStep_store_save {s : State} {v : Save} {op : StoreOp} (hl : s.store.link = none)
    (hp : s.store.state = .present) (hw : s.store.wheelOp = none) (hv : s.store.save = some v)
    (ho : v.steps.head? = some op) :
    (endStep s).store = { s.store with link := some { owner := .save, op := op, limit := op.limit } } := by
  have ha : arbitrate (settleSpelling s) = putOnLink .save op (settleSpelling s) :=
    arbitrate_grants_save (v := v) (by simpa using hl) (by simpa using hp) (by simpa using hw) (by simpa using hv) ho
  rw [endStep_store_eq, ha, putOnLink, settleSpelling_store]

/-- R16: nothing is granted with nobody waiting for the link. -/
theorem arbitrate_nobody_waits {s : State} (hw : s.store.wheelRequest = none)
    (hv : s.store.save = none) (hq : s.spelling.queue = []) : arbitrate s = s := by
  have h1 : s.store.wheelOp = none := by simp [Store.wheelOp, hw]
  have h2 : s.store.saveOp = none := by simp [Store.saveOp, hv]
  have h3 : lookupOp s = none := by simp [lookupOp, hq]
  simp [arbitrate, h1, h2, h3]

/-- With nobody waiting for it and no line held the link is free after the step's end. -/
theorem endStep_link_free {s : State} (hl : s.store.link = none) (hw : s.store.wheelRequest = none)
    (hv : s.store.save = none) (hq : s.spelling.queue = []) (hqs : s.spelling.queries = [])
    (hh : s.line.holder = none) : (endStep s).store.link = none := by
  have hs := settleSpelling_spelling_of_noLookupStarts (.inr hh) hqs
  have ha : arbitrate (settleSpelling s) = settleSpelling s :=
    arbitrate_nobody_waits (by simpa using hw) (by simpa using hv) (by rw [hs]; exact hq)
  rw [endStep_store_eq, ha, settleSpelling_store, hl]

/-- With the store Faulted and no query outstanding the spell queue stands at the end of a step. -/
theorem endStep_spelling_of_faulted {s : State} (h : s.store.state = .faulted) (hqs : s.spelling.queries = []) :
    (endStep s).spelling = s.spelling := by
  have hs := settleSpelling_spelling_of_noLookupStarts (s := s) (.inl (by simp [Store.lexiconAvailable, h])) hqs
  have ha : arbitrate (settleSpelling s) = settleSpelling s := arbitrate_idle (.inr (by simp [h]))
  exact (congrArg State.spelling ha).trans hs

/-- A step whose own work is the Store Interface's, and whose grant touches no lookup, has the frame of an event. -/
theorem eventFrame_of_store {s u : State} (h : changesOnly [.store] s u) (ha : changesOnly [.store] u (arbitrate u)) :
    eventFrame [.store] s (endStep u) := by
  have el : u.line = s.line := h.same .line
  have es : u.spelling = s.spelling := h.same .spelling
  refine ⟨?_, endStep_displayFollows (h.same .display), endStep_holdFollows (h.same .holdTimer), fun hp => ?_,
    fun hp hq _ => ?_⟩
  · exact h.then (endStep_frame u) (by decide) (by decide)
  · exact h.then (endStep_unheld (el ▸ hp)) (by decide) (by decide)
  · have hsettle : settle u = arbitrate u := by
      unfold settle
      rw [settleSpelling_unheld (el ▸ hp), fillFromQueries_idle (es ▸ hq)]
    unfold endStep
    rw [hsettle]
    exact (h.trans ha).then (finish_frame _) (by decide) (by decide)

/-! ### Blocks that stay in a queue (R179, R180) -/

theorem mem_coalesceInto_self (b : Block) (queue : List Block) : b ∈ coalesceInto b queue := by
  induction queue with
  | nil => exact List.mem_singleton.2 rfl
  | cons x rest ih =>
    unfold coalesceInto; split
    · exact List.mem_cons_self
    · exact List.mem_cons_of_mem _ ih

/-- R179: a coalescing notice takes the place of its own kind only. -/
theorem mem_coalesceInto {b c : Block} {queue : List Block} (hb : b ∈ queue) (hk : b.kind ≠ c.kind) :
    b ∈ coalesceInto c queue := by
  induction queue with
  | nil => simp at hb
  | cons x rest ih =>
    rcases List.mem_cons.1 hb with rfl | hr
    · unfold coalesceInto
      rw [if_neg hk]
      exact List.mem_cons_self
    · unfold coalesceInto; split
      · exact List.mem_cons_of_mem _ hr
      · exact List.mem_cons_of_mem _ (ih hr)

/-- R179, R181: an enabled notice that coalesces stands in the queue. -/
theorem PortState.mem_notice_self {v : PortState} {b : Block} (he : enabled v.enable b.kind = true)
    (hc : coalesces b.kind = true) : b ∈ (v.notice b).queue := by
  simp [PortState.notice, he, hc, mem_coalesceInto_self]

/-- R179, R180: a notice of another kind that is no job notice removes no block. -/
theorem PortState.mem_notice {v : PortState} {b c : Block} (hb : b ∈ v.queue) (hk : b.kind ≠ c.kind)
    (hj : isJobNotice c = false) : b ∈ (v.notice c).queue := by
  unfold PortState.notice
  split
  · exact hb
  · split
    · exact mem_coalesceInto hb hk
    · rw [if_neg (by simp [hj])]
      exact List.mem_append_left _ hb

theorem Port.eq_or_eq_other (q p : Port) : q = p ∨ q = Port.other p := by cases p <;> cases q <;> decide

/-- A notice to one port leaves the blocks of another kind in the queues of both. -/
theorem State.mem_notice {s : State} {p q : Port} {b c : Block} (hb : b ∈ (s.port q).queue) (hk : b.kind ≠ c.kind)
    (hj : isJobNotice c = false) : b ∈ ((s.notice p c).port q).queue := by
  rcases Port.eq_or_eq_other q p with rfl | rfl
  · rw [State.notice_port]
    exact PortState.mem_notice hb hk hj
  · rwa [State.notice_port_other]

/-- The end of a step sends no notice but Line Held. -/
theorem mem_endStep {s : State} {q : Port} {b : Block} (hb : b ∈ (s.port q).queue) (hk : b.kind ≠ 0xA4) :
    b ∈ ((endStep s).port q).queue := by
  have hfill : (fillFromQueries (fillFromChecking s)).port q = s.port q := by
    have h := (fillFromChecking_frame s).trans
      ((fillQueries_frame [] (fillFromChecking s).spelling.queries _).mono (b := [.line, .spelling]) (by decide))
    cases q
    · exact h.same .console
    · exact h.same .link
  have hsettle (t : State) (ht : b ∈ (t.port q).queue) : b ∈ ((holdTest t).port q).queue := by
    unfold holdTest
    split
    · dsimp only
      split
      · rw [State.tone_port]
        refine State.mem_notice ?_ hk rfl
        cases q <;> exact ht
      · cases q <;> exact ht
    · exact ht
  have harb (t : State) : (arbitrate t).port q = t.port q := by
    cases q
    · exact (arbitrate_frame t).same .console
    · exact (arbitrate_frame t).same .link
  have h : b ∈ ((settleSpelling s).port q).queue := hsettle _ (by rw [hfill]; exact hb)
  unfold endStep settle
  rw [finish_port, harb]
  exact h

end Sys2Proof.Machine

/-! SUPPORT. The states of the store: what entering one comes to when nothing waits, and what the fault of the store
does. -/

namespace Sys2Proof.Machine

/-- The state with nothing on the Store Link. -/
def unlinked (s : State) : State := { s with store := { s.store with link := none } }

/-! ### The lexicon lost (R138) -/

/-- What holds once the spell queue is empty, and is kept by a change of the line and by the answer to a query, holds
after the lexicon is lost. -/
theorem lexiconLost_keeps {P : State → Prop} {s : State}
    (h : P { s with spelling := { s.spelling with queue := [] } })
    (hline : ∀ (t : State) (l : WorkingLine), P t → P { t with line := l })
    (hanswer : ∀ (t : State) (tag : Nat), P t → P (answerQuery tag 2 t)) : P (lexiconLost s) := by
  unfold lexiconLost
  dsimp only
  refine List.foldlRecOn _ _ (List.foldlRecOn _ _ h fun t ht e _ => ?_) fun t ht q _ => hanswer t q.tag ht
  split
  · exact ht
  · split
    · exact hanswer t _ ht
    · split
      · exact hline t _ ht
      · exact ht

/-- The answers to all outstanding queries leave none. -/
theorem answerQueries_queries (l : List Query) (t : State) (h : t.spelling.queries = l) :
    (l.foldl (fun u q => answerQuery q.tag 2 u) t).spelling.queries = [] := by
  induction l generalizing t with
  | nil => exact h
  | cons q rest ih =>
    refine ih _ ?_
    show t.spelling.queries.eraseP _ = rest
    rw [h, List.eraseP_cons_of_pos (by simp)]

theorem lexiconLost_queries (s : State) : (lexiconLost s).spelling.queries = [] := answerQueries_queries _ _ rfl

theorem lexiconLost_queue (s : State) : (lexiconLost s).spelling.queue = [] :=
  lexiconLost_keeps (P := fun t => t.spelling.queue = []) rfl (fun _ _ h => h) fun _ _ h => h

theorem lexiconLost_userWords (s : State) : (lexiconLost s).spelling.userWords = s.spelling.userWords :=
  lexiconLost_keeps (P := fun t => t.spelling.userWords = s.spelling.userWords) rfl (fun _ _ h => h) fun _ _ h => h

/-- A block that is neither a Check Result nor a job notice stays in its queue when the lexicon is lost. -/
theorem mem_lexiconLost {s : State} {b : Block} (hb : b ∈ s.link.queue) (hk : b.kind ≠ 0xA8) :
    b ∈ (lexiconLost s).link.queue :=
  lexiconLost_keeps (P := fun t => b ∈ t.link.queue) hb (fun _ _ h => h) fun t tag h =>
    State.mem_notice (p := .link) (q := .link) (s := { t with spelling := { t.spelling with
      queries := t.spelling.queries.eraseP (·.tag == tag) } }) h hk rfl

/-- With nothing in the spell queue and no query outstanding the loss of the lexicon changes nothing. -/
theorem lexiconLost_idle {s : State} (hq : s.spelling.queue = []) (hqs : s.spelling.queries = []) :
    lexiconLost s = s := by
  have hs : { s with spelling := { s.spelling with queue := [] } } = s := by rw [← hq]
  unfold lexiconLost
  rw [hq]
  simp only [List.foldl_nil, hs]
  rw [hqs, List.foldl_nil]

/-! ### Entering a state (R3) -/

/-- The store in a state, with no start-up and nothing on the link. -/
def storeIn (state : StoreState) (s : State) : State :=
  { s with store := { s.store with state := state, startUp := none, link := none } }

/-- The state with the wheel request taken from its place. -/
def withoutRequest (s : State) : State := { s with store := { s.store with wheelRequest := none } }

theorem retakeRequest_of_none {s : State} (hw : s.store.wheelRequest = none) : retakeRequest s = s := by
  simp [retakeRequest, hw]

theorem withoutRequest_of_none {s : State} (hw : s.store.wheelRequest = none) : withoutRequest s = s := by
  unfold withoutRequest; rw [← hw]

theorem retakeRequest_of_some {s : State} {h : Nat} (hw : s.store.wheelRequest = some h) :
    retakeRequest s = requestTable h (withoutRequest s) := by
  simp [retakeRequest, hw, withoutRequest]

/-- R3: with no wheel load, lookup or query waiting, entering a state is the state and its notice. -/
theorem enterStore_idle (state : StoreState) {s : State} (hw : s.store.wheelRequest = none)
    (hq : s.spelling.queue = []) (hqs : s.spelling.queries = []) :
    enterStore state s = storeNotice (storeIn state s) := by
  have hl : lexiconLost (storeNotice (storeIn state s)) = storeNotice (storeIn state s) := lexiconLost_idle hq hqs
  have hr : retakeRequest (storeNotice (storeIn state s)) = storeNotice (storeIn state s) := retakeRequest_of_none hw
  show retakeRequest (if _ then storeNotice (storeIn state s) else lexiconLost (storeNotice (storeIn state s))) = _
  rw [hl, ite_self, hr]

/-- The parts that the end of a homing changes when its table is answered at once (R8, R82). -/
def homedParts : List Part := [.console, .link, .line, .composer, .engine, .display, .restTimer]

/-- R82: the end of a homing in Loaded tells both ports. -/
theorem homingLoaded_outcome (m : PetalMap) (s : State) :
    changesOnly homedParts s (homingLoaded m true s)
      ∧ ∀ p, (homingLoaded m true s).port p = (s.port p).notice (Notice.wheelLoaded m.wheelId m.pitch.code) := by
  have hmap : changesOnly homedParts s { s with
      engine := { s.engine with petalMap := some m, homing := none, homingLimit := none }
      display := { s.display with live := true } } := by
    intro q hq; cases q <;> simp_all [homedParts, Part.same]
  have hstate (u : State) : changesOnly [.engine, .restTimer] u
      (if u.engine.ribbon = 0 then enterSupplyOut u else enterReady u) :=
    .ite (enterSupplyOut_frame u) (enterReady_frame u)
  have hbefore := hmap.trans ((hstate _).mono (b := homedParts) (by decide))
  refine ⟨(hbefore.trans ((State.noticeBoth_frame _ _).mono (by decide))).trans ((relayLine_frame _).mono (by decide)),
    fun p => ?_⟩
  cases p
  · exact ((relayLine_frame _).same .console).trans (congrArg (PortState.notice · _) ((hstate _).same .console))
  · exact ((relayLine_frame _).same .link).trans (congrArg (PortState.notice · _) ((hstate _).same .link))

theorem homingRefused_outcome (hub reason : Nat) (s : State) :
    changesOnly homedParts s (homingRefused hub reason s)
      ∧ ∀ p, (homingRefused hub reason s).port p = (s.port p).notice (Notice.wheelFault hub reason) := by
  refine ⟨changesOnly.trans ?_ ((State.noticeBoth_frame _ _).mono (by decide)), fun p => by cases p <;> rfl⟩
  intro q hq; cases q <;> simp_all [homedParts, Part.same]

/-- R8: with the store Faulted a request gets the fallback map, or is refused for a missing hub. -/
theorem requestTable_faulted (h : Nat) {s : State} (hf : s.store.state = .faulted) :
    requestTable h s = if h = 0 then homingRefused h 0 s else homingLoaded (fallbackMap h) true s := by
  simp only [requestTable, hf]

/-- R8: with the store Faulted a waiting request is answered at once, with one of the two notices of wheels. -/
theorem retakeRequest_faulted {s : State} (hf : s.store.state = .faulted) :
    changesOnly homedParts (withoutRequest s) (retakeRequest s)
      ∧ (retakeRequest s = s ∨ ∃ c : Block, (c.kind = 0xAC ∨ c.kind = 0xAD)
        ∧ ∀ p, (retakeRequest s).port p = (s.port p).notice c) := by
  cases hw : s.store.wheelRequest with
  | none =>
    have h := retakeRequest_of_none hw
    exact ⟨.of_eq (h.trans (withoutRequest_of_none hw).symm), .inl h⟩
  | some h =>
    rw [retakeRequest_of_some hw, requestTable_faulted h (s := withoutRequest s) hf]
    have hport (p : Port) : (withoutRequest s).port p = s.port p := by cases p <;> rfl
    split
    · have ho := homingRefused_outcome h 0 (withoutRequest s)
      exact ⟨ho.1, .inr ⟨_, .inr rfl, fun p => by rw [ho.2, hport]⟩⟩
    · have ho := homingLoaded_outcome (fallbackMap h) (withoutRequest s)
      exact ⟨ho.1, .inr ⟨_, .inl rfl, fun p => by rw [ho.2, hport]⟩⟩

theorem mem_retakeRequest_faulted {s : State} {b : Block} {p : Port} (hf : s.store.state = .faulted)
    (hb : b ∈ (s.port p).queue) (h1 : b.kind ≠ 0xAC) (h2 : b.kind ≠ 0xAD) :
    b ∈ ((retakeRequest s).port p).queue := by
  rcases (retakeRequest_faulted hf).2 with h | ⟨c, hc, h⟩
  · rwa [h]
  · rw [h]
    rcases hc with hc | hc
    · exact PortState.mem_notice hb (by rwa [hc]) (by simp [isJobNotice, hc])
    · exact PortState.mem_notice hb (by rwa [hc]) (by simp [isJobNotice, hc])

theorem retakeRequest_faulted_enable {s : State} (p : Port) (hf : s.store.state = .faulted) :
    ((retakeRequest s).port p).enable = (s.port p).enable := by
  rcases (retakeRequest_faulted hf).2 with h | ⟨c, -, h⟩
  · rw [h]
  · rw [h, PortState.notice_enable]

/-! ### The fault of the store (R15) -/

/-- The state in which the waiting wheel request is taken again when the store faults. -/
def lostStore (s : State) : State := lexiconLost (storeNotice (storeIn .faulted s))

theorem lostStore_store (s : State) : (lostStore s).store = (storeIn .faulted s).store :=
  ((lexiconLost_frame _).same .store).trans ((storeNotice_frame _).same .store)

/-- R15, R138: the lexicon is never available in Faulted. -/
theorem enterStore_faulted (s : State) : enterStore .faulted s = retakeRequest (lostStore s) := rfl

theorem enterStore_faulted_frame (s : State) :
    changesOnly homedParts (withoutRequest (lostStore s)) (enterStore .faulted s) :=
  (retakeRequest_faulted (congrArg Store.state (lostStore_store s))).1

theorem enterStore_faulted_store (s : State) : (enterStore .faulted s).store
    = { s.store with state := .faulted, startUp := none, link := none, wheelRequest := none } := by
  refine ((enterStore_faulted_frame s).same .store).trans ?_
  unfold withoutRequest; rw [lostStore_store]; rfl

theorem enterStore_faulted_spelling (s : State) : (enterStore .faulted s).spelling = (lostStore s).spelling :=
  (enterStore_faulted_frame s).same .spelling

/-- R15: a fault is the state entered, and Save Done (Failed) for a save in progress. -/
theorem storeFault_cases (s : State) :
    (s.store.save = none ∧ storeFault s = enterStore .faulted (unlinked s))
      ∨ ∃ v, s.store.save = some v ∧ storeFault s
          = State.notice { enterStore .faulted (unlinked s) with
              store := { (enterStore .faulted (unlinked s)).store with save := none } } v.issuer (Notice.saveDone 1) := by
  have hsave : (enterStore .faulted (unlinked s)).store.save = s.store.save := by
    rw [enterStore_faulted_store]; rfl
  have h : storeFault s = match (enterStore .faulted (unlinked s)).store.save with
    | none => enterStore .faulted (unlinked s)
    | some v => State.notice { enterStore .faulted (unlinked s) with
        store := { (enterStore .faulted (unlinked s)).store with save := none } } v.issuer (Notice.saveDone 1) := rfl
  rw [hsave] at h
  cases hv : s.store.save with
  | none => exact .inl ⟨rfl, by rw [h, hv]⟩
  | some v => exact .inr ⟨v, rfl, by rw [h, hv]⟩

theorem storeFault_store (s : State) : (storeFault s).store
    = { s.store with state := .faulted, startUp := none, link := none, wheelRequest := none, save := none } := by
  rcases storeFault_cases s with ⟨hv, h⟩ | ⟨v, -, h⟩
  · rw [h, enterStore_faulted_store, ← hv]; rfl
  · rw [h, State.notice_store, enterStore_faulted_store]; rfl

theorem storeFault_spelling (s : State) : (storeFault s).spelling = (lostStore (unlinked s)).spelling := by
  rcases storeFault_cases s with ⟨-, h⟩ | ⟨v, -, h⟩
  · rw [h, enterStore_faulted_spelling]
  · rw [h, State.notice_spelling]; exact enterStore_faulted_spelling _

/-- R15: a fault leaves Correction Memory and the Lift Unit alone. -/
theorem storeFault_parts (s : State) :
    changesOnly [.console, .link, .line, .composer, .engine, .spelling, .store, .display, .restTimer]
      s (storeFault s) := by
  have h1 : changesOnly [.store] s (storeIn .faulted (unlinked s)) := setStore_frame s _
  have h2 : changesOnly [.link, .line, .console, .spelling, .store] s (lostStore (unlinked s)) :=
    ((h1.mono (by decide)).trans ((storeNotice_frame _).mono (by decide))).trans
      ((lexiconLost_frame _).mono (by decide))
  have h3 : changesOnly [.console, .link, .line, .composer, .engine, .spelling, .store, .display, .restTimer]
      s (enterStore .faulted (unlinked s)) :=
    ((h2.mono (by decide)).trans ((setStore_frame _ _).mono (by decide))).trans
      ((enterStore_faulted_frame _).mono (by decide))
  rcases storeFault_cases s with ⟨-, h⟩ | ⟨v, -, h⟩
  · rw [h]; exact h3
  · rw [h]
    exact (h3.trans ((setStore_frame _ _).mono (by decide))).trans
      ((State.notice_frame _ _ _).mono (by cases v.issuer <;> decide))

/-- R15: an enabled Store State with the faulted state stands in the link's queue after the fault. -/
theorem storeState_mem_storeFault {s : State} (he : enabled s.link.enable 0xB2 = true) :
    Notice.storeState 3 s.store.flags.byte ∈ (storeFault s).link.queue := by
  have h1 : Notice.storeState 3 s.store.flags.byte ∈ (storeNotice (storeIn .faulted (unlinked s))).link.queue :=
    PortState.mem_notice_self he rfl
  have h2 : Notice.storeState 3 s.store.flags.byte ∈ (lostStore (unlinked s)).link.queue :=
    mem_lexiconLost h1 (show (0xB2 : Byte) ≠ 0xA8 by decide)
  have h3 : Notice.storeState 3 s.store.flags.byte ∈ ((enterStore .faulted (unlinked s)).port .link).queue :=
    mem_retakeRequest_faulted (congrArg Store.state (lostStore_store _)) h2
      (show (0xB2 : Byte) ≠ 0xAC by decide) (show (0xB2 : Byte) ≠ 0xAD by decide)
  rcases storeFault_cases s with ⟨-, h⟩ | ⟨v, -, h⟩
  · rw [h]; exact h3
  · rw [h]
    exact State.mem_notice (q := .link) (b := Notice.storeState 3 _) h3 (show (0xB2 : Byte) ≠ 0xB1 by decide) rfl

theorem lostStore_enable (s : State) (p : Port) : ((lostStore s).port p).enable = (s.port p).enable := by
  have hn : ((storeNotice (storeIn .faulted s)).port p).enable = (s.port p).enable := by
    cases p <;> exact PortState.notice_enable _ _
  unfold lostStore
  refine lexiconLost_keeps (P := fun t => (t.port p).enable = (s.port p).enable) ?_ (fun t l h => ?_) fun t tag h => ?_
  · cases p <;> exact hn
  · cases p <;> exact h
  · cases p
    · exact h
    · exact (PortState.notice_enable _ _).trans h

/-- R14, R15: an enabled Save Done (Failed) stands in the issuer's queue after the fault. -/
theorem saveDone_mem_storeFault {s : State} {v : Save} (hv : s.store.save = some v)
    (he : enabled (s.port v.issuer).enable 0xB1 = true) :
    Notice.saveDone 1 ∈ ((storeFault s).port v.issuer).queue := by
  rcases storeFault_cases s with ⟨hn, -⟩ | ⟨w, hw, h⟩
  · rw [hv] at hn; contradiction
  · obtain rfl : v = w := Option.some.inj (hv.symm.trans hw)
    have hen : ((enterStore .faulted (unlinked s)).port v.issuer).enable = (s.port v.issuer).enable := by
      rw [enterStore_faulted, retakeRequest_faulted_enable _ (congrArg Store.state (lostStore_store _)),
        lostStore_enable]
      cases v.issuer <;> rfl
    rw [h, State.notice_port]
    refine PortState.mem_notice_self ?_ rfl
    show enabled (State.port _ v.issuer).enable 0xB1 = true
    rw [← he, ← hen]
    cases v.issuer <;> rfl

/-- A step that faults the store ends with the store Faulted and the link free. -/
theorem endStep_storeFault_store (s : State) : (endStep (storeFault s)).store
    = { s.store with state := .faulted, startUp := none, link := none, wheelRequest := none, save := none } := by
  have h := storeFault_store s
  have hs : (storeFault s).store.state ≠ .present := by rw [h]; exact StoreState.noConfusion
  rw [endStep_store_idle (.inr hs), h]

theorem endStep_storeFault_spelling (s : State) :
    (endStep (storeFault s)).spelling = (lostStore (unlinked s)).spelling := by
  have hq : (storeFault s).spelling.queries = [] := by rw [storeFault_spelling]; exact lexiconLost_queries _
  rw [endStep_spelling_of_faulted (by rw [storeFault_store]) hq, storeFault_spelling]

end Sys2Proof.Machine

/-! SUPPORT. The steps of a store start-up and of a save, one equation each, and what the bytes of the directory and of
the user word list are read as. -/

namespace Sys2Proof.Machine

/-! ### The directory header (R4) -/

theorem headerCount_eq_some_iff (bytes : List Byte) (n : Nat) :
    headerCount bytes = some n ↔ bytes.length = 8 ∧ bytes.take 5 = [0x4F, 0x48, 0x4C, 0x53, 0x01]
      ∧ (bytes[6]?).map (·.toNat) = some n ∧ 1 ≤ n ∧ n ≤ 8 := by
  constructor
  · intro h
    unfold headerCount at h
    split at h
    · split at h
      · rename_i hn
        obtain rfl := Option.some.inj h
        exact ⟨rfl, rfl, rfl, by simpa using hn⟩
      · contradiction
    · contradiction
  · rintro ⟨hlen, hmagic, hn, h1, h8⟩
    obtain ⟨a, b, c, d, e, f, g, h, rfl⟩ : ∃ a b c d e f g h, bytes = [a, b, c, d, e, f, g, h] := by
      match bytes, hlen with
      | [a, b, c, d, e, f, g, h], _ => exact ⟨a, b, c, d, e, f, g, h, rfl⟩
    simp only [List.take_succ_cons, List.take_zero, List.cons.injEq, and_true] at hmagic
    obtain ⟨rfl, rfl, rfl, rfl, rfl⟩ := hmagic
    obtain rfl : g.toNat = n := by simpa using hn
    simp [headerCount, h1, h8]

/-! ### The section entries (R5, R6, R11) -/

theorem StoreSection.not_meets_iff (a b : StoreSection) :
    a.meets b = false ↔ a.base + a.length ≤ b.base ∨ b.base + b.length ≤ a.base := by
  simp only [StoreSection.meets, Bool.and_eq_false_iff, decide_eq_false_iff_not]
  omega

/-- R11: the overlap test against the sections accepted. -/
theorem overlapFree_iff (u : StoreSection) (y : Examination) : overlapFree u y = true ↔ 4096 ≤ u.base
    ∧ (∀ l ∈ y.lexicon.toList ++ y.wheelSet.toList, u.base + u.length ≤ l.base ∨ l.base + l.length ≤ u.base) := by
  cases hl : y.lexicon <;> cases hw : y.wheelSet <;>
    simp [overlapFree, ← StoreSection.not_meets_iff, hl, hw, and_assoc]

/-- R6: a section that a Lexicon entry was accepted as. -/
def lexiconOf (e : RawEntry) (l : StoreSection) : Prop :=
  e.kind = 1 ∧ l = ⟨e.param, e.base, e.length⟩ ∧ 8 ≤ e.param ∧ e.param ≤ 16 ∧ e.length = 2 ^ e.param * 32
    ∧ e.base % 32 = 0 ∧ e.base + e.length ≤ 16777216

/-- R11: a section that a User Area entry was accepted as. -/
def userAreaOf (e : RawEntry) (u : StoreSection) : Prop :=
  e.kind = 3 ∧ u = ⟨e.param, e.base, e.length⟩ ∧ e.length = 8192 ∧ e.base % 4096 = 0
    ∧ e.base + e.length ≤ 16777216

theorem lexiconOf_of_fits {e : RawEntry} {l : StoreSection} (hk : e.kind = 1)
    (hs : ¬ Config.storeSize < e.base + e.length) (h : (if lexiconFits e then some e.section else none) = some l) : lexiconOf e l := by
  split at h
  · rename_i hf
    simp only [lexiconFits, Bool.and_eq_true, decide_eq_true_eq, beq_iff_eq] at hf
    obtain ⟨⟨⟨h8, h16⟩, hlen⟩, hbase⟩ := hf
    exact ⟨hk, (Option.some.inj h).symm, h8, h16, hlen, hbase, by simpa [Config.storeSize] using hs⟩
  · contradiction

theorem userAreaOf_of_fits {e : RawEntry} {u : StoreSection} (hk : e.kind = 3)
    (hs : ¬ Config.storeSize < e.base + e.length) (h : (if userFits e then some e.section else none) = some u) : userAreaOf e u := by
  split at h
  · rename_i hf
    simp only [userFits, Bool.and_eq_true, beq_iff_eq] at hf
    exact ⟨hk, (Option.some.inj h).symm, hf.1, hf.2, by simpa [Config.storeSize] using hs⟩
  · contradiction

/-- R5: an examination that reads no Wheel Set's header accepts no Wheel Set; the other sections it found before or accepts
from an entry. -/
theorem examine_done {entries : List RawEntry} {x y : Examination} (h : examine entries x = .done y) :
    y.wheelSet = x.wheelSet
      ∧ (∀ l, y.lexicon = some l → x.lexicon = some l ∨ ∃ e ∈ entries, lexiconOf e l)
      ∧ (∀ u, y.userArea = some u → x.userArea = some u ∨ ∃ e ∈ entries, userAreaOf e u) := by
  induction entries generalizing x with
  | nil =>
    obtain rfl : x = y := by simpa [examine] using h
    exact ⟨rfl, fun _ => .inl, fun _ => .inl⟩
  | cons e rest ih =>
    have later {P : RawEntry → Prop} (hP : ∃ a ∈ rest, P a) : ∃ a ∈ e :: rest, P a :=
      hP.imp fun _ ha => ⟨List.mem_cons_of_mem _ ha.1, ha.2⟩
    have skip (hs : examine rest x = .done y) : y.wheelSet = x.wheelSet
        ∧ (∀ l, y.lexicon = some l → x.lexicon = some l ∨ ∃ a ∈ e :: rest, lexiconOf a l)
        ∧ (∀ u, y.userArea = some u → x.userArea = some u ∨ ∃ a ∈ e :: rest, userAreaOf a u) := by
      obtain ⟨hw, hl, hu⟩ := ih hs
      exact ⟨hw, fun l hy => (hl l hy).imp id later, fun u hy => (hu u hy).imp id later⟩
    unfold examine at h
    split at h
    · exact skip h
    · rename_i hsize
      split at h
      · rename_i hk
        split at h
        · exact skip h
        · obtain ⟨hw, hl, hu⟩ := ih h
          exact ⟨hw, fun l hy => .inr ((hl l hy).elim
            (fun hx => ⟨e, List.mem_cons_self, lexiconOf_of_fits hk hsize hx⟩) later),
            fun u hy => (hu u hy).imp id later⟩
      · split at h
        · exact skip h
        · contradiction
      · rename_i hk
        split at h
        · exact skip h
        · obtain ⟨hw, hl, hu⟩ := ih h
          exact ⟨hw, fun l hy => (hl l hy).imp id later, fun u hy => .inr ((hu u hy).elim
            (fun hx => ⟨e, List.mem_cons_self, userAreaOf_of_fits hk hsize hx⟩) later)⟩
      · exact skip h

/-- R5: an examination from nothing that reads no Wheel Set's header. -/
theorem examine_none_done {entries : List RawEntry} {y : Examination} (h : examine entries .none = .done y) :
    y.wheelSet = none ∧ (∀ l, y.lexicon = some l → ∃ e ∈ entries, lexiconOf e l)
      ∧ (∀ u, y.userArea = some u → ∃ e ∈ entries, userAreaOf e u) := by
  obtain ⟨hw, hl, hu⟩ := examine_done h
  exact ⟨hw, fun l hy => (hl l hy).resolve_left (by simp [Examination.none]),
    fun u hy => (hu u hy).resolve_left (by simp [Examination.none])⟩

/-! ### The user word list (R12) -/

theorem listFits_iff (check : Nat) (magic : Bool) (bytes : List Byte) : listFits check magic bytes = true ↔
    magic = true ∧ bytes.foldl (fun n b => n + b.toNat) 0 % 4294967296 = check
      ∧ (∀ u ∈ userRecords bytes, u.fingerprint ≠ 0 ∧ 2 ≤ u.length ∧ u.length ≤ 24)
      ∧ ascending (userRecords bytes) = true := by
  simp [listFits, byteSum, and_assoc]

/-- The state with the whole user word list discarded (R12). -/
def withoutList (s : State) : State :=
  { s with
    spelling := { s.spelling with userWords := [] }
    store := { s.store with flags := { s.store.flags with discarded := true } } }

theorem discardList_eq (s : State) : discardList s = endPresent (withoutList s) := rfl

/-- The state with a user word list loaded, as far as the partition has room (R12). -/
def withList (words : List UserWord) (s : State) : State :=
  { s with
    spelling := { s.spelling with userWords := words.take s.partition.userWords }
    store := { s.store with flags := { s.store.flags with
      truncated := s.store.flags.truncated || decide (s.partition.userWords < words.length) } } }

theorem userRecordsRead_of_fits {check : Nat} {magic : Bool} {bytes : List Byte} (s : State)
    (h : listFits check magic bytes = true) :
    userRecordsRead check magic bytes s = endPresent (withList (userRecords bytes) s) := by
  simp [userRecordsRead, h, withList]

theorem userRecordsRead_of_not_fits {check : Nat} {magic : Bool} {bytes : List Byte} (s : State)
    (h : ¬ listFits check magic bytes = true) :
    userRecordsRead check magic bytes s = endPresent (withoutList s) := by
  simp [userRecordsRead, h, discardList_eq]

/-! ### The start-up goes on (R3, R7, R12) -/

/-- A step's end leaves the operation that the start-up has put on the link. -/
theorem endStep_startUpWith_store (step : StartStep) (op : StoreOp) (s : State) :
    (endStep (startUpWith step op s)).store
      = { s.store with startUp := some step, link := some { owner := .startUp, op := op, limit := op.limit } } :=
  endStep_store_idle (s := startUpWith step op s) (.inl rfl)

theorem startUsers_of_userArea {s : State} {u : StoreSection} (hu : s.store.userArea = some u) :
    startUsers s = startUpWith .userHeader (.straightRead u.base 8) s := by
  simp [startUsers, hu]

theorem startUsers_of_none {s : State} (hu : s.store.userArea = none) : startUsers s = endPresent s := by
  simp [startUsers, hu]

theorem readTableId_goes_on {t tables : Nat} {s : State} {w : StoreSection} (hw : s.store.wheelSet = some w)
    (ht : t < tables) :
    readTableId t tables s = startUpWith (.wheelIds t tables) (.straightRead (w.base + 4 + 392 * t) 1) s := by
  simp [readTableId, hw, ht]

theorem readTableId_ends {t tables : Nat} {s : State} (h : s.store.wheelSet = none ∨ tables ≤ t) :
    readTableId t tables s = startUsers s := by
  rcases h with h | h
  · simp [readTableId, h]
  · unfold readTableId
    split
    · rw [if_neg (Nat.not_lt.2 h)]
    · rfl

/-- The state with the directory copy replaced by what an examination found (R5, R11). -/
def withSections (x : Examination) (s : State) : State :=
  { s with store := { s.store with
      lexicon := x.lexicon
      wheelSet := x.wheelSet
      userArea := x.userArea.filter (overlapFree · x)
      wheelIndex := []
      flags := { s.store.flags with
        noLexicon := x.lexicon.isNone
        noWheelSet := x.wheelSet.isNone
        noUserArea := (x.userArea.filter (overlapFree · x)).isNone } } }

theorem endExamination_eq (x : Examination) (s : State) :
    endExamination x s = readTableId 0 x.tables (withSections x s) := rfl

section StartUpSteps

variable {bytes : List Byte} {s : State}

theorem startUpStep_resetPair (h : s.store.startUp = some .resetPair) :
    startUpStep bytes s = startUpWith .recovery .statusRead s := by simp [startUpStep, h]

theorem startUpStep_recovery (h : s.store.startUp = some .recovery) :
    startUpStep bytes s = startUpWith .setWrap .setWrap s := by simp [startUpStep, h]

theorem startUpStep_setWrap (h : s.store.startUp = some .setWrap) :
    startUpStep bytes s = startUpWith .readHeader (.straightRead 0 8) s := by simp [startUpStep, h]

theorem startUpStep_readHeader_passed {n : Nat} (h : s.store.startUp = some .readHeader)
    (hn : headerCount bytes = some n) :
    startUpStep bytes s = startUpWith .readEntries (.straightRead 8 (12 * n)) s := by simp [startUpStep, h, hn]

theorem startUpStep_readHeader_rejected (h : s.store.startUp = some .readHeader) (hn : headerCount bytes = none) :
    startUpStep bytes s = enterStore .absent s := by simp [startUpStep, h, hn]

theorem startUpStep_readEntries {y : Examination} (h : s.store.startUp = some .readEntries)
    (hy : examine (rawEntries bytes) .none = .done y) :
    startUpStep bytes s = startUsers (withSections y s) := by
  have hw : (withSections y s).store.wheelSet = none := (examine_none_done hy).1
  simp [startUpStep, h, goOnExamining, hy, endExamination_eq, readTableId_ends (.inl hw)]

/-- What an examination has found once a Wheel Set of this many tables is accepted (R7). -/
def withWheelSet (e : RawEntry) (tables : Nat) (x : Examination) : Examination :=
  { x with wheelSeen := true, wheelSet := some e.section, tables := tables }

theorem startUpStep_wheelHeader {e : RawEntry} {x : Examination} (h : s.store.startUp = some (.wheelHeader e [] x))
    (h1 : 1 ≤ number bytes) (h32 : number bytes ≤ 32) (hlen : 4 + 392 * number bytes ≤ e.length) :
    startUpStep bytes s = startUpWith (.wheelIds 0 (number bytes)) (.straightRead (e.base + 4) 1)
      (withSections (withWheelSet e (number bytes) x) s) := by
  have hread : wheelHeaderRead e [] x bytes s = endExamination (withWheelSet e (number bytes) x) s := by
    simp [wheelHeaderRead, goOnExamining, examine, h1, h32, hlen, withWheelSet]
  have hids : endExamination (withWheelSet e (number bytes) x) s = startUpWith (.wheelIds 0 (number bytes))
      (.straightRead (e.base + 4 + 392 * 0) 1) (withSections (withWheelSet e (number bytes) x) s) :=
    readTableId_goes_on (s := withSections (withWheelSet e (number bytes) x) s) (w := e.section) rfl h1
  simp only [startUpStep, h, hread, hids, Nat.mul_zero, Nat.add_zero]

/-- The state with a table's id in the wheel index, where it may stand there (R7). -/
def withIndex (id table : Nat) (s : State) : State :=
  { s with store := { s.store with wheelIndex := indexId id table s.store.wheelIndex } }

theorem indexId_eq (id table : Nat) (index : List (Nat × Nat)) : indexId id table index =
    if id = 0 ∨ 63 < id ∨ (index.any (·.1 == id)) = true then index else index ++ [(id, table)] := by
  unfold indexId
  congr 1
  simp only [Bool.or_eq_true, decide_eq_true_eq, or_assoc]

theorem startUpStep_wheelIds {t tables : Nat} (h : s.store.startUp = some (.wheelIds t tables)) :
    startUpStep bytes s = readTableId (t + 1) tables (withIndex (number bytes) t s) := by
  simp [startUpStep, h, withIndex]

theorem startUpStep_userHeader (h : s.store.startUp = some .userHeader) :
    startUpStep bytes s = userHeaderRead bytes s := by simp [startUpStep, h]

theorem userHeaderRead_goes_on {u : StoreSection} (hu : s.store.userArea = some u)
    (hn : number ((bytes.drop 2).take 2) ≤ 1023) :
    userHeaderRead bytes s = startUpWith
      (.userRecords (number ((bytes.drop 2).take 2)) (number (bytes.drop 4)) (bytes.take 2 == [0x55, 0x57]))
      (.straightRead (u.base + 8) (number ((bytes.drop 2).take 2) * 8)) s := by
  simp only [userHeaderRead, if_neg (Nat.not_lt.2 hn), hu]

theorem userHeaderRead_discards (hn : 1023 < number ((bytes.drop 2).take 2)) :
    userHeaderRead bytes s = endPresent (withoutList s) := by
  simp only [userHeaderRead, if_pos hn, discardList_eq]

theorem startUpStep_userRecords {n check : Nat} {magic : Bool} (h : s.store.startUp = some (.userRecords n check magic)) :
    startUpStep bytes s = userRecordsRead check magic bytes s := by simp [startUpStep, h]

end StartUpSteps

/-! ### The start-up ends (R3) -/

/-- The Store Interface after the end of a start-up in a state, when nothing waits for it. -/
theorem endStep_enterStore (state : StoreState) {s : State} (hw : s.store.wheelRequest = none)
    (hq : s.spelling.queue = []) (hqs : s.spelling.queries = []) :
    (endStep (enterStore state s)).store = { s.store with
        state := state, startUp := none, link := (endStep (enterStore state s)).store.link }
      ∧ (endStep (enterStore state s)).link = s.link.notice (Notice.storeState (byte state.code) s.store.flags.byte)
      ∧ (endStep (enterStore state s)).spelling.userWords = s.spelling.userWords
      ∧ changesOnly [.console, .link, .line, .spelling, .store, .display, .tones, .holdTimer]
          s (endStep (enterStore state s)) := by
  have hin : changesOnly [.store] s (storeIn state s) := setStore_frame s _
  rw [enterStore_idle state hw hq hqs]
  refine ⟨endStep_store _, endStep_link _, endStep_userWords _, ?_⟩
  exact ((hin.mono (by decide)).trans ((storeNotice_frame _).mono (by decide))).trans
    ((endStep_frame _).mono (by decide))

/-- With no line held and no save in progress the link is free after the end of a start-up. -/
theorem endStep_enterStore_link (state : StoreState) {s : State} (hw : s.store.wheelRequest = none)
    (hv : s.store.save = none) (hq : s.spelling.queue = []) (hqs : s.spelling.queries = [])
    (hh : s.line.holder = none) : (endStep (enterStore state s)).store.link = none := by
  rw [enterStore_idle state hw hq hqs]
  exact endStep_link_free rfl hw hv hq hqs hh

/-- R12: the end of the start-up that loads or discards the user word list. -/
theorem endStep_userRecordsRead (check : Nat) (magic : Bool) (bytes : List Byte) {s : State}
    (hw : s.store.wheelRequest = none) (hq : s.spelling.queue = []) (hqs : s.spelling.queries = []) :
    let t := endStep (userRecordsRead check magic bytes s)
    t.store.state = .present ∧ t.store.startUp = none
      ∧ (listFits check magic bytes = true → t.spelling.userWords = (userRecords bytes).take s.partition.userWords
        ∧ t.store.flags = (withList (userRecords bytes) s).store.flags)
      ∧ (¬ listFits check magic bytes = true → t.spelling.userWords = [] ∧ t.store.flags = (withoutList s).store.flags)
      ∧ t.link = s.link.notice (Notice.storeState 1 t.store.flags.byte) := by
  by_cases hf : listFits check magic bytes = true
  · rw [userRecordsRead_of_fits _ hf, endPresent]
    have ⟨hst, hlink, huser, _⟩ := endStep_enterStore .present (s := withList (userRecords bytes) s) hw hq hqs
    dsimp only
    rw [hlink, huser, hst]
    exact ⟨rfl, rfl, fun _ => ⟨rfl, rfl⟩, fun h => absurd hf h, rfl⟩
  · rw [userRecordsRead_of_not_fits _ hf, endPresent]
    have ⟨hst, hlink, huser, _⟩ := endStep_enterStore .present (s := withoutList s) hw hq hqs
    dsimp only
    rw [hlink, huser, hst]
    exact ⟨rfl, rfl, fun h => absurd h hf, fun _ => ⟨rfl, rfl⟩, rfl⟩

/-! ### Saves (R14) -/

/-- The state with a save ended and the flags of a bad list cleared (R14). -/
def saveEnded (s : State) : State :=
  { s with store := { s.store with
      save := none, flags := { s.store.flags with discarded := false, truncated := false } } }

theorem saveStepDone_last {s : State} {v : Save} {op : StoreOp} (hv : s.store.save = some v) (hs : v.steps = [op]) :
    saveStepDone s = (saveEnded s).notice v.issuer (Notice.saveDone 0) := by
  simp [saveStepDone, hv, hs, saveEnded]

/-- R14: the step that ends a save tells the issuer. -/
theorem endStep_saveEnded (p : Port) (s : State) :
    let t := endStep ((saveEnded s).notice p (Notice.saveDone 0))
    t.store = { (saveEnded s).store with link := t.store.link }
      ∧ t.spelling.userWords = s.spelling.userWords
      ∧ (p = .link → t.link = s.link.notice (Notice.saveDone 0))
      ∧ (p = .console → s.line.phase ≠ .checking → t.console = s.console.notice (Notice.saveDone 0))
      ∧ changesOnly [.console, .link, .line, .spelling, .store, .display, .tones, .holdTimer] s t := by
  have hdone : changesOnly [.console, .link, .store] s ((saveEnded s).notice p (Notice.saveDone 0)) :=
    ((setStore_frame s _).mono (by decide)).trans ((State.notice_frame _ p _).mono (by cases p <;> decide))
  refine ⟨?_, ?_, fun hp => ?_, fun hp hc => ?_, (hdone.mono (by decide)).trans ((endStep_frame _).mono (by decide))⟩
  · rw [endStep_store, State.notice_store]
  · rw [endStep_userWords, State.notice_spelling]; rfl
  · rw [endStep_link, hp]; rfl
  · refine ((endStep_unheld ?_).same .console).trans ?_
    · rw [State.notice_line]; exact hc
    · rw [hp]; rfl

theorem saveStepDone_next {s : State} {v : Save} {op next : StoreOp} {more : List StoreOp} (hv : s.store.save = some v)
    (hs : v.steps = op :: next :: more) :
    saveStepDone s = { s with store := { s.store with save := some { v with steps := next :: more } } } := by
  simp [saveStepDone, hv, hs]

/-! ### The end of an operation (R1) -/

section Completions

variable {x : LinkOp} {bytes : List Byte} {s : State}

theorem exec_storeOpComplete_startUp (hl : s.store.link = some x) (ho : x.owner = .startUp) (hb : bytes.length = x.op.answer) :
    exec (.storeOpComplete bytes) s = .next (endStep (startUpStep bytes (unlinked s))) := by
  show Host.Outcome.next (storeOpDone bytes s) = _
  simp [storeOpDone, hl, ho, hb, unlinked]

theorem exec_storeOpComplete_save (hl : s.store.link = some x) (ho : x.owner = .save) (hb : bytes.length = x.op.answer) :
    exec (.storeOpComplete bytes) s = .next (endStep (saveStepDone (unlinked s))) := by
  show Host.Outcome.next (storeOpDone bytes s) = _
  simp [storeOpDone, hl, ho, hb, unlinked]

theorem exec_storeOpComplete_free (hl : s.store.link = none) : exec (.storeOpComplete bytes) s = .next s := by
  show Host.Outcome.next (storeOpDone bytes s) = _
  simp [storeOpDone, hl]

theorem exec_storeOpComplete_wrong_count (hl : s.store.link = some x) (hb : bytes.length ≠ x.op.answer) :
    exec (.storeOpComplete bytes) s = .next s := by
  show Host.Outcome.next (storeOpDone bytes s) = _
  simp [storeOpDone, hl, hb]

theorem exec_busyLimitExpiry_polling {n : Nat} (hl : s.store.link = some x) (hn : x.limit = some n) :
    exec .busyLimitExpiry s = .next (endStep (storeFault s)) := by
  have hp : s.store.polling = true := by simp [Store.polling, hl, hn]
  exact congrArg Host.Outcome.next (if_pos hp)

theorem exec_busyLimitExpiry_idle (hp : s.store.polling = false) : exec .busyLimitExpiry s = .next s := by
  show Host.Outcome.next (busyExpiry s) = _
  simp [busyExpiry, hp]

end Completions

end Sys2Proof.Machine

/-! SUPPORT. The operations of the Store Interface together (O58). -/

namespace Sys2Proof.Machine

/-- Settles O58: each completion is its step of the start-up or the save on the freed link, followed by the end of the step,
and an expiry of the busy limit is the fault of the store. -/
theorem storeOperationsGoOn : Obligations.StoreOperationsGoOn := by
  unfold Obligations.StoreOperationsGoOn
  refine ⟨?resetPair, ?rejected, ?saveEnds, fun bytes s => exec_storeOpComplete_free,
    fun x bytes s => exec_storeOpComplete_wrong_count, ?fault, fun s => exec_busyLimitExpiry_idle, ?startUpGoesOn,
    ?userRecords, ?examined, ?saveGoesOn, headerCount_eq_some_iff, overlapFree_iff, ?saveFails, ?startUpEnds⟩
  case resetPair =>
    intro x s hl ho hop hs
    refine ⟨_, exec_storeOpComplete_startUp hl ho (by rw [hop]; rfl), ?_⟩
    rw [startUpStep_resetPair (s := unlinked s) hs]
    refine ⟨endStep_startUpWith_store _ _ _, eventFrame_of_store ?_ (.of_eq (arbitrate_idle (.inl rfl)))⟩
    exact (setStore_frame s _).trans (startUpWith_frame _ _ _)
  case rejected =>
    intro x bytes s hl ho hop hs hb hn hw hq hqs
    refine ⟨_, exec_storeOpComplete_startUp hl ho (by rw [hop]; exact hb), ?_⟩
    rw [startUpStep_readHeader_rejected (s := unlinked s) hs hn]
    have ⟨_, hlink, huser, hframe⟩ := endStep_enterStore .absent (s := unlinked s) hw hq hqs
    refine ⟨?_, hlink, ((setStore_frame s _).mono (by decide)).trans hframe, huser⟩
    rw [enterStore_idle .absent (s := unlinked s) hw hq hqs]
    exact endStep_store_idle (.inr (show StoreState.absent ≠ .present by decide))
  case saveEnds =>
    intro x v op s hl ho hop ha hv hs
    refine ⟨_, exec_storeOpComplete_save hl ho (by rw [hop, ha]; rfl), ?_⟩
    rw [saveStepDone_last (s := unlinked s) hv hs]
    have ⟨hst, huser, hlink, hconsole, hframe⟩ := endStep_saveEnded v.issuer (unlinked s)
    exact ⟨congrArg Store.save hst, (congrArg Store.flags hst :), (congrArg Store.state hst :), huser, hlink, hconsole,
      ((setStore_frame s _).mono (by decide)).trans hframe⟩
  case fault =>
    intro x n s hl hn
    refine ⟨_, exec_busyLimitExpiry_polling hl hn, ?_⟩
    rw [endStep_storeFault_store, endStep_storeFault_spelling]
    refine ⟨rfl, rfl, rfl, rfl, rfl, lexiconLost_userWords _, lexiconLost_queue _, fun he => ?_,
      ((storeFault_parts s).mono (by decide)).trans ((endStep_frame _).mono (by decide))⟩
    rw [endStep_link]
    exact storeState_mem_storeFault he
  case startUpGoesOn =>
    intro x bytes s hl ho hb
    refine ⟨_, exec_storeOpComplete_startUp hl ho hb, fun hs => ?_, fun hs => ?_, fun n hs hn => ?_,
      fun y u hs hy hu hfree => ?_, fun e y hs h1 h32 hlen => ?_, fun i n w hs hw hi => ?_, fun u hs hu hn => ?_⟩
    · rw [startUpStep_recovery (s := unlinked s) hs, endStep_startUpWith_store]; rfl
    · rw [startUpStep_setWrap (s := unlinked s) hs, endStep_startUpWith_store]; rfl
    · rw [startUpStep_readHeader_passed (s := unlinked s) hs hn, endStep_startUpWith_store]; rfl
    · have hset : y.wheelSet = none := (examine_none_done hy).1
      have hkept : y.userArea.filter (overlapFree · y) = some u := by simp [hu, hfree]
      rw [startUpStep_readEntries (s := unlinked s) hs hy,
        startUsers_of_userArea (s := withSections y (unlinked s)) hkept, endStep_startUpWith_store]
      simp only [withSections, hset, hkept]
      rfl
    · rw [startUpStep_wheelHeader (s := unlinked s) hs h1 h32 hlen, endStep_startUpWith_store]
      exact ⟨rfl, rfl, rfl, rfl, rfl, rfl⟩
    · rw [startUpStep_wheelIds (s := unlinked s) hs,
        readTableId_goes_on (s := withIndex (number bytes) i (unlinked s)) hw hi, endStep_startUpWith_store]
      simp only [withIndex, indexId_eq]
      rfl
    · rw [startUpStep_userHeader (s := unlinked s) hs, userHeaderRead_goes_on (s := unlinked s) hu hn,
        endStep_startUpWith_store]
      rfl
  case userRecords =>
    intro x n check magic bytes s hl ho hb hs hw hq hqs
    refine ⟨_, exec_storeOpComplete_startUp hl ho hb, ?_⟩
    rw [startUpStep_userRecords (s := unlinked s) hs, ← listFits_iff]
    exact endStep_userRecordsRead check magic bytes (s := unlinked s) hw hq hqs
  case examined => exact fun entries y => examine_none_done
  case saveGoesOn =>
    intro x v op next more s hl ho hop ha hv hs hp hw
    refine ⟨_, exec_storeOpComplete_save hl ho (by rw [hop, ha]; rfl), ?_⟩
    rw [saveStepDone_next (s := unlinked s) hv hs]
    refine ⟨endStep_store_save (op := next) rfl hp hw rfl rfl, eventFrame_of_store ?_ (arbitrate_frame_of_save rfl)⟩
    exact setStore_frame s _
  case saveFails =>
    intro x n v s hl hn hv
    refine ⟨_, exec_busyLimitExpiry_polling hl hn, by rw [endStep_storeFault_store], fun he => ?_⟩
    exact mem_endStep (saveDone_mem_storeFault hv he) (show (0xB1 : Byte) ≠ 0xA4 by decide)
  case startUpEnds =>
    intro x bytes s hl ho hb hw hv hq hqs
    refine ⟨_, exec_storeOpComplete_startUp hl ho hb, fun hs hn => ?_, fun y hs hy hno => ?_,
      fun i n hs hn => ⟨fun hu => ?_, fun u hu => ?_⟩⟩
    · rw [startUpStep_userHeader (s := unlinked s) hs, userHeaderRead_discards hn]
      have ⟨hst, hlink, huser, _⟩ := endStep_enterStore .present (s := withoutList (unlinked s)) hw hq hqs
      have hfree := endStep_enterStore_link .present (s := withoutList (unlinked s)) hw hv hq hqs
      refine ⟨hst, huser, hlink.trans ?_, hfree⟩
      rw [show (endStep (endPresent (withoutList (unlinked s)))).store = _ from hst]; rfl
    · have hset : y.wheelSet = none := (examine_none_done hy).1
      have hkept : y.userArea.filter (overlapFree · y) = none := by
        cases hu : y.userArea with
        | none => rfl
        | some u => simp [hno u hu]
      rw [startUpStep_readEntries (s := unlinked s) hs hy,
        startUsers_of_none (s := withSections y (unlinked s)) hkept]
      have ⟨hst, hlink, huser, _⟩ := endStep_enterStore .present (s := withSections y (unlinked s)) hw hq hqs
      have hfree := endStep_enterStore_link .present (s := withSections y (unlinked s)) hw hv hq hqs
      refine ⟨hst.trans ?_, huser, hlink.trans ?_, hfree⟩
      · simp only [withSections, hset, hkept]; rfl
      · rw [show (endStep (endPresent (withSections y (unlinked s)))).store = _ from hst]; rfl
    · rw [startUpStep_wheelIds (s := unlinked s) hs, readTableId_ends (.inr hn),
        startUsers_of_none (s := withIndex (number bytes) i (unlinked s)) hu]
      have ⟨hst, _, _, _⟩ :=
        endStep_enterStore .present (s := withIndex (number bytes) i (unlinked s)) hw hq hqs
      have hfree := endStep_enterStore_link .present (s := withIndex (number bytes) i (unlinked s)) hw hv hq hqs
      exact ⟨congrArg Store.state hst, congrArg Store.startUp hst, (congrArg Store.flags hst :), hfree⟩
    · rw [startUpStep_wheelIds (s := unlinked s) hs, readTableId_ends (.inr hn),
        startUsers_of_userArea (s := withIndex (number bytes) i (unlinked s)) hu, endStep_startUpWith_store]
      exact ⟨rfl, rfl⟩

end Sys2Proof.Machine

/-! SUPPORT. The tick part by part (log entry 1): what each part does while its count runs, when none of its counts runs,
and at the end of its only count. -/

namespace Sys2Proof.Machine

/-! ### Counts -/

theorem countDown_runs {n : Nat} (h : 1 < n) (more : Nat → State) (last : State) :
    countDown n more last = more (n - 1) := if_neg (by omega)

theorem running_eq_nil {c : Instr} {o : Option Nat} : running c o = [] ↔ o = none := by
  cases o <;> simp [running]

theorem running_eq_singleton {c d : Instr} {o : Option Nat} {n : Nat} :
    running c o = [(d, n)] ↔ d = c ∧ o = some n := by
  cases o <;> simp [running, eq_comm]

theorem forall_running {c : Instr} {o : Option Nat} {P : Instr × Nat → Prop} :
    (∀ x ∈ running c o, P x) ↔ ∀ n, o = some n → P (c, n) := by
  cases o <;> simp [running]

/-- The counts of the Await requests (R43). -/
def awaitCounts (s : State) : List (Instr × Nat) :=
  s.composer.awaits.zipIdx.flatMap fun r => running (.awaitTimeout r.2) r.1.timeout

/-- The limits of the mechanism and of the store (R15, R70 to R72, R79, R117). -/
def limitCounts (s : State) : List (Instr × Nat) :=
  running .wheelLimitExpiry (s.engine.wheelMove.map (·.limit))
    ++ (running .carrierLimitExpiry (s.engine.carrierMove.map (·.limit))
    ++ (running .hammerLimitExpiry s.engine.hammer.left
    ++ (running .tapeLimitExpiry s.engine.tapeGuide.left
    ++ (running .homingLimitExpiry s.engine.homingLimit
    ++ running .busyLimitExpiry (s.store.link.bind (·.limit))))))

/-- Every count but the blink phase's. -/
def laterCounts (s : State) : List (Instr × Nat) :=
  running .toneEnd (s.tones.sounding.map (·.remaining))
    ++ (running .overlayExpiry (s.display.overlay.bind fun o => if o.remaining = 0 then none else some o.remaining)
    ++ (running .restTimerExpiry s.restTimer
    ++ (running .holdLimitExpiry s.holdTimer
    ++ (awaitCounts s
    ++ (running (.gapTimerExpiry .console) s.console.gap
    ++ (running (.gapTimerExpiry .link) s.link.gap
    ++ limitCounts s))))))

theorem counts_eq (s : State) : counts s = (.blinkToggle, s.display.blinkTicks) :: laterCounts s := by
  simp only [counts, laterCounts, limitCounts, awaitCounts, List.cons_append, List.append_assoc]

/-- The tick of the limits. -/
def tickLimits (s : State) : State :=
  tickBusy (tickHoming (tickTape (tickHammer (tickCarrier (tickWheel s)))))

/-- The tick of all but the blink phase. -/
def tickLater (s : State) : State :=
  tickLimits (tickGap .link (tickGap .console (tickAwaits (tickHold (tickRest (tickOverlay (tickTone s)))))))

theorem tick_eq (s : State) : tick s = tickLater (tickBlink s) := rfl

/-! ### One taken from each count

What a tick does to a count that runs and is not at its end; a count that does not run stays. -/

def lessBlink (s : State) : State :=
  { s with display := { s.display with blinkTicks := s.display.blinkTicks - 1 } }

def lessTone (s : State) : State :=
  { s with tones := { s.tones with sounding := s.tones.sounding.map fun x => { x with remaining := x.remaining - 1 } } }

def lessOverlay (s : State) : State :=
  { s with display := { s.display with
      overlay := s.display.overlay.map fun o => { o with remaining := o.remaining - 1 } } }

def lessRest (s : State) : State := { s with restTimer := s.restTimer.map (· - 1) }

def lessHold (s : State) : State := { s with holdTimer := s.holdTimer.map (· - 1) }

def lessAwaits (s : State) : State :=
  { s with composer := { s.composer with
      awaits := s.composer.awaits.map fun r => { r with timeout := r.timeout.map (· - 1) } } }

def lessGap (p : Port) (s : State) : State := s.setPort p { s.port p with gap := (s.port p).gap.map (· - 1) }

def lessWheel (s : State) : State :=
  { s with engine := { s.engine with wheelMove := s.engine.wheelMove.map fun w => { w with limit := w.limit - 1 } } }

def lessCarrier (s : State) : State :=
  { s with engine := { s.engine with carrierMove := s.engine.carrierMove.map fun c => { c with limit := c.limit - 1 } } }

def Hammer.less : Hammer → Hammer
  | .returning n => .returning (n - 1)
  | .idle => .idle
  | .pulse e => .pulse e

def TapeGuide.less : TapeGuide → TapeGuide
  | .rising n => .rising (n - 1)
  | .down => .down
  | .up => .up

theorem Hammer.less_of_left_none {h : Hammer} (hn : h.left = none) : h.less = h := by
  cases h with
  | idle => rfl
  | pulse e => rfl
  | returning n => simp [Hammer.left] at hn

theorem TapeGuide.less_of_left_none {g : TapeGuide} (hn : g.left = none) : g.less = g := by
  cases g with
  | down => rfl
  | up => rfl
  | rising n => simp [TapeGuide.left] at hn

theorem Hammer.left_eq_some {h : Hammer} {n : Nat} : h.left = some n ↔ h = .returning n := by
  cases h <;> simp [Hammer.left]

theorem TapeGuide.left_eq_some {g : TapeGuide} {n : Nat} : g.left = some n ↔ g = .rising n := by
  cases g <;> simp [TapeGuide.left]

def lessHammer (s : State) : State := { s with engine := { s.engine with hammer := s.engine.hammer.less } }

def lessTape (s : State) : State := { s with engine := { s.engine with tapeGuide := s.engine.tapeGuide.less } }

def lessHoming (s : State) : State :=
  { s with engine := { s.engine with homingLimit := s.engine.homingLimit.map (· - 1) } }

def lessBusy (s : State) : State :=
  { s with store := { s.store with link := s.store.link.map fun x => { x with limit := x.limit.map (· - 1) } } }

/-- A part of the tick with one count that may run: without the count it does nothing; it takes one from the count, and at
the end of the count it does what the expiry does. -/
structure CountsDown (run less expiry : State → State) (count : State → Option Nat) : Prop where
  idle : ∀ s, count s = none → run s = s ∧ less s = s
  runs : ∀ s n, count s = some n → 1 < n → run s = less s
  ends : ∀ s, count s = some 1 → run s = expiry s

theorem CountsDown.eq_less {run less expiry : State → State} {count : State → Option Nat}
    (h : CountsDown run less expiry count) {s : State} (hs : ∀ n, count s = some n → 1 < n) : run s = less s := by
  cases hn : count s with
  | none => exact (h.idle s hn).1.trans (h.idle s hn).2.symm
  | some n => exact h.runs s n hn (hs n hn)

theorem tickTone_countsDown : CountsDown tickTone lessTone toneEnd (fun s => s.tones.sounding.map (·.remaining)) where
  idle s h := by
    have hx : s.tones.sounding = none := by simpa using h
    exact ⟨by simp [tickTone, hx], by unfold lessTone; rw [hx, Option.map_none, ← hx]⟩
  runs s n h hn := by
    obtain ⟨x, hx, rfl⟩ := Option.map_eq_some_iff.1 h
    simp [tickTone, lessTone, hx, countDown_runs hn]
  ends s h := by
    obtain ⟨x, hx, h1⟩ := Option.map_eq_some_iff.1 h
    simp [tickTone, hx, h1, countDown]

/-- What is left of a timed overlay (R163). -/
def overlayLeft (s : State) : Option Nat :=
  s.display.overlay.bind fun o => if o.remaining = 0 then none else some o.remaining

theorem overlayLeft_eq_some {s : State} {n : Nat} (h : overlayLeft s = some n) :
    ∃ o, s.display.overlay = some o ∧ o.remaining = n ∧ o.remaining ≠ 0 := by
  obtain ⟨o, ho, hn⟩ := Option.bind_eq_some_iff.1 h
  split at hn
  · contradiction
  · exact ⟨o, ho, Option.some.inj hn, ‹_›⟩

theorem lessOverlay_of_untimed {s : State} {o : Overlay} (hx : s.display.overlay = some o) (h0 : o.remaining = 0) :
    lessOverlay s = s := by
  have hsame : { o with remaining := o.remaining - 1 } = o :=
    congrArg (fun n => { o with remaining := n }) (show o.remaining - 1 = o.remaining by rw [h0])
  unfold lessOverlay
  rw [hx, Option.map_some, hsame, ← hx]

theorem tickOverlay_countsDown : CountsDown tickOverlay lessOverlay overlayEnd overlayLeft where
  idle s h := by
    cases hx : s.display.overlay with
    | none => exact ⟨by simp [tickOverlay, hx], by unfold lessOverlay; rw [hx, Option.map_none, ← hx]⟩
    | some o =>
      have h0 : o.remaining = 0 := by simpa [overlayLeft, hx] using h
      exact ⟨by simp [tickOverlay, hx, h0], lessOverlay_of_untimed hx h0⟩
  runs s n h hn := by
    obtain ⟨o, hx, rfl, h0⟩ := overlayLeft_eq_some h
    simp [tickOverlay, lessOverlay, hx, h0, countDown_runs hn]
  ends s h := by
    obtain ⟨o, hx, h1, -⟩ := overlayLeft_eq_some h
    simp [tickOverlay, hx, h1, countDown]

theorem tickRest_countsDown : CountsDown tickRest lessRest restExpiry (fun s => s.restTimer) where
  idle s h := ⟨by simp [tickRest, countTimer, h], by unfold lessRest; rw [h, Option.map_none, ← h]⟩
  runs s n h hn := by simp [tickRest, lessRest, countTimer, h, countDown_runs hn]
  ends s h := by simp [tickRest, countTimer, h, countDown]

theorem tickHold_countsDown : CountsDown tickHold lessHold holdExpiry (fun s => s.holdTimer) where
  idle s h := ⟨by simp [tickHold, countTimer, h], by unfold lessHold; rw [h, Option.map_none, ← h]⟩
  runs s n h hn := by simp [tickHold, lessHold, countTimer, h, countDown_runs hn]
  ends s h := by simp [tickHold, countTimer, h, countDown]

theorem tickGap_countsDown (p : Port) :
    CountsDown (tickGap p) (lessGap p) (gapExpiry p) (fun s => (s.port p).gap) where
  idle s h := by
    refine ⟨by simp [tickGap, countTimer, h], ?_⟩
    unfold lessGap
    rw [h, Option.map_none, ← h]
    exact s.setPort_self p
  runs s n h hn := by simp [tickGap, lessGap, countTimer, h, countDown_runs hn]
  ends s h := by simp [tickGap, countTimer, h, countDown]

theorem tickWheel_countsDown : CountsDown tickWheel lessWheel wheelExpiry (fun s => s.engine.wheelMove.map (·.limit)) where
  idle s h := by
    have hx : s.engine.wheelMove = none := by simpa using h
    exact ⟨by simp [tickWheel, hx], by unfold lessWheel; rw [hx, Option.map_none, ← hx]⟩
  runs s n h hn := by
    obtain ⟨x, hx, rfl⟩ := Option.map_eq_some_iff.1 h
    simp [tickWheel, lessWheel, hx, countDown_runs hn]
  ends s h := by
    obtain ⟨x, hx, h1⟩ := Option.map_eq_some_iff.1 h
    simp [tickWheel, hx, h1, countDown]

theorem tickCarrier_countsDown : CountsDown tickCarrier lessCarrier carrierExpiry (fun s => s.engine.carrierMove.map (·.limit)) where
  idle s h := by
    have hx : s.engine.carrierMove = none := by simpa using h
    exact ⟨by simp [tickCarrier, hx], by unfold lessCarrier; rw [hx, Option.map_none, ← hx]⟩
  runs s n h hn := by
    obtain ⟨x, hx, rfl⟩ := Option.map_eq_some_iff.1 h
    simp [tickCarrier, lessCarrier, hx, countDown_runs hn]
  ends s h := by
    obtain ⟨x, hx, h1⟩ := Option.map_eq_some_iff.1 h
    simp [tickCarrier, hx, h1, countDown]

theorem tickHammer_countsDown :
    CountsDown tickHammer lessHammer hammerExpiry (fun s => s.engine.hammer.left) where
  idle s h := by
    refine ⟨?_, by unfold lessHammer; rw [Hammer.less_of_left_none h]⟩
    unfold tickHammer
    split
    · rename_i hx; simp [hx, Hammer.left] at h
    · rfl
    · rfl
  runs s n h hn := by simp [tickHammer, lessHammer, Hammer.left_eq_some.1 h, Hammer.less, countDown_runs hn]
  ends s h := by simp [tickHammer, Hammer.left_eq_some.1 h, countDown]

theorem tickTape_countsDown :
    CountsDown tickTape lessTape tapeExpiry (fun s => s.engine.tapeGuide.left) where
  idle s h := by
    refine ⟨?_, by unfold lessTape; rw [TapeGuide.less_of_left_none h]⟩
    unfold tickTape
    split
    · rename_i hx; simp [hx, TapeGuide.left] at h
    · rfl
    · rfl
  runs s n h hn := by simp [tickTape, lessTape, TapeGuide.left_eq_some.1 h, TapeGuide.less, countDown_runs hn]
  ends s h := by simp [tickTape, TapeGuide.left_eq_some.1 h, countDown]

theorem tickHoming_countsDown : CountsDown tickHoming lessHoming homingExpiry (fun s => s.engine.homingLimit) where
  idle s h := ⟨by simp [tickHoming, countTimer, h], by unfold lessHoming; rw [h, Option.map_none, ← h]⟩
  runs s n h hn := by simp [tickHoming, lessHoming, countTimer, h, countDown_runs hn]
  ends s h := by simp [tickHoming, countTimer, h, countDown]

theorem tickBusy_countsDown :
    CountsDown tickBusy lessBusy busyExpiry (fun s => s.store.link.bind (·.limit)) where
  idle s h := by
    unfold tickBusy lessBusy
    cases hx : s.store.link with
    | none => exact ⟨rfl, by rw [Option.map_none, ← hx]⟩
    | some x =>
      have hn : x.limit = none := by simpa [hx] using h
      have hsame : { x with limit := x.limit.map (· - 1) } = x := by rw [hn, Option.map_none, ← hn]
      exact ⟨by simp [hn, countTimer], by rw [Option.map_some, hsame, ← hx]⟩
  runs s n h hn := by
    obtain ⟨x, hx, hl⟩ := Option.bind_eq_some_iff.1 h
    simp [tickBusy, lessBusy, hx, hl, countTimer, countDown_runs hn]
  ends s h := by
    obtain ⟨x, hx, hl⟩ := Option.bind_eq_some_iff.1 h
    simp [tickBusy, hx, hl, countTimer, countDown]

/-! ### The parts of the tick together -/

/-- A part of the tick with the counts it takes from. With none running it does nothing; with none at its end it takes one
from each; with a single count, at its end, it does what the command of that count does. -/
structure TickPart (run less : State → State) (cs : State → List (Instr × Nat)) : Prop where
  idle : ∀ s, cs s = [] → run s = s
  runs : ∀ s, (∀ x ∈ cs s, 1 < x.2) → run s = less s
  ends : ∀ s c, cs s = [(c, 1)] → upToDate s → s.store.save = none → exec c s = .next (run s)

theorem CountsDown.tickPart {run less expiry : State → State} {count : State → Option Nat} {c : Instr}
    (h : CountsDown run less expiry count) (hc : ∀ s, exec c s = .next (expiry s)) :
    TickPart run less (fun s => running c (count s)) where
  idle s hs := (h.idle s (running_eq_nil.1 hs)).1
  runs s hs := h.eq_less fun n hn => forall_running.1 hs n hn
  ends s d hs _ _ := by
    obtain ⟨rfl, hn⟩ := running_eq_singleton.1 hs
    rw [hc, h.ends s hn]

/-- Two parts one after the other: what the first takes or does must leave the counts of the second as they are, where none
of these is at its end, or none runs. -/
theorem TickPart.before {run run' less less' : State → State} {cs cs' : State → List (Instr × Nat)}
    (h : TickPart run less cs) (h' : TickPart run' less' cs') (hless : ∀ s, cs' (less s) = cs' s)
    (hends : ∀ s c, cs s = [(c, 1)] → upToDate s → s.store.save = none → cs' s = [] → cs' (run s) = []) :
    TickPart (fun s => run' (run s)) (fun s => less' (less s)) (fun s => cs s ++ cs' s) where
  idle s hs := by
    obtain ⟨h1, h2⟩ := List.append_eq_nil_iff.1 hs
    rw [h.idle s h1, h'.idle s h2]
  runs s hs := by
    obtain ⟨h1, h2⟩ := List.forall_mem_append.1 hs
    rw [h.runs s h1, h'.runs (less s) (by rw [hless]; exact h2)]
  ends s c hs hu hv := by
    rcases List.append_eq_singleton_iff.1 hs with ⟨h1, h2⟩ | ⟨h1, h2⟩
    · rw [h.idle s h1, h'.ends s c h2 hu hv]
    · rw [h'.idle (run s) (hends s c h1 hu hv h2), h.ends s c h1 hu hv]

/-! ### The Await requests (R43, R45) -/

def AwaitRequest.less (r : AwaitRequest) : AwaitRequest := { r with timeout := r.timeout.map (· - 1) }

def AwaitRequest.ended (r : AwaitRequest) : Bool := r.timeout == some 0

theorem tickAwaits_eq (s : State) : tickAwaits s
    = ((s.composer.awaits.map (·.less)).filter (·.ended)).foldl (fun t r => keysNotice r 1 t)
      { s with composer := { s.composer with awaits := (s.composer.awaits.map (·.less)).filter (!·.ended) } } := rfl

theorem AwaitRequest.less_ended {r : AwaitRequest} (h : ∀ n, r.timeout = some n → 1 < n) : r.less.ended = false := by
  refine beq_false_of_ne fun h0 => ?_
  obtain ⟨n, hn, h1⟩ := Option.map_eq_some_iff.1 h0
  have := h n hn
  omega

theorem AwaitRequest.less_of_untimed {r : AwaitRequest} (h : r.timeout = none) : r.less = r := by
  unfold AwaitRequest.less; rw [h, Option.map_none, ← h]

theorem map_less_of_untimed {l : List AwaitRequest} (h : ∀ r ∈ l, r.timeout = none) : l.map (·.less) = l :=
  (List.map_congr_left fun r hr => AwaitRequest.less_of_untimed (h r hr)).trans (List.map_id _)

theorem AwaitRequest.ended_of_untimed {r : AwaitRequest} (h : r.timeout = none) : r.ended = false := by
  simp [AwaitRequest.ended, h]

theorem filter_ended_eq_nil {l : List AwaitRequest} (h : ∀ r ∈ l, r.ended = false) : l.filter (·.ended) = [] :=
  List.filter_eq_nil_iff.2 fun r hr => by simp [h r hr]

theorem filter_not_ended_eq_self {l : List AwaitRequest} (h : ∀ r ∈ l, r.ended = false) : l.filter (!·.ended) = l :=
  List.filter_eq_self.2 fun r hr => by simp [h r hr]

/-- The counts of a list of requests whose first has this place. -/
def awaitCountsFrom (k : Nat) (l : List AwaitRequest) : List (Instr × Nat) :=
  (l.zipIdx k).flatMap fun r => running (.awaitTimeout r.2) r.1.timeout

theorem awaitCountsFrom_cons (k : Nat) (r : AwaitRequest) (l : List AwaitRequest) :
    awaitCountsFrom k (r :: l) = running (.awaitTimeout k) r.timeout ++ awaitCountsFrom (k + 1) l := by
  simp [awaitCountsFrom, List.zipIdx_cons]

theorem forall_awaitCountsFrom {P : Nat → Prop} (k : Nat) (l : List AwaitRequest) :
    (∀ x ∈ awaitCountsFrom k l, P x.2) ↔ ∀ r ∈ l, ∀ n, r.timeout = some n → P n := by
  induction l generalizing k with
  | nil => simp [awaitCountsFrom]
  | cons r l ih => rw [awaitCountsFrom_cons, List.forall_mem_append, forall_running, ih, List.forall_mem_cons]

theorem awaitCountsFrom_eq_nil (k : Nat) (l : List AwaitRequest) :
    awaitCountsFrom k l = [] ↔ ∀ r ∈ l, r.timeout = none := by
  induction l generalizing k with
  | nil => simp [awaitCountsFrom]
  | cons r l ih => rw [awaitCountsFrom_cons, List.append_eq_nil_iff, running_eq_nil, ih, List.forall_mem_cons]

/-- A single count at its end is that of one request among untimed ones. -/
theorem awaitCountsFrom_eq_singleton {k n : Nat} {l : List AwaitRequest} {c : Instr}
    (h : awaitCountsFrom k l = [(c, n)]) : ∃ older r newer, l = older ++ r :: newer
      ∧ c = .awaitTimeout (k + older.length) ∧ r.timeout = some n
      ∧ (∀ x ∈ older, x.timeout = none) ∧ (∀ x ∈ newer, x.timeout = none) := by
  induction l generalizing k with
  | nil => simp [awaitCountsFrom] at h
  | cons r l ih =>
    rw [awaitCountsFrom_cons] at h
    rcases List.append_eq_singleton_iff.1 h with ⟨hr, hl⟩ | ⟨hr, hl⟩
    · obtain ⟨older, x, newer, rfl, rfl, hx, ho, hn⟩ := ih hl
      refine ⟨r :: older, x, newer, rfl, ?_, hx, List.forall_mem_cons.2 ⟨running_eq_nil.1 hr, ho⟩, hn⟩
      rw [List.length_cons]
      congr 1; omega
    · obtain ⟨rfl, hx⟩ := running_eq_singleton.1 hr
      exact ⟨[], r, l, rfl, rfl, hx, by simp, (awaitCountsFrom_eq_nil _ _).1 hl⟩

/-- R45: at the end of the only timeout the request leaves the list and Keys Collected goes to the link. -/
theorem tickAwaits_ends {s : State} {older newer : List AwaitRequest} {r : AwaitRequest}
    (hl : s.composer.awaits = older ++ r :: newer) (hr : r.timeout = some 1) (ho : ∀ x ∈ older, x.timeout = none)
    (hn : ∀ x ∈ newer, x.timeout = none) : tickAwaits s = completeAwait older.length r 1 s := by
  have hend : r.less.ended = true := by simp [AwaitRequest.less, AwaitRequest.ended, hr]
  have hgone : (older ++ r :: newer).eraseIdx older.length = older ++ newer := by
    rw [List.eraseIdx_append_of_length_le (Nat.le_refl _)]; simp
  have ho' := fun x hx => AwaitRequest.ended_of_untimed (ho x hx)
  have hn' := fun x hx => AwaitRequest.ended_of_untimed (hn x hx)
  rw [tickAwaits_eq, completeAwait, hl, hgone]
  simp only [List.map_append, List.map_cons, map_less_of_untimed ho, map_less_of_untimed hn, List.filter_append,
    List.filter_cons, hend, filter_ended_eq_nil ho', filter_ended_eq_nil hn', filter_not_ended_eq_self ho',
    filter_not_ended_eq_self hn']
  rfl

/-- An end of a step that finds the image and the hold limit timer as they should be changes nothing. -/
theorem finish_of_upToDate {s : State} (h : upToDate s) : finish s = s := by
  obtain ⟨hd, hh⟩ := h
  unfold finish
  rw [hh]
  unfold refresh
  rw [hd]

theorem completeAwait_upToDate {s : State} (place : Nat) (r : AwaitRequest) (cause : Nat) (h : upToDate s) :
    upToDate (completeAwait place r cause s) := h

theorem tickAwaits_part : TickPart tickAwaits lessAwaits awaitCounts where
  idle s hs := by
    have hu := (awaitCountsFrom_eq_nil 0 s.composer.awaits).1 hs
    have hended := fun r hr => AwaitRequest.ended_of_untimed (hu r hr)
    rw [tickAwaits_eq, map_less_of_untimed hu, filter_ended_eq_nil hended, filter_not_ended_eq_self hended]
    rfl
  runs s hs := by
    have hrun := (forall_awaitCountsFrom 0 s.composer.awaits).1 hs
    have hended : ∀ r ∈ s.composer.awaits.map (·.less), r.ended = false := by
      intro r hr
      obtain ⟨r, hm, rfl⟩ := List.mem_map.1 hr
      exact AwaitRequest.less_ended (hrun r hm)
    rw [tickAwaits_eq, filter_ended_eq_nil hended, filter_not_ended_eq_self hended]
    rfl
  ends s c hs hu _ := by
    obtain ⟨older, r, newer, hl, rfl, hr, ho, hn⟩ := awaitCountsFrom_eq_singleton (k := 0) hs
    rw [tickAwaits_ends hl hr ho hn, Nat.zero_add]
    have hat : s.composer.awaits[older.length]? = some r := by rw [hl]; simp
    have hx : awaitExpiry older.length s = finish (completeAwait older.length r 1 s) := by
      simp [awaitExpiry, hat, hr]
    exact congrArg Host.Outcome.next (hx.trans (finish_of_upToDate (completeAwait_upToDate _ _ _ hu)))

/-! ### The limits (R15, R70 to R72, R79, R117) -/

/-- R16: with no save in progress a grant puts an operation without polls on the link. -/
theorem endStep_busyLimit {s : State} (hv : s.store.save = none) (hl : s.store.link.bind (·.limit) = none) :
    (endStep s).store.link.bind (·.limit) = none := by
  have hw (op : StoreOp) (h : (settleSpelling s).store.wheelOp = some op) : op.limit = none := by
    unfold Store.wheelOp at h
    split at h
    · obtain ⟨t, -, rfl⟩ := Option.map_eq_some_iff.1 h; rfl
    · contradiction
  have hk (op : StoreOp) (h : lookupOp (settleSpelling s) = some op) : op.limit = none := by
    unfold lookupOp at h
    split at h
    · split at h
      · obtain rfl := Option.some.inj h; rfl
      · contradiction
    · contradiction
  have hs : (settleSpelling s).store.saveOp = none := by simp [Store.saveOp, hv]
  rw [endStep_store_eq]
  unfold arbitrate
  split
  · split
    · rename_i h; exact hw _ h
    · rename_i h; rw [hs] at h; contradiction
    · rename_i h; exact hk _ h
    · simpa using hl
  · simpa using hl

/-- R89: at Fault every motion has stopped. -/
theorem enterFault_engine (cause : FaultCause) (s : State) : (enterFault cause s).engine = { s.engine with
    queue := [], state := .fault, homing := none, homingLimit := none, wheelMove := none, carrierMove := none
    hammer := .idle, tapeGuide := .down, platenMove := none, tally := .clear } := by
  have hline (u : State) : (if u.line.holder == some .console && u.line.mode == .direct then
      setPosition u.format.left (discardLine u) else u).engine = u.engine := by
    split
    · exact ((setPosition_frame _ _).same .engine).trans ((discardLine_frame u).same .engine)
    · rfl
  have haway (u : State) : (if u.lift.away then { restore u with lift := { (restore u).lift with
      away := false, target := none, point := none, owed := false } } else u).engine = u.engine := by
    split
    · exact (restore_frame u).same .engine
    · rfl
  have hjobs (jobs : List Job) (u : State) : (jobs.foldl (fun t j => reportFaulted j t) u).engine = u.engine :=
    (changesOnly.foldl (parts := [.console, .link, .spelling]) _ (fun t j => reportFaulted_frame j t) jobs u).same .engine
  exact (haway _).trans ((hline _).trans (congrArg (fun e : Engine => { e with tally := .clear }) (hjobs _ _)))

/-- Nothing of the mechanism is under a limit after a Fault, and the store only if it was. -/
theorem limitCounts_after_fault (cause : FaultCause) {s : State} (hv : s.store.save = none)
    (hl : s.store.link.bind (·.limit) = none) : limitCounts (endStep (enterFault cause s)) = [] := by
  have he : (endStep (enterFault cause s)).engine = (enterFault cause s).engine := (endStep_frame _).same .engine
  have hst : (enterFault cause s).store = s.store := (enterFault_frame cause s).same .store
  have hb := endStep_busyLimit (s := enterFault cause s) (by rw [hst]; exact hv) (by rw [hst]; exact hl)
  simp [limitCounts, he, enterFault_engine, hb, running_eq_nil, Hammer.left, TapeGuide.left]

theorem tickBusy_part : TickPart tickBusy lessBusy
    (fun s => running .busyLimitExpiry (s.store.link.bind (·.limit))) :=
  tickBusy_countsDown.tickPart fun _ => rfl

/-- R89: a limit of the mechanism before the limits that stand behind it in the tick, the store's among them. -/
theorem CountsDown.beforeLimits {run less expiry run' less' : State → State} {count : State → Option Nat} {c : Instr}
    {cs' : State → List (Instr × Nat)} (cause : FaultCause) (h : CountsDown run less expiry count)
    (hc : ∀ s, exec c s = .next (expiry s))
    (hx : ∀ s n, count s = some n → expiry s = endStep (enterFault cause s)) (h' : TickPart run' less' cs')
    (hless : ∀ s, cs' (less s) = cs' s) (hsome : ∀ s, limitCounts s = [] → cs' s = [])
    (hbusy : ∀ s, cs' s = [] → s.store.link.bind (·.limit) = none) :
    TickPart (fun s => run' (run s)) (fun s => less' (less s)) (fun s => running c (count s) ++ cs' s) := by
  refine (h.tickPart hc).before h' hless fun s d hs _ hv hs' => ?_
  have hn := (running_eq_singleton.1 hs).2
  rw [h.ends s hn, hx s 1 hn]
  exact hsome _ (limitCounts_after_fault cause hv (hbusy s hs'))

def lessLimits (s : State) : State :=
  lessBusy (lessHoming (lessTape (lessHammer (lessCarrier (lessWheel s)))))

theorem tickLimits_part : TickPart tickLimits lessLimits limitCounts := by
  have hhoming := tickHoming_countsDown.beforeLimits (c := .homingLimitExpiry) .homing (fun _ => rfl)
    (fun s n h => if_pos (Option.isSome_of_eq_some h)) tickBusy_part (fun _ => rfl)
    (by simp +contextual [limitCounts]) (by simp [running_eq_nil])
  have htape := tickTape_countsDown.beforeLimits (c := .tapeLimitExpiry) .carrier (fun _ => rfl)
    (fun s n h => if_pos (by rw [TapeGuide.left_eq_some.1 h]; rfl)) hhoming (fun _ => rfl)
    (by simp +contextual [limitCounts]) (by simp [running_eq_nil])
  have hhammer := tickHammer_countsDown.beforeLimits (c := .hammerLimitExpiry) .carrier (fun _ => rfl)
    (fun s n h => if_pos (by rw [Hammer.left_eq_some.1 h]; rfl)) htape (fun _ => rfl)
    (by simp +contextual [limitCounts]) (by simp [running_eq_nil])
  have hcarrier := tickCarrier_countsDown.beforeLimits (c := .carrierLimitExpiry) .carrier (fun _ => rfl)
    (fun s n h => if_pos (by simpa using Option.isSome_of_eq_some h)) hhammer (fun _ => rfl)
    (by simp +contextual [limitCounts]) (by simp [running_eq_nil])
  have hwheel := tickWheel_countsDown.beforeLimits (c := .wheelLimitExpiry) .wheel (fun _ => rfl)
    (fun s n h => if_pos (by simpa using Option.isSome_of_eq_some h)) hcarrier (fun _ => rfl)
    (by simp +contextual [limitCounts]) (by simp [running_eq_nil])
  exact hwheel

theorem limitCounts_congr {s t : State} (he : t.engine = s.engine) (hs : t.store = s.store) :
    limitCounts t = limitCounts s := by
  unfold limitCounts; rw [he, hs]

/-! ### The gap timers (R173) -/

theorem gapExpiry_frame (p : Port) (s : State) : changesOnly [.ofPort p, .display, .holdTimer] s (gapExpiry p s) := by
  unfold gapExpiry; split
  · exact (refuseBlock_frame _ _ _ _).then (finish_frame _) (by simp) (by simp)
  · exact .refl _ _

/-- The gap timers and the limits. -/
def gapCounts (s : State) : List (Instr × Nat) :=
  running (.gapTimerExpiry .console) s.console.gap ++ (running (.gapTimerExpiry .link) s.link.gap ++ limitCounts s)

theorem tickGaps_part : TickPart (fun s => tickLimits (tickGap .link (tickGap .console s)))
    (fun s => lessLimits (lessGap .link (lessGap .console s))) gapCounts := by
  have hlink : TickPart (fun s => tickLimits (tickGap .link s)) (fun s => lessLimits (lessGap .link s))
      (fun s => running (.gapTimerExpiry .link) s.link.gap ++ limitCounts s) := by
    refine ((tickGap_countsDown .link).tickPart fun _ => rfl).before tickLimits_part (fun _ => rfl)
      fun s c hs _ _ hl => ?_
    have hf := gapExpiry_frame .link s
    rw [(tickGap_countsDown .link).ends s (running_eq_singleton.1 hs).2,
      limitCounts_congr (hf.same .engine) (hf.same .store), hl]
  refine ((tickGap_countsDown .console).tickPart fun _ => rfl).before hlink (fun _ => rfl) fun s c hs _ _ hl => ?_
  have hf := gapExpiry_frame .console s
  have he : (gapExpiry .console s).link = s.link := hf.same .link
  rw [(tickGap_countsDown .console).ends s (running_eq_singleton.1 hs).2, he,
    limitCounts_congr (hf.same .engine) (hf.same .store), hl]

/-! ### The hold limit (R27, R28) and the Await requests -/

theorem State.notice_gap (s : State) (p q : Port) (b : Block) : ((s.notice p b).port q).gap = (s.port q).gap := by
  rcases Port.eq_or_eq_other q p with rfl | rfl
  · rw [State.notice_port, PortState.notice_gap]
  · rw [State.notice_port_other]

theorem gapCounts_congr {s t : State} (hg : ∀ q, (t.port q).gap = (s.port q).gap)
    (hl : limitCounts t = limitCounts s) : gapCounts t = gapCounts s := by
  have hc : t.console.gap = s.console.gap := hg .console
  have hk : t.link.gap = s.link.gap := hg .link
  unfold gapCounts; rw [hc, hk, hl]

/-- The Await requests' timeouts, the gap timers and the limits. -/
def awaitOnCounts (s : State) : List (Instr × Nat) := awaitCounts s ++ gapCounts s

theorem tickAwaitOn_part :
    TickPart (fun s => tickLimits (tickGap .link (tickGap .console (tickAwaits s))))
      (fun s => lessLimits (lessGap .link (lessGap .console (lessAwaits s)))) awaitOnCounts := by
  refine tickAwaits_part.before tickGaps_part (fun _ => rfl) fun s c hs _ _ hl => ?_
  obtain ⟨older, r, newer, ha, -, hr, ho, hn⟩ := awaitCountsFrom_eq_singleton (k := 0) hs
  rw [tickAwaits_ends ha hr ho hn, ← hl]
  exact gapCounts_congr (fun q => (State.notice_gap _ .link q _).trans (by cases q <;> rfl)) rfl

theorem forceEnd_gap (p q : Port) (s : State) : ((forceEnd p s).port q).gap = (s.port q).gap := by
  have hf := lineEndSpelling_frame false { s with line := { s.line with endCause := some .forced } }
  refine (State.notice_gap _ p q _).trans ?_
  cases q
  · exact congrArg PortState.gap (hf.same .console)
  · exact congrArg PortState.gap (hf.same .link)

theorem forceEnd_phase (p : Port) (s : State) : (forceEnd p s).line.phase = .waiting := by
  unfold forceEnd; rw [State.notice_line]

/-- R28: the forced end starts no count. -/
theorem awaitOnCounts_forceEnd (p : Port) {s : State} (hv : s.store.save = none) (h : awaitOnCounts s = []) :
    awaitOnCounts (endStep (forceEnd p s)) = [] := by
  have hf := forceEnd_frame p s
  have he := endStep_unheld (s := forceEnd p s) (by rw [forceEnd_phase]; decide)
  have hst : (forceEnd p s).store = s.store := hf.same .store (by cases p <;> decide)
  have hcomposer : (endStep (forceEnd p s)).composer = s.composer :=
    (he.same .composer).trans (hf.same .composer (by cases p <;> decide))
  have hengine : (endStep (forceEnd p s)).engine = s.engine :=
    (he.same .engine).trans (hf.same .engine (by cases p <;> decide))
  have hgap (q : Port) : ((endStep (forceEnd p s)).port q).gap = (s.port q).gap := by
    refine Eq.trans ?_ (forceEnd_gap p q s)
    cases q
    · exact congrArg PortState.gap (he.same .console)
    · exact congrArg PortState.gap (he.same .link)
  simp only [awaitOnCounts, gapCounts, limitCounts, List.append_eq_nil_iff, running_eq_nil] at h ⊢
  obtain ⟨hawait, hconsole, hlink, hwheel, hcarrier, hhammer, htape, hhoming, hbusy⟩ := h
  rw [hengine]
  refine ⟨?_, (hgap .console).trans hconsole, (hgap .link).trans hlink, hwheel, hcarrier, hhammer, htape, hhoming,
    endStep_busyLimit (by rw [hst]; exact hv) (by rw [hst]; exact hbusy)⟩
  unfold awaitCounts; rw [hcomposer]; exact hawait

/-- The hold limit, the Await requests' timeouts, the gap timers and the limits. -/
def holdOnCounts (s : State) : List (Instr × Nat) := running .holdLimitExpiry s.holdTimer ++ awaitOnCounts s

theorem tickHoldOn_part :
    TickPart (fun s => tickLimits (tickGap .link (tickGap .console (tickAwaits (tickHold s)))))
      (fun s => lessLimits (lessGap .link (lessGap .console (lessAwaits (lessHold s))))) holdOnCounts := by
  refine (tickHold_countsDown.tickPart fun _ => rfl).before tickAwaitOn_part (fun _ => rfl) fun s c hs _ hv hl => ?_
  rw [tickHold_countsDown.ends s (running_eq_singleton.1 hs).2]
  unfold holdExpiry
  split
  · exact awaitOnCounts_forceEnd _ (s := { s with holdTimer := none }) hv hl
  · exact hl

/-! ### The tone, the overlay and the Rest timer (R83, R163, R166) -/

/-- A step's end that finds the hold limit timer as it should be starts no count. -/
theorem holdOnCounts_finish {s u : State} (hu : upToDate s) (hh : holdNow u = holdNow s)
    (ha : awaitOnCounts u = awaitOnCounts s) : holdOnCounts (finish u) = holdOnCounts s := by
  show running .holdLimitExpiry (holdNow u) ++ awaitOnCounts u = _
  rw [hh, ha, hu.2, holdOnCounts]

theorem tickRestOn_part :
    TickPart (fun s => tickLimits (tickGap .link (tickGap .console (tickAwaits (tickHold (tickRest s))))))
      (fun s => lessLimits (lessGap .link (lessGap .console (lessAwaits (lessHold (lessRest s))))))
      (fun s => running .restTimerExpiry s.restTimer ++ holdOnCounts s) := by
  refine (tickRest_countsDown.tickPart fun _ => rfl).before tickHoldOn_part (fun _ => rfl) fun s c hs hu _ hl => ?_
  rw [tickRest_countsDown.ends s (running_eq_singleton.1 hs).2, ← hl]
  unfold restExpiry
  split
  · exact holdOnCounts_finish hu rfl rfl
  · rfl

theorem tickOverlayOn_part :
    TickPart (fun s => tickLimits (tickGap .link (tickGap .console (tickAwaits (tickHold (tickRest (tickOverlay s)))))))
      (fun s => lessLimits (lessGap .link (lessGap .console (lessAwaits (lessHold (lessRest (lessOverlay s)))))))
      (fun s => running .overlayExpiry (overlayLeft s) ++ (running .restTimerExpiry s.restTimer ++ holdOnCounts s)) := by
  refine (tickOverlay_countsDown.tickPart fun _ => rfl).before tickRestOn_part (fun _ => rfl) fun s c hs hu _ hl => ?_
  rw [tickOverlay_countsDown.ends s (running_eq_singleton.1 hs).2, ← hl]
  unfold overlayEnd
  split
  · split
    · exact congrArg (running .restTimerExpiry s.restTimer ++ ·) (holdOnCounts_finish hu rfl rfl)
    · rfl
  · rfl

def lessLater (s : State) : State :=
  lessLimits (lessGap .link (lessGap .console (lessAwaits (lessHold (lessRest (lessOverlay (lessTone s)))))))

theorem tickLater_part : TickPart tickLater lessLater laterCounts := by
  refine (tickTone_countsDown.tickPart fun _ => rfl).before tickOverlayOn_part (fun _ => rfl) fun s c hs _ _ hl => ?_
  rw [tickTone_countsDown.ends s (running_eq_singleton.1 hs).2]
  exact hl

/-! ### The blink phase (R157) -/

/-- A recomposition finds nothing to do exactly when the image, the window and the column stand as they should. -/
theorem displayNow_eq_iff (s : State) : displayNow s = s.display ↔ imageNow s = s.display.image
    ∧ columnNow s = s.display.column ∧ adjustWindow s.display.window (displaySource s).cursor = s.display.window := by
  have hchange (d : Display) : d.change.image = d.image := by unfold Display.change; split <;> rfl
  unfold displayNow
  dsimp only
  constructor
  · intro h
    split at h
    · rename_i himg
      exact ⟨himg, congrArg Display.column h, congrArg Display.window h⟩
    · rename_i himg
      exact absurd ((hchange _).symm.trans (congrArg Display.image h)) himg
  · rintro ⟨himg, hcolumn, hwindow⟩
    rw [if_pos himg, himg, hcolumn, hwindow]

theorem lessBlink_upToDate {s : State} (h : upToDate s) : upToDate (lessBlink s) :=
  ⟨(displayNow_eq_iff (lessBlink s)).2 ((displayNow_eq_iff s).1 h.1), h.2⟩

theorem Display.toggle_overlay (d : Display) : d.toggle.overlay = d.overlay := by
  unfold Display.toggle Display.change
  dsimp only
  split
  · split <;> rfl
  · rfl

theorem laterCounts_blinkToggle (s : State) : laterCounts (blinkToggle s) = laterCounts s := by
  have h : overlayLeft (blinkToggle s) = overlayLeft s := by
    show (s.display.toggle.overlay.bind _) = _
    rw [Display.toggle_overlay]; rfl
  show _ ++ (running .overlayExpiry (overlayLeft (blinkToggle s)) ++ _) = _
  rw [h]; rfl

theorem step_idle {s : State} (h : s.pending = []) : step s = .next (tick s) := by simp [step, h]

/-- Settles O3: the blink phase is counted first, and what follows it is one `TickPart` whose counts the blink phase leaves
alone. -/
theorem stepTicksWhenIdle : Obligations.StepTicksWhenIdle := by
  unfold Obligations.StepTicksWhenIdle
  refine ⟨fun s hp h => ?runs, fun s hp h => ?blinkEnds, fun c n s hp h hn hu hv => ?countEnds⟩
  case runs =>
    rw [counts_eq, List.forall_mem_cons] at h
    have hb : tickBlink s = lessBlink s := countDown_runs h.1 _ _
    rw [step_idle hp, tick_eq, hb, tickLater_part.runs (lessBlink s) h.2]
    obtain ⟨_, _, _, _, _, _, ⟨⟩, engine, _, _, _, _, ⟨⟩, _, _, _, _⟩ := s
    obtain ⟨_, _, _, _, _, _, _, _, _, _, _, _, _, _, _, _, hammer, tapeGuide, _⟩ := engine
    cases hammer <;> cases tapeGuide <;> rfl
  case blinkEnds =>
    rw [counts_eq, List.cons.injEq, Prod.mk.injEq] at h
    obtain ⟨⟨-, h1⟩, hl⟩ := h
    have hb : tickBlink s = blinkToggle s := by unfold tickBlink; rw [h1]; rfl
    rw [step_idle hp, tick_eq, hb, tickLater_part.idle _ (by rw [laterCounts_blinkToggle, hl])]
    rfl
  case countEnds =>
    rw [counts_eq, List.cons.injEq, Prod.mk.injEq] at h
    obtain ⟨⟨-, rfl⟩, hl⟩ := h
    have hb : tickBlink s = lessBlink s := countDown_runs hn _ _
    rw [step_idle hp, tick_eq, hb]
    exact (tickLater_part.ends (lessBlink s) c hl (lessBlink_upToDate hu) hv).symm

end Sys2Proof.Machine

/-! SUPPORT. What a step comes to: a block handed to the owner of its command, an event, or the parts of a tick; and how an
invariant is kept by all of them. -/

namespace Sys2Proof.Machine

/-! ### A command as a block or as an event -/

/-- What a row that is no command block does. -/
def eventOf : Instr → State → State
  | .powerOn => powerUp
  | .resetLine => releaseResetLine
  | .portReset p => resetPort p
  | .dataWrite p b => writeByte p b
  | .dataRead p => fun s => s.setPort p (s.port p).read
  | .statusRead p => fun s => s.setPort p (s.port p).readStatus
  | .gapTimerExpiry p => gapExpiry p
  | .composeStroke => composeStep
  | .lineConversion => convertStep
  | .jobStart => jobStep
  | .wheelSettled => wheelSettled
  | .carrierArrived => carrierArrived
  | .hammerPulseEnd => hammerPulseEnd
  | .hammerReturned => hammerReturned
  | .tapeRaised => tapeRaised
  | .platenStopped => platenStopped
  | .homeReached => homeReached
  | .indexFound hub => indexFound hub
  | .wheelLimitExpiry => wheelExpiry
  | .carrierLimitExpiry => carrierExpiry
  | .hammerLimitExpiry => hammerExpiry
  | .tapeLimitExpiry => tapeExpiry
  | .homingLimitExpiry => homingExpiry
  | .restTimerExpiry => restExpiry
  | .holdLimitExpiry => holdExpiry
  | .awaitTimeout place => awaitExpiry place
  | .storeOpComplete bytes => storeOpDone bytes
  | .busyLimitExpiry => busyExpiry
  | .blinkToggle => blinkToggle
  | .overlayExpiry => overlayEnd
  | .toneEnd => toneEnd
  | .frameTransferEnd => fun s => { s with display := s.display.transferEnd }
  | .resetInputRelease p => releaseResetInput p
  | _ => id

/-- R174: a command block is offered to its port for its owner. -/
theorem exec_block {c : Instr} {f : State → State × Reply} (h : ownerOf c = some f) (s : State) :
    ∃ p code count, exec c s = .next (offer p code count f s) := by
  cases c <;> cases h <;> exact ⟨_, _, _, rfl⟩

theorem exec_event {c : Instr} (h : ownerOf c = none) (s : State) : exec c s = .next (eventOf c s) := by
  cases c <;> cases h <;> rfl

/-! ### An invariant of the line, the ring, the pending requests and the hold limit timer -/

/-- The parts that the invariants of the working line's family read are as they were. -/
def quietly (s t : State) : Prop :=
  t.line = s.line ∧ t.composer = s.composer ∧ t.lift = s.lift ∧ t.holdTimer.isSome = s.holdTimer.isSome
    ∧ t.link.queue = s.link.queue

theorem quietly.refl (s : State) : quietly s s := ⟨rfl, rfl, rfl, rfl, rfl⟩

/-- A frame without the parts that are read. -/
theorem quietly.of_frame {parts : List Part} {s t : State} (h : changesOnly parts s t)
    (hl : .line ∉ parts := by decide) (hc : .composer ∉ parts := by decide) (hf : .lift ∉ parts := by decide)
    (ht : .holdTimer ∉ parts := by decide) (hp : .link ∉ parts := by decide) : quietly s t := by
  have e : t.holdTimer = s.holdTimer := h .holdTimer ht
  have k : t.link = s.link := h .link hp
  exact ⟨h .line hl, h .composer hc, h .lift hf, by rw [e], by rw [k]⟩

/-- A port whose queue is as it was. -/
theorem quietly.setPort {s : State} {p : Port} {v : PortState} (h : v.queue = (s.port p).queue) :
    quietly s (s.setPort p v) := by
  cases p
  · exact ⟨rfl, rfl, rfl, rfl, rfl⟩
  · exact ⟨rfl, rfl, rfl, rfl, h⟩

/-! ### The parts of a tick -/

theorem countDown_keeps {P : State → Prop} {n : Nat} {more : Nat → State} {last : State} (hm : ∀ k, P (more k))
    (hl : P last) : P (countDown n more last) := by
  unfold countDown; split
  · exact hl
  · exact hm _

theorem countTimer_keeps {P : State → Prop} {timer : Option Nat} {more : Nat → State} {last s : State}
    (hs : P s) (hm : ∀ n, timer = some n → ∀ k, P (more k)) (hl : P last) : P (countTimer timer more last s) := by
  unfold countTimer; split
  · exact countDown_keeps (hm _ rfl) hl
  · exact hs

section
variable {P : State → Prop} (quiet : ∀ s t, quietly s t → P s → P t) (event : ∀ c s, P s → P (eventOf c s))
include quiet event

/-- A tick keeps what its counts do not touch and its expiries keep. -/
theorem tick_keeps (awaits : ∀ s, P s → P (tickAwaits s)) (s : State) (h : P s) : P (tick s) := by
  have hq {s t : State} (h : P s) (k : quietly s t) : P t := quiet s t k h
  have blink (s) (h : P s) : P (tickBlink s) :=
    countDown_keeps (fun _ => hq h ⟨rfl, rfl, rfl, rfl, rfl⟩) (event .blinkToggle s h)
  have tone (s) (h : P s) : P (tickTone s) := by
    unfold tickTone; split
    · exact countDown_keeps (fun _ => hq h ⟨rfl, rfl, rfl, rfl, rfl⟩) (event .toneEnd s h)
    · exact h
  have overlay (s) (h : P s) : P (tickOverlay s) := by
    unfold tickOverlay; split
    · split
      · exact h
      · exact countDown_keeps (fun _ => hq h ⟨rfl, rfl, rfl, rfl, rfl⟩) (event .overlayExpiry s h)
    · exact h
  have rest (s) (h : P s) : P (tickRest s) :=
    countTimer_keeps h (fun _ _ _ => hq h ⟨rfl, rfl, rfl, rfl, rfl⟩) (event .restTimerExpiry s h)
  have hold (s) (h : P s) : P (tickHold s) :=
    countTimer_keeps h (fun _ hn _ => hq h ⟨rfl, rfl, rfl, by simp [hn], rfl⟩) (event .holdLimitExpiry s h)
  have gap (p s) (h : P s) : P (tickGap p s) :=
    countTimer_keeps h (fun _ _ _ => hq h (.setPort rfl)) (event (.gapTimerExpiry p) s h)
  have wheel (s) (h : P s) : P (tickWheel s) := by
    unfold tickWheel; split
    · exact countDown_keeps (fun _ => hq h ⟨rfl, rfl, rfl, rfl, rfl⟩) (event .wheelLimitExpiry s h)
    · exact h
  have carrier (s) (h : P s) : P (tickCarrier s) := by
    unfold tickCarrier; split
    · exact countDown_keeps (fun _ => hq h ⟨rfl, rfl, rfl, rfl, rfl⟩) (event .carrierLimitExpiry s h)
    · exact h
  have hammer (s) (h : P s) : P (tickHammer s) := by
    unfold tickHammer; split
    · exact countDown_keeps (fun _ => hq h ⟨rfl, rfl, rfl, rfl, rfl⟩) (event .hammerLimitExpiry s h)
    · exact h
    · exact h
  have tape (s) (h : P s) : P (tickTape s) := by
    unfold tickTape; split
    · exact countDown_keeps (fun _ => hq h ⟨rfl, rfl, rfl, rfl, rfl⟩) (event .tapeLimitExpiry s h)
    · exact h
    · exact h
  have homing (s) (h : P s) : P (tickHoming s) :=
    countTimer_keeps h (fun _ _ _ => hq h ⟨rfl, rfl, rfl, rfl, rfl⟩) (event .homingLimitExpiry s h)
  have busy (s) (h : P s) : P (tickBusy s) := by
    unfold tickBusy; split
    · exact countTimer_keeps h (fun _ _ _ => hq h ⟨rfl, rfl, rfl, rfl, rfl⟩) (event .busyLimitExpiry s h)
    · exact h
  exact busy _ (homing _ (tape _ (hammer _ (carrier _ (wheel _ (gap _ _ (gap _ _ (awaits _ (hold _ (rest _ (overlay _
    (tone _ (blink _ h)))))))))))))

/-- A step keeps what every block, every event and the timeouts of a tick keep. -/
theorem step_keeps (awaits : ∀ s, P s → P (tickAwaits s))
    (block : ∀ c f p code count s, ownerOf c = some f → P s → P (offer p code count f s)) (s t : State) (h : P s)
    (hs : step s = .next t) : P t := by
  unfold step at hs
  split at hs
  · rename_i c rest _
    have h' : P { s with pending := rest } := quiet s _ ⟨rfl, rfl, rfl, rfl, rfl⟩ h
    cases hc : ownerOf c with
    | none => rw [exec_event hc] at hs; cases hs; exact event c _ h'
    | some f =>
      obtain ⟨p, code, count, e⟩ := exec_block hc { s with pending := rest }
      rw [e] at hs; cases hs; exact block c f p code count _ hc h'
  · cases hs; exact tick_keeps quiet event awaits s h

end

/-! ### The end of a step, and of a block -/

/-- A block that is offered leaves the state, marks the port Overrun, or ends with `finish`: it is refused by the port, or
its owner has acted on the state with the command in hand. -/
theorem offer_keeps {P : State → Prop} {p : Port} {code : Byte} {count : Nat} {f : State → State × Reply} {s : State}
    (h : P s) (lost : P (loseByte p s)) (refused : ∀ st, P (finish (refuseBlock p code st s)))
    (checked : ∀ st, P (finish ((taken p s).reply p code (.plain st))))
    (owned : P (finish ((f (taken p s)).1.reply p code (f (taken p s)).2))) : P (offer p code count f s) := by
  unfold offer; split
  · exact h
  · split
    · exact lost
    · split
      · exact refused _
      · unfold takeBlock; dsimp only; split
        · exact checked _
        · exact owned

/-! ### The hold limit timer (R27) -/

theorem holdNow_isSome (s : State) : (holdNow s).isSome = holdRuns s := by
  unfold holdNow; split
  · rename_i h; rw [h]; split <;> rfl
  · rename_i h; simpa using h

/-- R27: at the end of a step the timer runs exactly while its conditions hold. -/
theorem finish_holdInv (s : State) : holdInv (finish s) := holdNow_isSome s

theorem endStep_holdInv (s : State) : holdInv (endStep s) := finish_holdInv _

theorem holdInv.quietly {s t : State} (k : quietly s t) (h : holdInv s) : holdInv t := by
  obtain ⟨hl, hc, hf, ht, -⟩ := k
  have e : holdRuns t = holdRuns s := by unfold holdRuns; rw [hl, hc, hf]
  unfold holdInv; rw [ht, e]; exact h

theorem loseByte_quietly (p : Port) (s : State) : quietly s (loseByte p s) := .setPort rfl

theorem takeBlock_holdInv (p : Port) (code : Byte) (count : Nat) (f : State → State × Reply) (s : State) :
    holdInv (takeBlock p code count f s) := by
  unfold takeBlock; dsimp only; split <;> exact finish_holdInv _

theorem writeByte_holdInv (p : Port) (b : Byte) {s : State} (h : holdInv s) : holdInv (writeByte p b s) := by
  have ha (bytes : List Byte) : holdInv (assemble p bytes s) := h.quietly (.setPort rfl)
  unfold writeByte takeByte; split
  · exact h
  · split
    · exact h.quietly (loseByte_quietly p s)
    · split
      · split
        · exact finish_holdInv _
        · split
          · exact ha _
          · split
            · exact takeBlock_holdInv _ _ _ _ _
            · exact finish_holdInv _
      · exact ha _

/-- A read of a port changes that port only. -/
theorem setPort_holdInv (p : Port) (v : PortState) {s : State} (h : holdInv s) : holdInv (s.setPort p v) := by
  cases p <;> exact h

theorem tickAwaits_holdInv {s : State} (h : holdInv s) : holdInv (tickAwaits s) := by
  have hn : ∀ (l : List AwaitRequest) (t : State), holdInv t → holdInv (l.foldl (fun t r => keysNotice r 1 t) t) := by
    intro l
    induction l with
    | nil => exact fun _ ht => ht
    | cons r l ih => exact fun t ht => ih _ (setPort_holdInv .link _ ht)
  exact hn _ _ h

theorem hammerPulseEnd_quietly (s : State) : quietly s (hammerPulseEnd s) := by
  unfold hammerPulseEnd; split <;> exact ⟨rfl, rfl, rfl, rfl, rfl⟩

theorem tapeRaised_quietly (s : State) : quietly s (tapeRaised s) := by
  unfold tapeRaised; split <;> exact ⟨rfl, rfl, rfl, rfl, rfl⟩

theorem homeReached_quietly (s : State) : quietly s (homeReached s) := by
  unfold homeReached; split
  · split <;> exact ⟨rfl, rfl, rfl, rfl, rfl⟩
  · exact .refl s

/-- R27: an event ends with `finish`, or touches neither the timer nor what its conditions read. -/
theorem eventOf_holdInv (c : Instr) {s : State} (h : holdInv s) : holdInv (eventOf c s) := by
  have fault (b : Bool) (cause : FaultCause) : holdInv (faultWhen b cause s) := by
    unfold faultWhen; split
    · exact endStep_holdInv _
    · exact h
  cases c with
  | powerOn => rfl
  | resetLine => rfl
  | portReset p => exact endStep_holdInv _
  | dataWrite p b => exact writeByte_holdInv p b h
  | dataRead p => exact setPort_holdInv p _ h
  | statusRead p => exact setPort_holdInv p _ h
  | resetInputRelease p => exact setPort_holdInv p _ h
  | gapTimerExpiry p =>
    show holdInv (gapExpiry p s); unfold gapExpiry; split
    · exact finish_holdInv _
    · exact h
  | composeStroke =>
    show holdInv (composeStep s); unfold composeStep; split
    · split
      · exact endStep_holdInv _
      · exact h
    · exact h
  | lineConversion =>
    show holdInv (convertStep s); unfold convertStep; split
    · exact endStep_holdInv _
    · exact h
  | jobStart => exact endStep_holdInv _
  | wheelSettled =>
    show holdInv (wheelSettled s); unfold wheelSettled; split
    · exact endStep_holdInv _
    · exact h
  | carrierArrived =>
    show holdInv (carrierArrived s); unfold carrierArrived; split
    · exact endStep_holdInv _
    · exact h
  | hammerPulseEnd => exact h.quietly (hammerPulseEnd_quietly s)
  | hammerReturned =>
    show holdInv (hammerReturned s); unfold hammerReturned; split
    · exact endStep_holdInv _
    · exact h
    · exact h
  | tapeRaised => exact h.quietly (tapeRaised_quietly s)
  | platenStopped =>
    show holdInv (platenStopped s); unfold platenStopped; split
    · exact endStep_holdInv _
    · exact endStep_holdInv _
    · exact h
  | homeReached => exact h.quietly (homeReached_quietly s)
  | indexFound hub =>
    show holdInv (indexFound hub s); unfold indexFound; split
    · split
      · exact endStep_holdInv _
      · exact h
    · exact h
  | wheelLimitExpiry => exact fault _ _
  | carrierLimitExpiry => exact fault _ _
  | hammerLimitExpiry => exact fault _ _
  | tapeLimitExpiry => exact fault _ _
  | homingLimitExpiry => exact fault _ _
  | restTimerExpiry =>
    show holdInv (restExpiry s); unfold restExpiry; split
    · exact finish_holdInv _
    · exact h
  | holdLimitExpiry =>
    show holdInv (holdExpiry s); unfold holdExpiry; split
    · exact endStep_holdInv _
    · exact h
  | awaitTimeout place =>
    show holdInv (awaitExpiry place s); unfold awaitExpiry; split
    · split
      · exact finish_holdInv _
      · exact h
    · exact h
  | storeOpComplete bytes =>
    show holdInv (storeOpDone bytes s); unfold storeOpDone; split
    · exact h
    · split
      · exact endStep_holdInv _
      · exact h
  | busyLimitExpiry =>
    show holdInv (busyExpiry s); unfold busyExpiry; split
    · exact endStep_holdInv _
    · exact h
  | overlayExpiry =>
    show holdInv (overlayEnd s); unfold overlayEnd; split
    · split
      · exact finish_holdInv _
      · exact h
    · exact h
  | _ => exact h

/-- Settles O13: a block or an event that acts ends with `finish`, which sets the timer by its conditions; what is left reads
neither. -/
theorem stepKeepsHoldTimer : Obligations.StepKeepsHoldTimer := by
  unfold Obligations.StepKeepsHoldTimer
  exact step_keeps (P := holdInv) (fun _ _ k h => h.quietly k) (fun c _ h => eventOf_holdInv c h)
    (fun _ h => tickAwaits_holdInv h) fun _ _ p _ _ s _ h =>
      offer_keeps h (h.quietly (loseByte_quietly p s)) (fun _ => finish_holdInv _) (fun _ => finish_holdInv _)
        (finish_holdInv _)

end Sys2Proof.Machine

/-! SUPPORT. What the Spelling Unit leaves of the working line: all but its word list and the fragment joined to it. -/

namespace Sys2Proof.Machine

/-- The line is as it was but for its word list and the fragment joined to it. -/
def respelled (s t : State) : Prop := t.line = { s.line with words := t.line.words, joined := t.line.joined }

theorem respelled.refl (s : State) : respelled s s := rfl

theorem respelled.of_line_eq {s t : State} (h : t.line = s.line) : respelled s t := by unfold respelled; rw [h]

theorem respelled.trans {s t u : State} (h : respelled s t) (k : respelled t u) : respelled s u := by
  unfold respelled at *; rw [k, h]

theorem respelled.foldl {α : Type} (f : State → α → State) (hf : ∀ t x, respelled t (f t x)) (l : List α) (s : State) :
    respelled s (l.foldl f s) := by
  induction l generalizing s with
  | nil => exact .refl s
  | cons x l ih => exact (hf s x).trans (ih _)

/-! ### The fields that stand -/

section
variable {s t : State} (h : respelled s t)
include h

theorem respelled.phase : t.line.phase = s.line.phase := by rw [h]
theorem respelled.holder : t.line.holder = s.line.holder := by rw [h]
theorem respelled.serial : t.line.serial = s.line.serial := by rw [h]
theorem respelled.mode : t.line.mode = s.line.mode := by rw [h]
theorem respelled.cells : t.line.cells = s.line.cells := by rw [h]
theorem respelled.cursor : t.line.cursor = s.line.cursor := by rw [h]
theorem respelled.generation : t.line.generation = s.line.generation := by rw [h]
theorem respelled.marginRelease : t.line.marginRelease = s.line.marginRelease := by rw [h]
theorem respelled.bell : t.line.bell = s.line.bell := by rw [h]
theorem respelled.rise : t.line.rise = s.line.rise := by rw [h]
theorem respelled.endCause : t.line.endCause = s.line.endCause := by rw [h]
theorem respelled.carry : t.line.carry = s.line.carry := by rw [h]
theorem respelled.unmapped : t.line.unmapped = s.line.unmapped := by rw [h]

end

/-! ### The operations of the Spelling Unit -/

theorem setWord_respelled (first : Nat) (g : WordRecord → WordRecord) (s : State) : respelled s (setWord first g s) := rfl

theorem attemptWord_respelled (first : Nat) (s : State) : respelled s (attemptWord first s) := by
  rcases attemptWord_cases first s with h | ⟨g, h⟩ | ⟨-, g, e, h⟩
  · rw [h]; exact .refl s
  · rw [h]; rfl
  · rw [h]; rfl

theorem attemptWords_respelled (firsts : List Nat) (s : State) : respelled s (attemptWords firsts s) :=
  .foldl _ (fun t f => attemptWord_respelled f t) firsts s

theorem checkAlone_line (p : Port) (f : Fragment) (s : State) : (checkAlone p f s).line = s.line :=
  (checkAlone_frame p f s).same .line

theorem checkJoined_respelled (edited : Bool) (s : State) : respelled s (checkJoined edited s) := by
  unfold checkJoined; split
  · split
    · unfold respelled; rw [checkAlone_line]
    · exact .refl s
  · exact .refl s

theorem releaseJoined_respelled (s : State) : respelled s (releaseJoined s) := by
  unfold releaseJoined; split
  · split
    · exact .refl s
    · unfold respelled; rw [checkAlone_line]
  · exact .refl s

theorem rebuildWords_respelled (edited : Bool) (s : State) : respelled s (rebuildWords edited s) :=
  have h : respelled s { s with line := { s.line with words := freshRecords s } } := rfl
  (h.trans (checkJoined_respelled edited _)).trans (attemptWords_respelled _ _)

theorem editSpelling_respelled (s : State) : respelled s (editSpelling s) :=
  (respelled.of_line_eq (dropLineSpelling_line s.line.serial s)).trans (rebuildWords_respelled true _)

/-- R131: an unmapped line is respelled once it is marked. -/
theorem unmapLine_respelled (s : State) :
    respelled { s with line := { s.line with unmapped := true } } (unmapLine s) :=
  have h (t : State) (w : List WordRecord) : respelled t { t with line := { t.line with words := w } } := rfl
  (h { s with line := { s.line with unmapped := true } } _).trans (checkJoined_respelled true _)

theorem extendSpelling_respelled (s : State) : respelled s (extendSpelling s) :=
  have h : respelled s { s with line := { s.line with words := (freshRecords s).map (keepOld s.line.words) } } := rfl
  (h.trans (checkJoined_respelled false _)).trans (attemptWords_respelled _ _)

theorem cutWords_respelled (s : State) : respelled s (cutWords s) := rfl

theorem dropOwnFragment_line (p : Port) (s : State) : (dropOwnFragment p s).line = s.line :=
  (dropOwnFragment_frame p s).same .line

theorem lineEndSpelling_respelled (byReturn : Bool) (s : State) : respelled s (lineEndSpelling byReturn s) := by
  unfold lineEndSpelling; split
  · exact .refl s
  · rename_i p _
    have h : respelled s (dropOwnFragment p s) := .of_line_eq (dropOwnFragment_line p s)
    dsimp only; split
    · split
      · rename_i f _
        have k : respelled s (setFragment p (some f) (dropOwnFragment p s)) :=
          h.trans (.of_line_eq ((setFragment_frame p (some f) _).same .line))
        exact k.trans (attemptWords_respelled _ _)
      · exact h.trans (attemptWords_respelled _ _)
    · exact h

theorem resolveFragments_respelled (p : Port) (s : State) : respelled s (resolveFragments p s) := by
  have h (u : State) (hu : respelled s u) : respelled s
      (match u.spelling.fragment p with
        | some f => setFragment p none { u with line := { u.line with joined := some f } }
        | none => u) := by
    split
    · rename_i f _
      have k : respelled u { u with line := { u.line with joined := some f } } := rfl
      exact (hu.trans k).trans (.of_line_eq ((setFragment_frame p none _).same .line))
    · exact hu
  refine h _ ?_
  split
  · rename_i f _
    exact .of_line_eq ((checkAlone_line _ f _).trans ((setFragment_frame _ none s).same .line))
  · exact .refl s

theorem recordResult_respelled (e : SpellEntry) (good : Bool) (s : State) : respelled s (recordResult e good s) := by
  unfold recordResult; split
  · rfl
  · exact .refl s

theorem fillFromChecking_respelled (s : State) : respelled s (fillFromChecking s) := by
  unfold fillFromChecking; split
  · exact attemptWords_respelled _ s
  · exact .refl s

end Sys2Proof.Machine

/-! SUPPORT. The bounds of the working line (R19) and of the Await places (R43) through every operation: what each shared
operation keeps, and with it every command. -/

namespace Sys2Proof.Machine

/-! ### The two bounds -/

/-- R19: what `lineInv` says of the line. -/
def WorkingLine.fits (l : WorkingLine) : Prop :=
  (l.phase = .free ↔ l.holder = none)
    ∧ l.cells.length ≤ Config.lineCells
    ∧ (∀ carry, l.carry = some carry → carry.length ≤ Config.lineCells)
    ∧ l.cursor ≤ l.cells.length
    ∧ -4 ≤ l.rise ∧ l.rise ≤ 4

theorem lineInv_iff (s : State) : lineInv s ↔ s.line.fits := Iff.rfl

/-- R43: the Keys Collected notices of a queue. -/
def keysOf (queue : List Block) : List Block := queue.filter (·.kind == 0xA7)

theorem awaitLoad_eq (s : State) : awaitLoad s = s.composer.awaits.length + (keysOf s.link.queue).length := rfl

/-- The line stays within its bounds, and no Await place is taken. -/
def keepsBounds (s t : State) : Prop := (s.line.fits → t.line.fits) ∧ awaitLoad t ≤ awaitLoad s

theorem keepsBounds.refl (s : State) : keepsBounds s s := ⟨id, Nat.le_refl _⟩

theorem keepsBounds.trans {s t u : State} (h : keepsBounds s t) (k : keepsBounds t u) : keepsBounds s u :=
  ⟨fun f => k.1 (h.1 f), Nat.le_trans k.2 h.2⟩

theorem keepsBounds.foldl {α : Type} (f : State → α → State) (hf : ∀ t x, keepsBounds t (f t x)) (l : List α)
    (s : State) : keepsBounds s (l.foldl f s) := by
  induction l generalizing s with
  | nil => exact .refl s
  | cons x l ih => exact (hf s x).trans (ih _)

theorem awaitLoad_congr {s t : State} (ha : t.composer.awaits = s.composer.awaits) (hk : t.link = s.link) :
    awaitLoad t = awaitLoad s := by rw [awaitLoad_eq, awaitLoad_eq, ha, hk]

/-- A change of the line alone, as far as the bounds go. -/
theorem keepsBounds.of_line {s t : State} (hl : s.line.fits → t.line.fits) (ha : t.composer.awaits = s.composer.awaits)
    (hk : t.link = s.link) : keepsBounds s t := ⟨hl, Nat.le_of_eq (awaitLoad_congr ha hk)⟩

/-- A frame without the parts that the bounds read. -/
theorem keepsBounds.of_frame {parts : List Part} {s t : State} (h : changesOnly parts s t)
    (hp : .line ∉ parts ∧ .composer ∉ parts ∧ .link ∉ parts) : keepsBounds s t := by
  obtain ⟨hl, hc, hk⟩ := hp
  have el : t.line = s.line := h .line hl
  have ec : t.composer = s.composer := h .composer hc
  exact .of_line (fun f => el ▸ f) (by rw [ec]) (h .link hk)

/-- What the Spelling Unit leaves of a line is within the bounds with it. -/
theorem respelled.fits {s t : State} (h : respelled s t) (f : s.line.fits) : t.line.fits := by rw [h]; exact f

theorem keepsBounds.of_respelled {parts : List Part} {s t : State} (h : changesOnly parts s t) (r : respelled s t)
    (hp : .composer ∉ parts ∧ .link ∉ parts) : keepsBounds s t := by
  obtain ⟨hc, hk⟩ := hp
  have ec : t.composer = s.composer := h .composer hc
  exact .of_line r.fits (by rw [ec]) (h .link hk)

/-! ### Notices, replies and the ends of a step -/

theorem keysOf_append (a b : List Block) : keysOf (a ++ b) = keysOf a ++ keysOf b := List.filter_append ..

/-- A notice of another kind joins no Keys Collected. -/
theorem keysOf_notice (v : PortState) {b : Block} (h : (b.kind == 0xA7) = false) : keysOf (v.notice b).queue = keysOf v.queue := by
  have hb : keysOf [b] = [] := List.filter_cons_of_neg (by rw [h]; decide)
  unfold PortState.notice; split
  · rfl
  · split
    · exact coalesceInto_filter_ne b 0xA7 (by simpa using h) v.queue
    · split
      · unfold PortState.joinJobNotice; dsimp only; split
        · have hj (x : Block) (hx : isJobNotice x = true) : (x.kind == 0xA7) = false := by
            rcases Bool.or_eq_true_iff.1 hx with e | e <;> (rw [beq_iff_eq.1 e]; decide)
          rw [keysOf, dropOldestJobNotice_others _ _ hj]
          exact (keysOf_append _ _).trans (by rw [hb, List.append_nil])
        · exact (keysOf_append _ _).trans (by rw [hb, List.append_nil])
      · exact (keysOf_append _ _).trans (by rw [hb, List.append_nil])

/-- Any notice joins at most one. -/
theorem keysOf_notice_length (v : PortState) (b : Block) (h : b.kind = 0xA7) :
    (keysOf (v.notice b).queue).length ≤ (keysOf v.queue).length + 1 := by
  unfold PortState.notice; split
  · exact Nat.le_succ _
  · rw [if_neg (by rw [h]; decide), if_neg (by rw [isJobNotice, h]; decide)]
    dsimp only
    rw [keysOf_append, List.length_append]
    exact Nat.add_le_add_left (List.length_filter_le _ _) _

theorem notice_keepsBounds (s : State) (p : Port) {b : Block} (h : (b.kind == 0xA7) = false) : keepsBounds s (s.notice p b) := by
  refine ⟨fun f => (State.notice_line s p b).symm ▸ f, Nat.le_of_eq ?_⟩
  rw [awaitLoad_eq, awaitLoad_eq, State.notice_composer]
  cases p
  · rfl
  · show _ + (keysOf (s.link.notice b).queue).length = _
    rw [keysOf_notice _ h]

theorem noticeBoth_keepsBounds (s : State) {b : Block} (h : (b.kind == 0xA7) = false) : keepsBounds s (s.noticeBoth b) :=
  (notice_keepsBounds s .console h).trans (notice_keepsBounds _ .link h)

theorem reply_keepsBounds (s : State) (p : Port) (code : Byte) (r : Reply) : keepsBounds s (s.reply p code r) := by
  refine ⟨fun f => (State.reply_line s p code r).symm ▸ f, Nat.le_of_eq ?_⟩
  rw [awaitLoad_eq, awaitLoad_eq, State.reply_composer]
  cases p
  · rfl
  · show _ + (keysOf (s.link.queue ++ [r.block code])).length = _
    rw [keysOf_append, show keysOf [r.block code] = [] from rfl, List.append_nil]

theorem quietly.keepsBounds {s t : State} (k : quietly s t) : keepsBounds s t := by
  obtain ⟨hl, hc, -, -, hq⟩ := k
  refine ⟨fun f => hl ▸ f, Nat.le_of_eq ?_⟩
  rw [awaitLoad_eq, awaitLoad_eq, hc, hq]

theorem taken_keepsBounds (p : Port) (s : State) : keepsBounds s (taken p s) := by
  refine ⟨fun f => (taken_line p s).symm ▸ f, Nat.le_of_eq ?_⟩
  rw [awaitLoad_eq, awaitLoad_eq, taken_composer]
  cases p
  · have h : (taken .console s).link = s.link := taken_port_other .console s
    rw [h]
  · have h : (taken .link s).link = { s.link with assembly := [], gap := none, inHand := true } := taken_port .link s
    rw [h]

theorem finish_keepsBounds (s : State) : keepsBounds s (finish s) := .of_frame (finish_frame s) (by decide)

/-! ### The Spelling Unit -/

/-- R145: the Spell Hold test turns a line in Checking into one Held or Waiting. -/
theorem WorkingLine.fits.setPhase {l : WorkingLine} (f : l.fits) (h : l.phase ≠ .free) {ph : Phase} (hp : ph ≠ .free) :
    WorkingLine.fits { l with phase := ph } :=
  ⟨⟨fun e => absurd e hp, fun e => absurd (f.1.2 e) h⟩, f.2⟩

theorem holdTest_keepsBounds (s : State) : keepsBounds s (holdTest s) := by
  have ht (ph : Phase) (hp : ph ≠ .free) (h : s.line.phase = .checking) :
      keepsBounds s { s with line := { s.line with phase := ph } } :=
    .of_line (fun f => f.setPhase (by rw [h]; decide) hp) rfl rfl
  unfold holdTest; split
  · rename_i h
    have hc : s.line.phase = .checking := by simp_all
    dsimp only; split
    · exact ((ht .held (by decide) hc).trans (notice_keepsBounds _ .console rfl)).trans
        (.of_frame (State.tone_frame _ _) (by decide))
    · exact ht .waiting (by decide) hc
  · exact .refl s

theorem fillFromQueries_keepsBounds (s : State) : keepsBounds s (fillFromQueries s) :=
  .of_frame (fillQueries_frame [] s.spelling.queries s) (by decide)

theorem settle_keepsBounds (s : State) : keepsBounds s (settle s) :=
  (((keepsBounds.of_respelled (fillFromChecking_frame s) (fillFromChecking_respelled s) (by decide)).trans
    (fillFromQueries_keepsBounds _)).trans (holdTest_keepsBounds _)).trans (.of_frame (arbitrate_frame _) (by decide))

theorem endStep_keepsBounds (s : State) : keepsBounds s (endStep s) :=
  (settle_keepsBounds s).trans (finish_keepsBounds _)

theorem answerQuery_keepsBounds (tag result : Nat) (s : State) : keepsBounds s (answerQuery tag result s) :=
  have h (u : Spelling) : keepsBounds s { s with spelling := u } := .of_line id rfl rfl
  (h _).trans (notice_keepsBounds _ .link rfl)

theorem suspectResult_keepsBounds (p : Port) (e : SpellEntry) (s : State) : keepsBounds s (suspectResult p e s) := by
  have h (b : Block) (hb : (b.kind == 0xA7) = false) : keepsBounds s ((s.tone .suspect).notice p b) :=
    (keepsBounds.of_frame (State.tone_frame _ _) (by decide)).trans (notice_keepsBounds _ p hb)
  have k (t : State) (u : Spelling) : keepsBounds t { t with spelling := u } := .of_line id rfl rfl
  unfold suspectResult; dsimp only
  refine (h (Notice.suspectFound e.serial e.first e.count e.letters) rfl).trans ?_
  split
  · exact k _ _
  · split
    · exact k _ _
    · exact .of_frame (placeOnPaper_frame _ _) (by decide)

theorem deliver_keepsBounds (e : SpellEntry) (good : Bool) (s : State) : keepsBounds s (deliver e good s) := by
  have h : keepsBounds s (recordResult e good s) :=
    .of_respelled (recordResult_frame e good s) (recordResult_respelled e good s) (by decide)
  unfold deliver; split
  · exact answerQuery_keepsBounds _ _ s
  · dsimp only; split
    · exact h
    · exact h.trans (suspectResult_keepsBounds _ e _)

theorem lookupRead_keepsBounds (bytes : List Byte) (s : State) : keepsBounds s (lookupRead bytes s) := by
  have k (u : Spelling) : keepsBounds s { s with spelling := u } := .of_line id rfl rfl
  unfold lookupRead; split
  · exact .refl s
  · dsimp only; split
    · exact k _
    · split
      · exact (k _).trans (deliver_keepsBounds _ _ _)
      · exact (k _).trans (deliver_keepsBounds _ _ _)
      · exact k _

theorem lexiconLost_keepsBounds (s : State) : keepsBounds s (lexiconLost s) := by
  unfold lexiconLost
  have k (u : Spelling) : keepsBounds s { s with spelling := u } := .of_line id rfl rfl
  refine ((k _).trans (.foldl _ (fun t e => ?_) _ _)).trans
    (.foldl _ (fun t (q : Query) => answerQuery_keepsBounds q.tag 2 t) _ _)
  split
  · exact .refl t
  · split
    · exact answerQuery_keepsBounds _ _ t
    · split
      · exact .of_line id rfl rfl
      · exact .refl t

/-! ### The line and the compose position -/

@[simp] theorem layWith_length (f : FormatRecord) (m : PetalMap) (x : Nat) (cells : List (Cell × Nat)) :
    (layWith f m x cells).length = cells.length := by
  induction cells generalizing x with
  | nil => rfl
  | cons c rest ih => simp [layWith, ih]

@[simp] theorem layFrom_length (f : FormatRecord) (m : PetalMap) (x : Nat) (cells : List Cell) :
    (layFrom f m x cells).length = cells.length := by simp [layFrom]

theorem directCursor_le (cells : List Cell) (x : Nat) : directCursor cells x ≤ cells.length := List.length_filter_le _ _

theorem WorkingLine.fits_free : WorkingLine.fits .free := by
  refine ⟨⟨fun _ => rfl, fun _ => rfl⟩, Nat.zero_le _, fun _ h => ?_, Nat.le_refl _, ?_, ?_⟩
  · cases h
  · decide
  · decide

theorem setPosition_keepsBounds (x : Nat) (s : State) : keepsBounds s (setPosition x s) := by
  refine .of_line (fun f => ?_) rfl rfl
  unfold setPosition; dsimp only; split
  · exact ⟨f.1, f.2.1, f.2.2.1, directCursor_le _ _, f.2.2.2.2⟩
  · exact f

theorem relayLine_keepsBounds (s : State) : keepsBounds s (relayLine s) := by
  unfold relayLine; split
  · exact .refl s
  · split
    · refine .of_line (fun f => ?_) rfl rfl
      obtain ⟨hp, hc, hy, hu, hr⟩ := f
      exact ⟨hp, by simpa using hc, hy, by simpa using hu, hr⟩
    · split
      · exact .of_line id rfl rfl
      · exact .refl s

theorem freeLine_keepsBounds (last : Port) (s : State) : keepsBounds s (freeLine last s) :=
  .of_line (fun _ => WorkingLine.fits_free) rfl rfl

theorem discardLine_keepsBounds (s : State) : keepsBounds s (discardLine s) := by
  unfold discardLine; split
  · exact .refl s
  · rename_i p _
    have h : keepsBounds s (freeLine p (releaseJoined (dropLineSpelling s.line.serial s))) :=
      ((keepsBounds.of_frame (dropLineSpelling_frame s.line.serial s) (by decide)).trans
        (.of_respelled (releaseJoined_frame _) (releaseJoined_respelled _) (by decide))).trans (freeLine_keepsBounds p _)
    dsimp only; split
    · exact h.trans (setPosition_keepsBounds _ _)
    · exact h

/-- R19: a line that is claimed. -/
theorem WorkingLine.fits_claimed (p : Port) (serial : Nat) (mode : EntryMode) : (claimedLine p serial mode).fits := by
  refine ⟨⟨fun h => ?_, fun h => ?_⟩, Nat.zero_le _, fun _ h => ?_, Nat.le_refl _, ?_, ?_⟩
  · cases h
  · cases h
  · cases h
  · exact (by decide : (-4 : Int) ≤ 0)
  · exact (by decide : (0 : Int) ≤ 4)

theorem WorkingLine.fits_away (serial : Nat) : (awayLine serial).fits := fits_claimed .console serial .direct

/-! ### The Lift Unit and the Strike Engine -/

theorem beginAway_keepsBounds (t : Target) (s : State) : keepsBounds s (beginAway t s) := by
  have k (u : State) (l : LiftUnit) (d : Display) (n : Nat) :
      keepsBounds u { u with lift := l, line := awayLine n, display := d } :=
    .of_line (fun _ => WorkingLine.fits_away n) rfl rfl
  exact ((discardLine_keepsBounds s).trans (k _ _ _ _)).trans (setPosition_keepsBounds _ _)

theorem positionAfterLift_keepsBounds (c : Correction) (s : State) : keepsBounds s (positionAfterLift c s) := by
  unfold positionAfterLift; split
  · exact .refl s
  · split
    · exact setPosition_keepsBounds _ s
    · exact .refl s

theorem liftDone_keepsBounds (source : Port) (c : Correction) (outcome : Nat) (s : State) :
    keepsBounds s (liftDone source c outcome s) := notice_keepsBounds s source rfl

theorem endCorrection_keepsBounds (source : Port) (c : Correction) (outcome : Nat) (s : State) :
    keepsBounds s (endCorrection source c outcome s) :=
  ((liftDone_keepsBounds source c outcome s).trans (positionAfterLift_keepsBounds c _)).trans
    (.of_frame (reopenAfter_frame c _) (by decide))

theorem appendOwed_keepsBounds (s : State) : keepsBounds s (appendOwed s) := .of_frame (appendOwed_frame s) (by decide)

theorem endAway_keepsBounds (s : State) : keepsBounds s (endAway s) :=
  have k (u : State) (l : LiftUnit) : keepsBounds u { u with lift := l } := .of_line id rfl rfl
  (freeLine_keepsBounds .console s).trans (k _ _)

theorem lineDone_keepsBounds (source : Port) (serial struck dropped : Nat) (s : State) :
    keepsBounds s (lineDone source serial struck dropped s) := by
  have h : keepsBounds s (examinePrinting serial (s.notice source (Notice.lineDone serial struck dropped))) :=
    (notice_keepsBounds s source rfl).trans (.of_frame (examinePrinting_frame _ _) (by decide))
  unfold lineDone; dsimp only; split
  · exact h.trans (.of_frame (State.tone_frame _ _) (by decide))
  · exact h

theorem lineCancelled_keepsBounds (source : Port) (serial struck : Nat) (s : State) :
    keepsBounds s (lineCancelled source serial struck s) :=
  (notice_keepsBounds s source rfl).trans (.of_frame (examinePrinting_frame _ _) (by decide))

theorem reportCancelled_keepsBounds (j : Job) (s : State) : keepsBounds s (reportCancelled j s) := by
  unfold reportCancelled; split
  · exact endCorrection_keepsBounds _ _ _ s
  · exact lineCancelled_keepsBounds _ _ _ s

theorem reportFaulted_keepsBounds (j : Job) (s : State) : keepsBounds s (reportFaulted j s) := by
  unfold reportFaulted; split
  · exact liftDone_keepsBounds _ _ _ s
  · exact lineCancelled_keepsBounds _ _ _ s

theorem tallyStroke_keepsBounds (j : Job) (s : State) : keepsBounds s (tallyStroke j s) := by
  have k (e : Engine) : keepsBounds s { s with engine := e } := .of_line id rfl rfl
  unfold tallyStroke; dsimp only; split
  · exact (k _).trans (lineDone_keepsBounds _ _ _ _ _)
  · exact k _

theorem supplyLow_keepsBounds (s : State) : keepsBounds s (supplyLow s) := noticeBoth_keepsBounds s rfl

/-- A notice that is due only sometimes. -/
theorem keepsBounds.ite {s t u : State} {c : Prop} [Decidable c] (ht : keepsBounds s t) (hu : keepsBounds s u) :
    keepsBounds s (if c then t else u) := by split <;> assumption

theorem setHead_keepsBounds (g : Job → Job) (s : State) : keepsBounds s (setHead g s) := .of_frame (setHead_frame g s) (by decide)

theorem completeStrike_keepsBounds (k : Strike) (s : State) : keepsBounds s (completeStrike k s) := by
  have h (e : Engine) (l : LiftUnit) : keepsBounds s { s with engine := e, lift := l } := .of_line id rfl rfl
  have hr (n : Nat) (p : Port) (x : Int) (y : StrikeEntry) (u : State) : keepsBounds u (recordStrike n p x y u) :=
    .of_frame (recordStrike_frame n p x y u) (by decide)
  unfold completeStrike; split
  · exact .refl s
  · exact ((keepsBounds.ite ((h _ _).trans (supplyLow_keepsBounds _)) (h _ _)).trans (hr _ _ _ _ _)).trans
      (setHead_keepsBounds _ _)

theorem removeLiftedCell_keepsBounds (serial : Nat) (e : StrikeEntry) (s : State) :
    keepsBounds s (removeLiftedCell serial e s) := by
  unfold removeLiftedCell; split
  · split
    · exact .refl s
    · rename_i i _
      have h : keepsBounds s { s with line := { s.line with
          cells := s.line.cells.eraseIdx i
          cursor := directCursor (s.line.cells.eraseIdx i) s.composer.position
          generation := (s.line.generation + 1) % 65536 } } := by
        refine .of_line (fun f => ?_) rfl rfl
        obtain ⟨hp, hc, hy, -, hr⟩ := f
        exact ⟨hp, Nat.le_trans (List.length_eraseIdx_le _ _) hc, hy, directCursor_le _ _, hr⟩
      have hu (u : State) : keepsBounds u (unmapLine u) :=
        .of_line (fun f => (unmapLine_respelled u).fits f) (by rw [((unmapLine_frame u).same .composer)])
          ((unmapLine_frame u).same .link)
      dsimp only
      exact .ite (h.trans (.of_respelled (editSpelling_frame _) (editSpelling_respelled _) (by decide))) (h.trans (hu _))
  · exact .refl s

theorem completeLift_keepsBounds (record : Nat) (e : StrikeEntry) (s : State) : keepsBounds s (completeLift record e s) := by
  have h (g : Engine) : keepsBounds s { s with engine := g } := .of_line id rfl rfl
  unfold completeLift; dsimp only
  exact ((((keepsBounds.ite ((h _).trans (supplyLow_keepsBounds _)) (h _)).trans (.of_frame (removeEntry_frame _ _ _) (by decide))).trans
    (setHead_keepsBounds _ _)).trans (.of_frame (withdrawLifted_frame _ _ _) (by decide))).trans (removeLiftedCell_keepsBounds _ _ _)

theorem completeFeed_keepsBounds (n : Int) (s : State) : keepsBounds s (completeFeed n s) := by
  have h (e : Engine) : keepsBounds s (closeByFeed { s with engine := e }) :=
    (keepsBounds.of_line (s := s) (t := { s with engine := e }) id rfl rfl).trans (.of_frame (closeByFeed_frame _) (by decide))
  unfold completeFeed; dsimp only; split
  · exact (h _).trans (notice_keepsBounds _ _ rfl)
  · exact h _

theorem emptyMemory_keepsBounds (s : State) : keepsBounds s (emptyMemory s) := .of_frame (emptyMemory_frame s) (by decide)

theorem completeEject_keepsBounds (s : State) : keepsBounds s (completeEject s) :=
  have h (e : Engine) : keepsBounds s { s with engine := e } := .of_line id rfl rfl
  (h _).trans (emptyMemory_keepsBounds _)

theorem beginOrder_keepsBounds (o : Order) (s : State) : keepsBounds s (beginOrder o s).state := by
  have h (e : Engine) : keepsBounds s { s with engine := e } := .of_line id rfl rfl
  cases o with
  | strike k => exact h _
  | lift r e => exact h _
  | move x =>
    unfold beginOrder; dsimp only; split
    · exact .refl s
    · exact h _
  | feed n =>
    unfold beginOrder; dsimp only; split
    · exact completeFeed_keepsBounds 0 s
    · exact h _
  | eject =>
    unfold beginOrder; dsimp only; split
    · exact completeEject_keepsBounds s
    · exact h _

theorem refuseLift_keepsBounds (source : Port) (command : LiftCommand) (reason : LiftReason) (s : State) :
    keepsBounds s (refuseLift source command reason s) := by
  have h : keepsBounds s ((popHead s).notice source (Notice.liftRefused command.code reason.code)) :=
    (keepsBounds.of_frame (popHead_frame s) (by decide)).trans (notice_keepsBounds _ _ rfl)
  exact (keepsBounds.ite (h.trans (.of_frame (State.tone_frame _ _) (by decide))) h).trans (appendOwed_keepsBounds _)

theorem startWith_keepsBounds (g : Job → Job) (s : State) : keepsBounds s (startWith g s) := .of_frame (startWith_frame g s) (by decide)

theorem resolveCorrection_keepsBounds (j : Job) (c : Correction) (behind : List Job) (s : State) :
    keepsBounds s (resolveCorrection j c behind s) := by
  unfold resolveCorrection; split
  · exact refuseLift_keepsBounds _ _ _ s
  · split
    · exact refuseLift_keepsBounds _ _ _ s
    · have h (g : Job → Job) : keepsBounds s (startWith g (setRelocatePoint s)) :=
        (keepsBounds.of_frame (setRelocatePoint_frame s) (by decide)).trans (startWith_keepsBounds g _)
      exact .ite ((h _).trans (beginAway_keepsBounds _ _)) (h _)

theorem startHead_keepsBounds (j : Job) (behind : List Job) (s : State) : keepsBounds s (startHead j behind s) := by
  unfold startHead; split
  · exact resolveCorrection_keepsBounds _ _ _ s
  · split
    · split
      · exact startWith_keepsBounds _ s
      · exact startWith_keepsBounds _ s
    · exact startWith_keepsBounds _ s

theorem reportAll_keepsBounds (gone : List Job) (s : State) :
    keepsBounds s (gone.foldl (fun u j => reportCancelled j u) s) :=
  .foldl _ (fun u j => reportCancelled_keepsBounds j u) gone s

theorem endRelocate_keepsBounds (target : Nat) (s : State) : keepsBounds s (endRelocate target s) := by
  have hr : keepsBounds s (restore s) := .of_frame (restore_frame s) (by decide)
  have he (u : State) (e : Engine) : keepsBounds u { u with engine := e } := .of_line id rfl rfl
  have hl (u : State) (l : LiftUnit) : keepsBounds u { u with lift := l } := .of_line id rfl rfl
  have hp (u : State) (hu : keepsBounds s u) (x : Nat) : keepsBounds s (if consoleDirect u then setPosition x u else u) :=
    .ite (hu.trans (setPosition_keepsBounds x u)) hu
  unfold endRelocate; dsimp only
  refine (hp _ ?_ _).trans (hl _ _)
  exact .ite (((hr.trans (he _ _)).trans (reportAll_keepsBounds _ _)).trans (endAway_keepsBounds _)) hr

theorem completeHead_keepsBounds (j : Job) (s : State) : keepsBounds s (completeHead j s) := by
  have h : keepsBounds s (popHead s) := .of_frame (popHead_frame s) (by decide)
  unfold completeHead; dsimp only
  refine keepsBounds.trans ?_ (appendOwed_keepsBounds _)
  split
  · exact h.trans (lineDone_keepsBounds _ _ _ _ _)
  · exact h.trans (tallyStroke_keepsBounds j _)
  · have hm := h.trans (lineDone_keepsBounds j.source 0 0 0 (popHead s))
    exact .ite (hm.trans (endRelocate_keepsBounds _ _)) hm
  · split
    · exact h.trans (endCorrection_keepsBounds _ _ _ _)
    · exact h

theorem enterReady_keepsBounds (s : State) : keepsBounds s (enterReady s) := .of_frame (enterReady_frame s) (by decide)

theorem enterSupplyOut_keepsBounds (s : State) : keepsBounds s (enterSupplyOut s) := .of_frame (enterSupplyOut_frame s) (by decide)

theorem runQueue_keepsBounds (fuel : Nat) (s : State) : keepsBounds s (runQueue fuel s) := by
  induction fuel generalizing s with
  | zero => exact .refl s
  | succ n ih =>
    unfold runQueue; split
    · exact enterReady_keepsBounds s
    · split
      · split
        · exact (completeHead_keepsBounds _ s).trans (ih _)
        · have hb (o : Order) := beginOrder_keepsBounds o s
          split
          · exact enterSupplyOut_keepsBounds s
          · exact .ite (((hb _).trans (setHead_keepsBounds _ _)).trans (ih _)) (hb _)
      · exact .ite (enterSupplyOut_keepsBounds s) ((startHead_keepsBounds _ _ s).trans (ih _))

theorem goOn_keepsBounds (s : State) : keepsBounds s (goOn s) := runQueue_keepsBounds _ s

theorem orderDone_keepsBounds (s : State) : keepsBounds s (orderDone s) := by
  have hc : keepsBounds s (removeCancelledHead s) := by
    unfold removeCancelledHead; split
    · exact .refl s
    · exact ((keepsBounds.of_frame (popHead_frame s) (by decide)).trans (reportCancelled_keepsBounds _ _)).trans
        (appendOwed_keepsBounds _)
  unfold orderDone; split
  · exact .refl s
  · exact .ite (hc.trans (goOn_keepsBounds _)) ((setHead_keepsBounds _ s).trans (goOn_keepsBounds _))

theorem startJob_keepsBounds (s : State) : keepsBounds s (startJob s) := .ite (goOn_keepsBounds s) (.refl s)

theorem releaseCancelled_keepsBounds (removed : List Job) (s : State) : keepsBounds s (releaseCancelled removed s) := by
  have he (e : Engine) : keepsBounds s { s with engine := e } := .of_line id rfl rfl
  have hl (u : State) (n : Nat) : keepsBounds u { u with line := awayLine n } :=
    .of_line (fun _ => WorkingLine.fits_away n) rfl rfl
  have h1 : keepsBounds s
      (if removed.any (·.kind == .stroke) then { s with engine := { s.engine with tally := .clear } } else s) :=
    .ite (he _) (.refl s)
  have h2 := h1.trans (discardLine_keepsBounds _)
  exact .ite ((keepsBounds.ite (h2.trans (hl _ _)) h2).trans (setPosition_keepsBounds _ _)) h1

theorem cancelJobs_keepsBounds (p : Port) (s : State) : keepsBounds s (cancelJobs p s).1 := by
  have he (e : Engine) : keepsBounds s { s with engine := e } := .of_line id rfl rfl
  unfold cancelJobs; dsimp only
  exact (((he _).trans (reportAll_keepsBounds _ _)).trans (releaseCancelled_keepsBounds _ _)).trans
    (appendOwed_keepsBounds _)

theorem enterFault_keepsBounds (cause : FaultCause) (s : State) : keepsBounds s (enterFault cause s) := by
  have h0 (e : Engine) : keepsBounds s { s with engine := e, restTimer := none } := .of_line id rfl rfl
  have he (u : State) (e : Engine) : keepsBounds u { u with engine := e } := .of_line id rfl rfl
  have hd (u : State) (d : Display) : keepsBounds u { u with display := d } := .of_line id rfl rfl
  have hl (u : State) (l : LiftUnit) : keepsBounds u { u with lift := l } := .of_line id rfl rfl
  have hf (l : List Job) (u : State) : keepsBounds u (l.foldl (fun t j => reportFaulted j t) u) :=
    .foldl _ (fun t j => reportFaulted_keepsBounds j t) l u
  have hr (u : State) : keepsBounds u (restore u) := .of_frame (restore_frame u) (by decide)
  have hs (u : State) (c : Bool) (x : Nat) : keepsBounds u (if c then setPosition x (discardLine u) else u) :=
    .ite ((discardLine_keepsBounds u).trans (setPosition_keepsBounds _ _)) (.refl u)
  have hm (u : State) : keepsBounds u (u.noticeBoth (Notice.mechanismFault cause.code)) := noticeBoth_keepsBounds u rfl
  have ha (u : State) (hu : keepsBounds s u) : keepsBounds s
      (if u.lift.away then
        { restore u with lift := { (restore u).lift with away := false, target := none, point := none, owed := false } }
      else u) := .ite ((hu.trans (hr u)).trans (hl _ _)) hu
  exact ha _ ((((((h0 _).trans (hf s.engine.queue _)).trans (he _ _)).trans (hm _)).trans (hs _ _ _)).trans (hd _ _))

theorem homingLoaded_keepsBounds (m : PetalMap) (announce : Bool) (s : State) :
    keepsBounds s (homingLoaded m announce s) := by
  have h0 (e : Engine) (d : Display) : keepsBounds s { s with engine := e, display := d } := .of_line id rfl rfl
  have hn (u : State) (hu : keepsBounds s u) : keepsBounds s
      (relayLine (if announce then u.noticeBoth (Notice.wheelLoaded m.wheelId m.pitch.code) else u)) :=
    (keepsBounds.ite (hu.trans (noticeBoth_keepsBounds u rfl)) hu).trans (relayLine_keepsBounds _)
  exact hn _ (.ite ((h0 _ _).trans (enterSupplyOut_keepsBounds _)) ((h0 _ _).trans (enterReady_keepsBounds _)))

theorem homingRefused_keepsBounds (hub reason : Nat) (s : State) : keepsBounds s (homingRefused hub reason s) :=
  have h0 (e : Engine) (d : Display) : keepsBounds s { s with engine := e, display := d, restTimer := none } :=
    .of_line id rfl rfl
  (h0 _ _).trans (noticeBoth_keepsBounds _ rfl)

end Sys2Proof.Machine

/-! SUPPORT. The bounds of the working line and of the Await places through the Store Interface and the Line Composer. -/

namespace Sys2Proof.Machine

/-! ### The Store Interface -/

theorem requestTable_keepsBounds (h : Nat) (s : State) : keepsBounds s (requestTable h s) := by
  have k (st : Store) : keepsBounds s { s with store := st } := .of_line id rfl rfl
  have hl (m : PetalMap) : keepsBounds s (homingLoaded m true s) := homingLoaded_keepsBounds m true s
  have hr (r : Nat) : keepsBounds s (homingRefused h r s) := homingRefused_keepsBounds h r s
  unfold requestTable; split
  · exact hr 0
  · split
    · exact k _
    · exact hl _
    · exact hl _
    · split
      · exact hl _
      · split
        · exact hr 0
        · exact k _

theorem retakeRequest_keepsBounds (s : State) : keepsBounds s (retakeRequest s) := by
  have k (st : Store) : keepsBounds s { s with store := st } := .of_line id rfl rfl
  unfold retakeRequest; split
  · exact .refl s
  · exact (k _).trans (requestTable_keepsBounds _ _)

theorem wheelRead_keepsBounds (bytes : List Byte) (s : State) : keepsBounds s (wheelRead bytes s) := by
  have k (st : Store) : keepsBounds s { s with store := st } := .of_line id rfl rfl
  unfold wheelRead; split
  · exact .refl s
  · dsimp only; split
    · exact (k _).trans (homingLoaded_keepsBounds _ _ _)
    · exact (k _).trans (homingRefused_keepsBounds _ _ _)

theorem enterStore_keepsBounds (state : StoreState) (s : State) : keepsBounds s (enterStore state s) := by
  have k (st : Store) : keepsBounds s { s with store := st } := .of_line id rfl rfl
  have hl (u : State) (hu : keepsBounds s u) : keepsBounds s (if u.store.lexiconAvailable then u else lexiconLost u) :=
    .ite hu (hu.trans (lexiconLost_keepsBounds u))
  exact (hl _ ((k _).trans (noticeBoth_keepsBounds _ rfl))).trans (retakeRequest_keepsBounds _)

theorem startUpWith_keepsBounds (step : StartStep) (op : StoreOp) (s : State) : keepsBounds s (startUpWith step op s) :=
  .of_frame (startUpWith_frame step op s) (by decide)

theorem endPresent_keepsBounds (s : State) : keepsBounds s (endPresent s) := enterStore_keepsBounds .present s

theorem startUsers_keepsBounds (s : State) : keepsBounds s (startUsers s) := by
  unfold startUsers; split
  · exact startUpWith_keepsBounds _ _ s
  · exact endPresent_keepsBounds s

theorem readTableId_keepsBounds (t tables : Nat) (s : State) : keepsBounds s (readTableId t tables s) := by
  unfold readTableId; split
  · exact .ite (startUpWith_keepsBounds _ _ s) (startUsers_keepsBounds s)
  · exact startUsers_keepsBounds s

theorem goOnExamining_keepsBounds (entries : List RawEntry) (x : Examination) (s : State) :
    keepsBounds s (goOnExamining entries x s) := by
  have k (st : Store) : keepsBounds s { s with store := st } := .of_line id rfl rfl
  unfold goOnExamining; split
  · exact (k _).trans (readTableId_keepsBounds _ _ _)
  · exact startUpWith_keepsBounds _ _ s

theorem discardList_keepsBounds (s : State) : keepsBounds s (discardList s) :=
  have k (u : Spelling) (st : Store) : keepsBounds s { s with spelling := u, store := st } := .of_line id rfl rfl
  (k _ _).trans (endPresent_keepsBounds _)

theorem userRecordsRead_keepsBounds (check : Nat) (magic : Bool) (bytes : List Byte) (s : State) :
    keepsBounds s (userRecordsRead check magic bytes s) :=
  have k (u : Spelling) (st : Store) : keepsBounds s { s with spelling := u, store := st } := .of_line id rfl rfl
  .ite ((k _ _).trans (endPresent_keepsBounds _)) (discardList_keepsBounds s)

theorem userHeaderRead_keepsBounds (bytes : List Byte) (s : State) : keepsBounds s (userHeaderRead bytes s) := by
  unfold userHeaderRead; dsimp only; split
  · exact discardList_keepsBounds s
  · split
    · exact startUpWith_keepsBounds _ _ s
    · exact endPresent_keepsBounds s

theorem startUpStep_keepsBounds (bytes : List Byte) (s : State) : keepsBounds s (startUpStep bytes s) := by
  have k (st : Store) : keepsBounds s { s with store := st } := .of_line id rfl rfl
  unfold startUpStep; split
  · exact .refl s
  · exact startUpWith_keepsBounds _ _ s
  · exact startUpWith_keepsBounds _ _ s
  · exact startUpWith_keepsBounds _ _ s
  · split
    · exact startUpWith_keepsBounds _ _ s
    · exact enterStore_keepsBounds _ s
  · exact goOnExamining_keepsBounds _ _ s
  · exact goOnExamining_keepsBounds _ _ s
  · exact (k _).trans (readTableId_keepsBounds _ _ _)
  · exact userHeaderRead_keepsBounds _ s
  · exact userRecordsRead_keepsBounds _ _ _ s

theorem saveStepDone_keepsBounds (s : State) : keepsBounds s (saveStepDone s) := by
  have k (st : Store) : keepsBounds s { s with store := st } := .of_line id rfl rfl
  unfold saveStepDone; split
  · exact .refl s
  · split
    · exact (k _).trans (notice_keepsBounds _ _ rfl)
    · exact k _

theorem storeFault_keepsBounds (s : State) : keepsBounds s (storeFault s) := by
  have k (u : State) (st : Store) : keepsBounds u { u with store := st } := .of_line id rfl rfl
  have h : keepsBounds s (enterStore .faulted { s with store := { s.store with link := none } }) :=
    (k s _).trans (enterStore_keepsBounds _ _)
  unfold storeFault; dsimp only; split
  · exact h
  · exact (h.trans (k _ _)).trans (notice_keepsBounds _ _ rfl)

/-! ### Shared pieces of the Line Composer -/

/-- A choice between two states, each kept where it is chosen. -/
theorem keepsBounds.choice {s t u : State} {c : Prop} [Decidable c] (ht : c → keepsBounds s t) (hu : ¬ c → keepsBounds s u) :
    keepsBounds s (if c then t else u) := by
  split
  · exact ht ‹_›
  · exact hu ‹_›

theorem refuseStroke_keepsBounds (p : Port) (code : Status) (s : State) : keepsBounds s (refuseStroke p code s) :=
  .of_line id (by cases p <;> rfl) rfl

theorem ringBell_keepsBounds (edge : Nat) (s : State) : keepsBounds s (ringBell edge s) :=
  .ite (.of_line id rfl rfl) (.refl s)

theorem appendJob_keepsBounds (j : Job) (s : State) : keepsBounds s (appendJob j s) := .of_frame (appendJob_frame j s) (by decide)

theorem startPrinting_keepsBounds (serial : Nat) (s : State) : keepsBounds s (startPrinting serial s) :=
  .of_frame (startPrinting_frame serial s) (by decide)

theorem claim_keepsBounds (p : Port) (s : State) : keepsBounds s (claim p s) := by
  have k (c : Composer) (hc : c.awaits = s.composer.awaits) (n : Nat) (mode : EntryMode) :
      keepsBounds s { s with line := claimedLine p n mode, composer := c } :=
    .of_line (fun _ => WorkingLine.fits_claimed p n mode) hc rfl
  exact ((k _ (by rfl) _ _).trans (.of_respelled (resolveFragments_frame p _) (resolveFragments_respelled p _) (by decide))).trans
    (relayLine_keepsBounds _)

theorem relayLine_line (s : State) : (relayLine s).line = { s.line with cells := (relayLine s).line.cells } := by
  unfold relayLine; split
  · rfl
  · split
    · rfl
    · split <;> rfl

theorem relayLine_phase (s : State) : (relayLine s).line.phase = s.line.phase := by rw [relayLine_line]

/-- R19: a claimed line is in Composing. -/
theorem claim_phase (p : Port) (s : State) : (claim p s).line.phase = .composing := by
  unfold claim; dsimp only
  rw [relayLine_phase, (resolveFragments_respelled p _).phase]; rfl

theorem insertAt_length (cells : List Cell) (i : Nat) (c : Cell) : (insertAt cells i c).length = cells.length + 1 := by
  simp only [insertAt, List.length_append, List.length_take, List.length_cons, List.length_drop]; omega

/-! ### Direct mode -/

theorem directInsert_keepsBounds (i : Nat) (c : Cell) {s : State} (h : s.line.cells.length < Config.lineCells) :
    keepsBounds s (directInsert i c s) := by
  have hi : keepsBounds s { s with line := { s.line with cells := insertAt s.line.cells i c } } := by
    refine .of_line (fun f => ?_) rfl rfl
    obtain ⟨hp, -, hy, hu, hr⟩ := f
    refine ⟨hp, ?_, hy, ?_, hr⟩
    · show (insertAt s.line.cells i c).length ≤ _; rw [insertAt_length]; exact h
    · show _ ≤ (insertAt s.line.cells i c).length; rw [insertAt_length]; exact Nat.le_succ_of_le hu
  have hu (u : State) : keepsBounds u (unmapLine u) :=
    .of_line (fun f => (unmapLine_respelled u).fits f) (by rw [((unmapLine_frame u).same .composer)])
      ((unmapLine_frame u).same .link)
  exact .ite (hi.trans (.of_respelled (extendSpelling_frame _) (extendSpelling_respelled _) (by decide))) (hi.trans (hu _))

theorem directReplace_keepsBounds (i : Nat) (c : Cell) (s : State) : keepsBounds s (directReplace i c s) := by
  have hi (n : Nat) : keepsBounds s { s with line := { s.line with cells := s.line.cells.set i c, generation := n } } := by
    refine .of_line (fun f => ?_) rfl rfl
    obtain ⟨hp, hc, hy, hu, hr⟩ := f
    exact ⟨hp, by simpa using hc, hy, by simpa using hu, hr⟩
  exact (hi _).trans (.of_respelled (editSpelling_frame _) (editSpelling_respelled _) (by decide))

theorem ringBell_cells (edge : Nat) (s : State) : (ringBell edge s).line.cells = s.line.cells := by
  unfold ringBell; split <;> rfl

/-- R30: where no cell holds the position, a line that is not full has room for one. -/
theorem room_of_not_full {held : Option Nat} {n : Nat} (hs : ¬ held.isSome = true)
    (hf : ¬ (held.isNone && Config.lineCells ≤ n) = true) : n < Config.lineCells := by
  cases held with
  | none => simpa using hf
  | some i => simp at hs

theorem directCharacter_keepsBounds (m : PetalMap) (code : Byte) (k : Stroke) (s : State) :
    keepsBounds s (directCharacter m code k s) := by
  have hb (edge : Nat) : keepsBounds s (ringBell edge s) := ringBell_keepsBounds edge s
  have hn (u : State) (hu : keepsBounds s u) : keepsBounds s
      (if (m.find code).isNone then u.notice .console (Notice.missingCharacter code u.line.serial) else u) :=
    .ite (hu.trans (notice_keepsBounds u .console rfl)) hu
  have hj (u : State) (hu : keepsBounds s u) (j : Job) (x : Nat) : keepsBounds s (appendJob j (setPosition x u)) :=
    (hu.trans (setPosition_keepsBounds x u)).trans (appendJob_keepsBounds j _)
  have hi (i : Nat) (c : Cell) (edge : Nat)
      (hf : ¬ ((cellAt s.line.cells s.composer.position).isNone && Config.lineCells ≤ s.line.cells.length) = true) :
      keepsBounds s (if (cellAt s.line.cells s.composer.position).isSome then directReplace i c (ringBell edge s)
        else directInsert i c (ringBell edge s)) := by
    refine .choice (fun _ => (hb _).trans (directReplace_keepsBounds _ _ _)) fun hs =>
      (hb _).trans (directInsert_keepsBounds _ _ ?_)
    rw [ringBell_cells]; exact room_of_not_full hs hf
  exact .choice (fun _ => refuseStroke_keepsBounds _ _ s) fun _ =>
    .choice (fun _ => refuseStroke_keepsBounds _ _ s) fun hf => hj _ (hn _ (hi _ _ _ hf)) _ _

theorem directSpace_keepsBounds (m : PetalMap) (k : Stroke) (s : State) : keepsBounds s (directSpace m k s) := by
  have hj (u : State) (hu : keepsBounds s u) (j : Job) (x : Nat) : keepsBounds s (appendJob j (setPosition x u)) :=
    (hu.trans (setPosition_keepsBounds x u)).trans (appendJob_keepsBounds j _)
  exact .choice (fun _ => refuseStroke_keepsBounds _ _ s) fun _ =>
    .choice (fun _ => refuseStroke_keepsBounds _ _ s) fun hf =>
      hj _ (.choice (fun _ => .refl s) fun hs => directInsert_keepsBounds _ _ (room_of_not_full hs hf)) _ _

theorem directMove_keepsBounds (x : Nat) (s : State) : keepsBounds s (directMove x s) :=
  (setPosition_keepsBounds x s).trans (appendJob_keepsBounds _ _)

theorem directIndex_keepsBounds (rise feed : Int) (s : State) : keepsBounds s (directIndex rise feed s) := by
  unfold directIndex; split
  · exact refuseStroke_keepsBounds _ _ s
  · rename_i h
    have hr : keepsBounds s { s with line := { s.line with rise := rise } } := by
      refine .of_line (fun f => ?_) rfl rfl
      obtain ⟨hp, hc, hy, hu, -⟩ := f
      simp only [Bool.or_eq_true, decide_eq_true_eq, not_or, Int.not_lt] at h
      exact ⟨hp, hc, hy, hu, h⟩
    exact hr.trans (appendJob_keepsBounds _ _)

theorem releaseDirect_keepsBounds (s : State) : keepsBounds s (releaseDirect s) :=
  (((appendJob_keepsBounds _ s).trans (startPrinting_keepsBounds _ _)).trans (freeLine_keepsBounds .console _)).trans
    (setPosition_keepsBounds _ _)

theorem lineEndSpelling_keepsBounds (byReturn : Bool) (s : State) : keepsBounds s (lineEndSpelling byReturn s) :=
  .of_respelled (lineEndSpelling_frame byReturn s) (lineEndSpelling_respelled byReturn s) (by decide)

theorem composeDirect_keepsBounds (m : PetalMap) (k : Stroke) (s : State) : keepsBounds s (composeDirect m k s) := by
  have hr (code : Status) : keepsBounds s (refuseStroke .console code s) := refuseStroke_keepsBounds _ _ s
  unfold composeDirect; split
  · exact directCharacter_keepsBounds _ _ _ s
  · exact directSpace_keepsBounds _ _ s
  · exact directMove_keepsBounds _ s
  · split
    · exact directMove_keepsBounds _ s
    · exact hr _
  · exact directIndex_keepsBounds _ _ s
  · exact directIndex_keepsBounds _ _ s
  · exact .of_line id rfl rfl
  · exact .ite (hr _) ((lineEndSpelling_keepsBounds true s).trans (releaseDirect_keepsBounds _))
  · exact hr _
  · exact hr _
  · exact hr _
  · exact hr _

/-! ### Line mode -/

theorem lineInsert_keepsBounds (c : Cell) {s : State} (h : s.line.cells.length < Config.lineCells) :
    keepsBounds s (lineInsert c s) := by
  have hi (n : Nat) : keepsBounds s (relayLine { s with line := { s.line with
      cells := insertAt s.line.cells s.line.cursor c, cursor := s.line.cursor + 1, generation := n } }) := by
    refine .trans ?_ (relayLine_keepsBounds _)
    refine .of_line (fun f => ?_) rfl rfl
    obtain ⟨hp, -, hy, hu, hr⟩ := f
    refine ⟨hp, ?_, hy, ?_, hr⟩
    · show (insertAt _ _ c).length ≤ _; rw [insertAt_length]; exact h
    · show _ ≤ (insertAt _ _ c).length; rw [insertAt_length]; exact Nat.succ_le_succ hu
  exact .ite ((hi _).trans (.of_respelled (extendSpelling_frame _) (extendSpelling_respelled _) (by decide)))
    ((hi _).trans (.of_respelled (editSpelling_frame _) (editSpelling_respelled _) (by decide)))

/-- R34: the wrap Space is a cell of the line. -/
theorem wrapSpace_lt {cells : List Cell} {i : Nat} (h : wrapSpace cells = some i) : i < cells.length := by
  have hm := List.mem_of_getLast? h
  exact List.mem_range.1 (List.mem_filter.1 hm).1

theorem cellsBefore_length (cells : List Cell) (i : Nat) : (cellsBefore cells i).length ≤ cells.length := by
  unfold cellsBefore; dsimp only
  exact Nat.le_trans (List.length_take_le' _ _) (List.length_take_le' _ _)

theorem wrapLine_keepsBounds (p : Port) (m : PetalMap) (c : Cell) {s : State} (h : s.line.phase ≠ .free) :
    keepsBounds s (wrapLine p m c s) := by
  unfold wrapLine; split
  · exact refuseStroke_keepsBounds _ _ s
  · rename_i i hi
    dsimp only; split
    · exact refuseStroke_keepsBounds _ _ s
    · have hw (carry : List Cell) (hy : carry.length ≤ s.line.cells.length) :
          keepsBounds s { s with line := { s.line with
            phase := .waiting, cells := cellsBefore s.line.cells i, cursor := (cellsBefore s.line.cells i).length,
            endCause := some .wrap, carry := some carry } } := by
        refine .of_line (fun f => ?_) rfl rfl
        obtain ⟨hp, hc, -, -, hr⟩ := f
        refine ⟨⟨fun e => (by cases e), fun e => absurd (hp.2 e) h⟩, Nat.le_trans (cellsBefore_length _ i) hc, ?_,
          Nat.le_refl _, hr⟩
        intro x hx; cases hx; exact Nat.le_trans hy hc
      refine (((hw _ ?_).trans (relayLine_keepsBounds _)).trans
        (.of_respelled (cutWords_frame _) (cutWords_respelled _) (by decide))).trans (lineEndSpelling_keepsBounds false _)
      have := wrapSpace_lt hi
      simp only [layFrom_length, List.length_append, List.length_drop, List.length_singleton]; omega

theorem lineCell_keepsBounds (p : Port) (m : PetalMap) (kind : CellKind) (code : Byte) (k : Stroke) {s : State}
    (h : s.line.phase ≠ .free) : keepsBounds s (lineCell p m kind code k s) := by
  have hr (c : Status) : keepsBounds s (refuseStroke p c s) := refuseStroke_keepsBounds p c s
  have hi (c : Cell) (edge : Nat) (b : Bool) : keepsBounds s
      (if Config.lineCells ≤ s.line.cells.length then refuseStroke p .full s
       else if b then ringBell edge (lineInsert c s) else lineInsert c s) := by
    split
    · exact hr _
    · rename_i hl
      have := lineInsert_keepsBounds c (Nat.lt_of_not_le hl)
      exact .ite (this.trans (ringBell_keepsBounds _ _)) this
  unfold lineCell; dsimp only; split
  · exact .ite (hr _) (hi _ _ _)
  · split
    · exact hi _ _ _
    · split
      · exact .ite (hr _) (hi _ _ _)
      · exact .ite (wrapLine_keepsBounds p m _ h) (hr _)

theorem lineDelete_keepsBounds (s : State) : keepsBounds s (lineDelete s) := by
  unfold lineDelete; split
  · exact .refl s
  · have hd (n : Nat) : keepsBounds s (relayLine { s with line := { s.line with
        cells := s.line.cells.eraseIdx (s.line.cursor - 1), cursor := s.line.cursor - 1, generation := n } }) := by
      refine .trans ?_ (relayLine_keepsBounds _)
      refine .of_line (fun f => ?_) rfl rfl
      obtain ⟨hp, hc, hy, hu, hr⟩ := f
      refine ⟨hp, Nat.le_trans (List.length_eraseIdx_le _ _) hc, hy, ?_, hr⟩
      have := List.le_length_eraseIdx s.line.cells (s.line.cursor - 1)
      show s.line.cursor - 1 ≤ (s.line.cells.eraseIdx (s.line.cursor - 1)).length
      omega
    exact (hd _).trans (.of_respelled (editSpelling_frame _) (editSpelling_respelled _) (by decide))

theorem moveCursor_keepsBounds {cursor : Nat} {s : State} (h : s.line.cursor ≤ s.line.cells.length → cursor ≤ s.line.cells.length) :
    keepsBounds s (moveCursor cursor s) := by
  refine .trans ?_ (relayLine_keepsBounds _)
  refine .of_line (fun f => ?_) rfl rfl
  obtain ⟨hp, hc, hy, hu, hr⟩ := f
  exact ⟨hp, hc, hy, h hu, hr⟩

theorem endByReturn_keepsBounds {s : State} (h : s.line.phase ≠ .free) : keepsBounds s (endByReturn s) := by
  have h1 : keepsBounds s (lineEndSpelling true
      { s with line := { s.line with endCause := some .carriageReturn }, holdTimer := none }) :=
    .trans (t := { s with line := { s.line with endCause := some .carriageReturn }, holdTimer := none })
      (.of_line id rfl rfl) (lineEndSpelling_keepsBounds true _)
  have hp : (lineEndSpelling true
      { s with line := { s.line with endCause := some .carriageReturn }, holdTimer := none }).line.phase ≠ .free := by
    rw [(lineEndSpelling_respelled true _).phase]; exact h
  refine h1.trans (.of_line (fun f => f.setPhase hp ?_) rfl rfl)
  split <;> decide

theorem composeLine_keepsBounds (p : Port) (m : PetalMap) (k : Stroke) {s : State} (h : s.line.phase ≠ .free) :
    keepsBounds s (composeLine p m k s) := by
  have hr (code : Status) : keepsBounds s (refuseStroke p code s) := refuseStroke_keepsBounds p code s
  unfold composeLine; split
  · exact lineCell_keepsBounds _ _ _ _ _ h
  · exact lineCell_keepsBounds _ _ _ _ _ h
  · exact lineCell_keepsBounds _ _ _ _ _ h
  · exact lineDelete_keepsBounds s
  · exact moveCursor_keepsBounds fun hu => Nat.le_trans (Nat.sub_le _ _) hu
  · exact moveCursor_keepsBounds fun _ => Nat.min_le_left _ _
  · exact .of_line id rfl rfl
  · exact .of_line id rfl rfl
  · exact endByReturn_keepsBounds h
  · exact hr _
  · exact hr _
  · exact hr _

theorem composeHeld_keepsBounds (p : Port) (m : PetalMap) (k : Stroke) {s : State} (h : s.line.phase ≠ .free) :
    keepsBounds s (composeHeld p m k s) := by
  have hc (ph : Phase) (hp : ph ≠ .free) : keepsBounds s { s with line := { s.line with phase := ph } } :=
    .of_line (fun f => f.setPhase h hp) rfl rfl
  unfold composeHeld; split
  · exact hc _ (by decide)
  · exact composeLine_keepsBounds _ _ _ h
  · exact composeLine_keepsBounds _ _ _ h
  · exact (hc .composing (by decide)).trans (composeLine_keepsBounds _ _ _ (fun e => by cases e))

/-- R26 to R39: what is composed is composed on a line that is claimed. -/
theorem composeTaken_keepsBounds (p : Port) (m : PetalMap) (k : Stroke) (s : State) :
    keepsBounds s (composeTaken p m k s) := by
  have h1 : keepsBounds s (if s.line.phase = .free then claim p s else s) := .ite (claim_keepsBounds p s) (.refl s)
  have hp : (if s.line.phase = .free then claim p s else s).line.phase ≠ .free := by
    split
    · rw [claim_phase]; decide
    · assumption
  unfold composeTaken; dsimp only
  exact .ite (refuseStroke_keepsBounds _ _ s) (.ite (h1.trans (composeDirect_keepsBounds _ _ _))
    (.ite (h1.trans (composeHeld_keepsBounds _ _ _ hp)) (h1.trans (composeLine_keepsBounds _ _ _ hp))))

/-! ### Conversion and the forced end -/

theorem conversionNotices_keepsBounds (p : Port) (m : PetalMap) (layout : Layout) (s : State) :
    keepsBounds s (conversionNotices p m layout s) := by
  have h : keepsBounds s ((missingCodes m layout.cells).foldl
      (fun t c => t.notice p (Notice.missingCharacter c s.line.serial)) s) :=
    .foldl _ (fun t _ => notice_keepsBounds t p rfl) _ s
  exact .ite (h.trans (notice_keepsBounds _ p rfl)) h

theorem afterConversion_keepsBounds (p : Port) (s : State) : keepsBounds s (afterConversion p s) := by
  unfold afterConversion; split
  · rename_i carry hy
    have h (n : Nat) (mode : EntryMode) (c : Composer) (hc : c.awaits = s.composer.awaits) (d : Display) :
        keepsBounds s { s with line := carriedLine p n mode carry, composer := c, display := d } := by
      refine .of_line (fun f => ?_) hc rfl
      obtain ⟨-, -, hc, -, -⟩ := f
      obtain ⟨kp, -, ky, -, kr⟩ := WorkingLine.fits_claimed p n mode
      exact ⟨kp, hc carry hy, ky, Nat.le_refl _, kr⟩
    exact ((h _ _ _ (by rfl) _).trans (relayLine_keepsBounds _)).trans
      (.of_respelled (rebuildWords_frame _ _) (rebuildWords_respelled _ _) (by decide))
  · exact (freeLine_keepsBounds p s).trans (setPosition_keepsBounds _ _)

theorem convertLine_keepsBounds (p : Port) (m : PetalMap) (s : State) : keepsBounds s (convertLine p m s) :=
  (((conversionNotices_keepsBounds p m _ s).trans (appendJob_keepsBounds _ _)).trans (startPrinting_keepsBounds _ _)).trans
    (afterConversion_keepsBounds p _)

theorem forceEnd_keepsBounds (p : Port) {s : State} (h : s.line.holder ≠ none) : keepsBounds s (forceEnd p s) := by
  have h1 : keepsBounds s (lineEndSpelling false { s with line := { s.line with endCause := some .forced } }) :=
    .trans (t := { s with line := { s.line with endCause := some .forced } }) (.of_line id rfl rfl)
      (lineEndSpelling_keepsBounds false _)
  have hh : (lineEndSpelling false { s with line := { s.line with endCause := some .forced } }).line.holder ≠ none := by
    rw [(lineEndSpelling_respelled false _).holder]; exact h
  refine keepsBounds.trans ?_ (notice_keepsBounds _ p rfl)
  exact h1.trans (.of_line (fun f => f.setPhase (fun e => hh (f.1.1 e)) (by decide)) rfl rfl)

end Sys2Proof.Machine

/-! SUPPORT. The bounds of the working line and of the Await places through the commands and the events, and with them the
two invariants. -/

namespace Sys2Proof.Machine

/-! ### The pending requests (R43, R45) -/

theorem keysNotice_line (r : AwaitRequest) (cause : Nat) (s : State) : (keysNotice r cause s).line = s.line := rfl

/-- A Keys Collected notice takes one place. -/
theorem keysNotice_load (r : AwaitRequest) (cause : Nat) (s : State) : awaitLoad (keysNotice r cause s) ≤ awaitLoad s + 1 := by
  rw [awaitLoad_eq, awaitLoad_eq, Nat.add_assoc]
  exact Nat.add_le_add_left (keysOf_notice_length s.link _ rfl) _

theorem foldl_keysNotice_line (cause : Nat) (l : List AwaitRequest) (s : State) :
    (l.foldl (fun t r => keysNotice r cause t) s).line = s.line := by
  induction l generalizing s with
  | nil => rfl
  | cons r l ih => exact ih _

theorem foldl_keysNotice_load (cause : Nat) (l : List AwaitRequest) (s : State) :
    awaitLoad (l.foldl (fun t r => keysNotice r cause t) s) ≤ awaitLoad s + l.length := by
  induction l generalizing s with
  | nil => exact Nat.le_refl _
  | cons r l ih =>
    have h := keysNotice_load r cause s
    have := ih (keysNotice r cause s)
    simp only [List.foldl_cons, List.length_cons]; omega

/-- R45: a request that completes leaves its place to its notice. -/
theorem completeAwait_keepsBounds (place : Nat) (r : AwaitRequest) (cause : Nat) {s : State}
    (h : place < s.composer.awaits.length) : keepsBounds s (completeAwait place r cause s) := by
  refine ⟨id, ?_⟩
  have hn := keysNotice_load r cause
    { s with composer := { s.composer with awaits := s.composer.awaits.eraseIdx place } }
  have hl := List.length_eraseIdx_of_lt h
  unfold completeAwait
  simp only [awaitLoad_eq] at hn ⊢
  omega

theorem cancelAwaits_keepsBounds (s : State) : keepsBounds s (cancelAwaits s) := by
  have hn := foldl_keysNotice_load 2 s.composer.awaits { s with composer := { s.composer with awaits := [] } }
  refine ⟨fun f => ?_, ?_⟩
  · unfold cancelAwaits; rw [foldl_keysNotice_line]; exact f
  · unfold cancelAwaits
    simp only [awaitLoad_eq, List.length_nil] at hn ⊢
    omega

theorem tickAwaits_keepsBounds (s : State) : keepsBounds s (tickAwaits s) := by
  rw [tickAwaits_eq]
  refine ⟨fun f => ?_, ?_⟩
  · rw [foldl_keysNotice_line]; exact f
  · refine Nat.le_trans (foldl_keysNotice_load 1 _ _) ?_
    have hs := (s.composer.awaits.map (·.less)).length_eq_length_filter_add (·.ended)
    rw [List.length_map] at hs
    simp only [awaitLoad_eq]; omega

theorem awaitExpiry_keepsBounds (place : Nat) (s : State) : keepsBounds s (awaitExpiry place s) := by
  unfold awaitExpiry; split
  · rename_i r hr
    exact .ite ((completeAwait_keepsBounds place r 1 (List.getElem?_eq_some_iff.1 hr).1).trans (finish_keepsBounds _))
      (.refl s)
  · exact .refl s

/-! ### The rings' doors -/

theorem joinRing_keepsBounds (p : Port) (strokes : List Stroke) (s : State) : keepsBounds s (joinRing p strokes s) := by
  have h (ring : List Stroke) : keepsBounds s { s with composer := s.composer.setRing p ring } :=
    .of_line id (by cases p <;> rfl) rfl
  have hp (u : State) : keepsBounds u (placedBy p u) := .ite (.of_line id rfl rfl) (.refl u)
  exact .ite (h _) ((h _).trans (hp _))

theorem joinRing_awaits (p : Port) (strokes : List Stroke) (s : State) :
    (joinRing p strokes s).composer.awaits = s.composer.awaits := by
  unfold joinRing placedBy; dsimp only; split
  · cases p <;> rfl
  · split <;> cases p <;> rfl

theorem echoStroke_keepsBounds (k : Stroke) (s : State) : keepsBounds s (echoStroke k s) :=
  .ite (joinRing_keepsBounds .console _ s) (.of_frame (State.tone_frame _ _) (by decide))

theorem echoStroke_awaits (k : Stroke) (s : State) : (echoStroke k s).composer.awaits = s.composer.awaits := by
  unfold echoStroke; split
  · exact joinRing_awaits _ _ s
  · rfl

theorem routeStroke_keepsBounds (k : Stroke) {r : AwaitRequest} {others : List AwaitRequest} {s : State}
    (h : s.composer.awaits = r :: others) : keepsBounds s (routeStroke k r others s) := by
  have h1 (r1 : AwaitRequest) : keepsBounds s { s with composer := { s.composer with awaits := r1 :: others } } :=
    ⟨id, by simp only [awaitLoad_eq, h, List.length_cons]; exact Nat.le_refl _⟩
  have h2 (u : State) (hu : keepsBounds s u) : keepsBounds s (if r.echo then echoStroke k u else u) :=
    .ite (hu.trans (echoStroke_keepsBounds k u)) hu
  have ha (u : State) : (if r.echo then echoStroke k u else u).composer.awaits = u.composer.awaits := by
    split
    · exact echoStroke_awaits k u
    · rfl
  refine .choice (fun _ => (h2 _ (h1 _)).trans (completeAwait_keepsBounds 0 _ 0 ?_)) (fun _ => h2 _ (h1 _))
  rw [ha]; exact Nat.succ_pos _

theorem cmdKeyStroke_keepsBounds (b0 b1 : Byte) (s : State) : keepsBounds s (cmdKeyStroke b0 b1 s).1 := by
  unfold cmdKeyStroke; split
  · exact .refl s
  · split
    · exact routeStroke_keepsBounds _ (by assumption)
    · split
      · exact joinRing_keepsBounds .console _ s
      · exact .of_frame (State.tone_frame _ _) (by decide)

theorem cmdTypeText_keepsBounds (text : List Byte) (s : State) : keepsBounds s (cmdTypeText text s).1 := by
  have h (u : State) (c : Composer) (hc : c.awaits = u.composer.awaits) : keepsBounds u { u with composer := c } :=
    .of_line id hc rfl
  unfold cmdTypeText; dsimp only; split
  · exact (joinRing_keepsBounds .link _ s).trans (h _ _ (by rfl))
  · exact .refl s

/-! ### Settings -/

theorem setPort_queue_keepsBounds {p : Port} {v : PortState} {s : State} (h : (keysOf v.queue).length ≤ (keysOf (s.port p).queue).length) :
    keepsBounds s (s.setPort p v) := by
  cases p
  · exact .of_line id rfl rfl
  · exact ⟨id, Nat.add_le_add_left h _⟩

theorem stopHolding_keepsBounds (s : State) : keepsBounds s (stopHolding s) := by
  refine .choice (fun h => .of_line (fun f => f.setPhase (fun e => ?_) (by decide)) rfl rfl) (fun _ => .refl s)
  rw [e] at h; simp at h

theorem spellingStored_keepsBounds (p : Port) (on : Bool) (s : State) : keepsBounds s (spellingStored p on s) := by
  have hd : keepsBounds s (dropLineSpelling s.line.serial s) := .of_frame (dropLineSpelling_frame _ s) (by decide)
  have hw (u : State) (w : List WordRecord) : keepsBounds u { u with line := { u.line with words := w } } :=
    .of_line id rfl rfl
  exact .ite (.ite (hd.trans (.of_respelled (rebuildWords_frame _ _) (rebuildWords_respelled _ _) (by decide)))
    ((hd.trans (hw _ _)).trans (stopHolding_keepsBounds _))) (.refl s)

theorem storeSwitch_keepsBounds (o : OptionId) (p : Port) (v : Bool) (s : State) : keepsBounds s (storeSwitch o p v s) := by
  have ho (x : Options) : keepsBounds s { s with options := x } := .of_line id rfl rfl
  have hf (x : FormatRecord) : keepsBounds s { s with format := x } := .of_line id rfl rfl
  cases o with
  | entryMode => exact ho _
  | keyboardSharing => exact .ite (ho _) ((ho _).trans (cancelAwaits_keepsBounds _))
  | spelling => exact ((ho _).trans (spellingStored_keepsBounds .console v _)).trans (settle_keepsBounds _)
  | spellHold => exact .ite (ho _) ((ho _).trans (stopHolding_keepsBounds _))
  | doneTone => exact ho _
  | linkSpelling => exact ((ho _).trans (spellingStored_keepsBounds .link v _)).trans (settle_keepsBounds _)
  | wrap => exact hf _
  | justify => exact hf _
  | restDelay => exact .refl s
  | holdLimit => exact .refl s

theorem storeNumber_keepsBounds (o : OptionId) (n : Nat) (s : State) : keepsBounds s (storeNumber o n s) := by
  have ho (x : Options) : keepsBounds s { s with options := x } := .of_line id rfl rfl
  unfold storeNumber; split
  · exact (ho _).trans (.of_frame (restartRest_frame _) (by decide))
  · exact ho _
  · exact .refl s

theorem cmdSetOption_keepsBounds (p : Port) (id : Byte) (value : Half) (s : State) :
    keepsBounds s (cmdSetOption p id value s).1 := by
  unfold cmdSetOption; split
  · exact .refl s
  · split
    · exact .refl s
    · split
      · exact storeNumber_keepsBounds _ _ s
      · split
        · exact .refl s
        · exact storeSwitch_keepsBounds _ p _ s

theorem cmdReadStatus_keepsBounds (p : Port) (s : State) : keepsBounds s (cmdReadStatus p s).1 := by
  have h (r : RefusalRecord) : keepsBounds s { s with composer := s.composer.setRefusals p r } :=
    .of_line id (by cases p <;> rfl) rfl
  refine (h _).trans (setPort_queue_keepsBounds ?_)
  cases p <;> exact Nat.le_refl _

theorem cmdSetNotices_keepsBounds (p : Port) (b0 b1 b2 : Byte) (s : State) : keepsBounds s (cmdSetNotices p b0 b1 b2 s).1 := by
  unfold cmdSetNotices; split
  · exact .refl s
  · exact setPort_queue_keepsBounds (Nat.le_refl _)

theorem cmdPartition_keepsBounds (a b c d : Half) (s : State) : keepsBounds s (cmdPartition a b c d s).1 := by
  have hp (q : Partition) : keepsBounds s { s with partition := q } := .of_line id rfl rfl
  have hs (u : State) (x : Spelling) : keepsBounds u { u with spelling := x } := .of_line id rfl rfl
  unfold cmdPartition; dsimp only; split
  · exact .refl s
  · split
    · exact .refl s
    · split
      · exact .refl s
      · exact ((hp _).trans (emptyMemory_keepsBounds _)).trans (hs _ _)

/-! ### Formats -/

theorem setFormat_keepsBounds (f : FormatRecord) (s : State) : keepsBounds s (setFormat f s) :=
  have h : keepsBounds s { s with format := f } := .of_line id rfl rfl
  h.trans (relayLine_keepsBounds _)

/-- R42: a Format command does what it does to a line it may change, or nothing. -/
theorem formatCommand_keepsBounds (p : Port) {act : State → State × Reply} {s : State} (h : keepsBounds s (act s).1) :
    keepsBounds s (formatCommand p act s).1 := by
  unfold formatCommand; split
  · exact h
  · exact .refl s

theorem cmdSetMargins_keepsBounds (p : Port) (left right : Half) (s : State) :
    keepsBounds s (cmdSetMargins p left right s).1 := by
  have hm : keepsBounds s (marginsMoved s) := .ite (.of_line id rfl rfl) (.refl s)
  refine formatCommand_keepsBounds p ?_
  split
  · exact hm.trans (setFormat_keepsBounds _ _)
  · exact .refl s

theorem cmdSetTab_keepsBounds (p : Port) (x : Half) (s : State) : keepsBounds s (cmdSetTab p x s).1 := by
  refine formatCommand_keepsBounds p ?_
  dsimp only; split
  · exact .refl s
  · split
    · exact .refl s
    · split
      · exact .refl s
      · exact setFormat_keepsBounds _ s

theorem cmdClearTab_keepsBounds (p : Port) (x : Half) (s : State) : keepsBounds s (cmdClearTab p x s).1 := by
  refine formatCommand_keepsBounds p ?_
  dsimp only; split
  · exact setFormat_keepsBounds _ s
  · exact .refl s

theorem cmdSetSpacing_keepsBounds (p : Port) (v : Byte) (s : State) : keepsBounds s (cmdSetSpacing p v s).1 := by
  refine formatCommand_keepsBounds p ?_
  split
  · exact setFormat_keepsBounds _ s
  · exact .refl s

theorem cmdSetImpression_keepsBounds (p : Port) (v : Byte) (s : State) : keepsBounds s (cmdSetImpression p v s).1 := by
  refine formatCommand_keepsBounds p ?_
  split
  · exact setFormat_keepsBounds _ s
  · exact .refl s

/-! ### Commands of the Strike Engine and the Lift Unit -/

theorem cmdFeed_keepsBounds (p : Port) (n : Byte) (s : State) : keepsBounds s (cmdFeed p n s).1 := by
  unfold cmdFeed; split
  · exact .refl s
  · dsimp only; split
    · exact .refl s
    · exact appendJob_keepsBounds _ s

theorem cmdFormFeed_keepsBounds (p : Port) (s : State) : keepsBounds s (cmdFormFeed p s).1 := by
  unfold cmdFormFeed; split
  · exact .refl s
  · exact appendJob_keepsBounds _ s

theorem startFullHoming_keepsBounds (s : State) : keepsBounds s (startFullHoming s) := .of_line id rfl rfl

theorem cmdRehome_keepsBounds (s : State) : keepsBounds s (cmdRehome s).1 := by
  unfold cmdRehome; split
  · exact .refl s
  · split
    · exact startFullHoming_keepsBounds s
    · exact .refl s

theorem cmdWheelChange_keepsBounds (s : State) : keepsBounds s (cmdWheelChange s).1 := by
  unfold cmdWheelChange; split
  · exact .refl s
  · split
    · exact .of_line id rfl rfl
    · exact .refl s

theorem cmdWheelMounted_keepsBounds (s : State) : keepsBounds s (cmdWheelMounted s).1 := by
  have h : keepsBounds s (startWheelHoming false s) := .of_line id rfl rfl
  unfold cmdWheelMounted; split
  · split
    · exact .refl s
    · exact h
  · split
    · exact h
    · exact .refl s

theorem leaveSupplyOut_keepsBounds (s : State) : keepsBounds s (leaveSupplyOut s) := by
  have he (e : Engine) : keepsBounds s { s with engine := e, restTimer := none } := .of_line id rfl rfl
  unfold leaveSupplyOut; split
  · exact .ite ((he _).trans (goOn_keepsBounds _)) (enterReady_keepsBounds s)
  · exact enterReady_keepsBounds s

theorem cmdLoadSupply_keepsBounds (kind : Byte) (ribbon tape : Half) (s : State) :
    keepsBounds s (cmdLoadSupply kind ribbon tape s).1 := by
  have he (e : Engine) : keepsBounds s { s with engine := e } := .of_line id rfl rfl
  have hs (k : RibbonKind) : keepsBounds s (setSupply k ribbon.toNat tape.toNat s) :=
    .ite ((he _).trans (supplyLow_keepsBounds _)) (he _)
  unfold cmdLoadSupply; split
  · exact .refl s
  · exact .ite (((hs _).trans (leaveSupplyOut_keepsBounds _)).trans (settle_keepsBounds _)) (hs _)

theorem takeLift_keepsBounds (p : Port) (command : LiftCommand) (reference : Option Nat) (s : State) :
    keepsBounds s (takeLift p command reference s).1 := by
  unfold takeLift; split
  · exact .refl s
  · exact appendJob_keepsBounds _ s

theorem cmdLiftBack_keepsBounds (p : Port) (n : Byte) (x : Half) (s : State) : keepsBounds s (cmdLiftBack p n x s).1 := by
  unfold cmdLiftBack; split
  · exact .refl s
  · split
    · exact .refl s
    · split
      · exact .refl s
      · split
        · exact .refl s
        · split
          · exact .refl s
          · exact appendJob_keepsBounds _ s

theorem cmdRelocate_keepsBounds (s : State) : keepsBounds s (cmdRelocate s).1 := by
  unfold cmdRelocate; split
  · exact .refl s
  · split
    · exact .refl s
    · split
      · exact .refl s
      · exact appendJob_keepsBounds _ s

/-! ### Spelling commands and overlays -/

theorem cmdIgnoreSuspect_keepsBounds (i : Byte) (s : State) : keepsBounds s (cmdIgnoreSuspect i s).1 := by
  have hs (x : Spelling) : keepsBounds s { s with spelling := x } := .of_line id rfl rfl
  have hg (x : Suspect) (u : State) : keepsBounds u (goodWord x u) := .ite (.of_line id rfl rfl) (.refl u)
  unfold cmdIgnoreSuspect; split
  · exact (hs _).trans (hg _ _)
  · exact .refl s

theorem addLetters_keepsBounds (letters : List Byte) (s : State) : keepsBounds s (addLetters letters s).1 := by
  have hw (u : State) : keepsBounds u (withdrawWord letters u) := .of_line id rfl rfl
  have hs (x : Spelling) : keepsBounds s { s with spelling := x } := .of_line id rfl rfl
  unfold addLetters; split
  · exact .refl s
  · split
    · exact hw s
    · split
      · exact .refl s
      · exact (hs _).trans (hw _)

theorem cmdAddWordByIndex_keepsBounds (i : Byte) (s : State) : keepsBounds s (cmdAddWordByIndex i s).1 := by
  unfold cmdAddWordByIndex; split
  · exact .refl s
  · split
    · exact addLetters_keepsBounds _ s
    · exact .refl s

theorem cmdAddWord_keepsBounds (letters : List Byte) (s : State) : keepsBounds s (cmdAddWord letters s).1 := by
  unfold cmdAddWord; split
  · exact .refl s
  · exact addLetters_keepsBounds _ s

theorem cmdRemoveWord_keepsBounds (letters : List Byte) (s : State) : keepsBounds s (cmdRemoveWord letters s).1 := by
  unfold cmdRemoveWord; split
  · exact .refl s
  · split
    · exact .refl s
    · split
      · exact .of_line id rfl rfl
      · exact .refl s

theorem cmdSaveUserWords_keepsBounds (p : Port) (s : State) : keepsBounds s (cmdSaveUserWords p s).1 := by
  have k (st : Store) : keepsBounds s { s with store := st } := .of_line id rfl rfl
  unfold cmdSaveUserWords; split
  · exact .refl s
  · exact .refl s
  · exact .refl s
  · split
    · exact .refl s
    · split
      · exact .refl s
      · split
        · exact .refl s
        · exact (k _).trans (.of_frame (arbitrate_frame _) (by decide))

theorem cmdCheckWord_keepsBounds (letters : List Byte) (s : State) : keepsBounds s (cmdCheckWord letters s).1 := by
  have hs (x : Spelling) : keepsBounds s { s with spelling := x } := .of_line id rfl rfl
  unfold cmdCheckWord; dsimp only; split
  · exact .refl s
  · split
    · exact .refl s
    · split
      · exact (hs _).trans (notice_keepsBounds _ .link rfl)
      · exact (hs _).trans (settle_keepsBounds _)

theorem cmdShowMessage_keepsBounds (p : Port) (d : Byte) (text : List Byte) (s : State) :
    keepsBounds s (cmdShowMessage p d text s).1 := by
  have hd (q : Port) (u : State) : keepsBounds u (placeOverlay q d text u) := .of_line id rfl rfl
  unfold cmdShowMessage; split
  · exact .refl s
  · split
    · exact .refl s
    · split
      · exact (keepsBounds.ite (notice_keepsBounds s .link rfl) (.refl s)).trans (hd _ _)
      · split
        · exact .refl s
        · exact hd _ s

theorem cmdClearMessage_keepsBounds (p : Port) (s : State) : keepsBounds s (cmdClearMessage p s).1 := by
  unfold cmdClearMessage; split
  · exact .of_line id rfl rfl
  · exact .refl s

theorem cmdSetTones_keepsBounds (tone divider duty : Byte) (s : State) : keepsBounds s (cmdSetTones tone divider duty s).1 := by
  unfold cmdSetTones; split
  · exact .of_line id rfl rfl
  · exact .refl s

theorem cmdReleaseLine_keepsBounds (p : Port) (s : State) : keepsBounds s (cmdReleaseLine p s).1 := by
  unfold cmdReleaseLine; split
  · exact .refl s
  · split
    · exact .refl s
    · split
      · exact .refl s
      · exact (discardLine_keepsBounds s).trans (settle_keepsBounds _)

theorem cmdRestart_keepsBounds (s : State) : keepsBounds s (cmdRestart s).1 := by
  have hp : keepsBounds s (restartPorts s) := ⟨id, Nat.add_le_add_left (Nat.zero_le _) _⟩
  have hr (u : State) (j : Job) : keepsBounds u (restartReport u j) := .ite (.refl u) (notice_keepsBounds u j.source rfl)
  have hq (u : State) : keepsBounds u (restartQueue u) :=
    (keepsBounds.foldl restartReport hr u.engine.queue u).trans (.of_line id rfl rfl)
  have hc (u : State) : keepsBounds u (restartComposer u) :=
    (cancelAwaits_keepsBounds u).trans (.of_line (fun _ => WorkingLine.fits_free) rfl rfl)
  have hk (u : State) : keepsBounds u (keepColumn u) := .of_line id rfl rfl
  have h2 (u : State) : keepsBounds u (restartRest2 u) := (emptyMemory_keepsBounds u).trans (.of_line id rfl rfl)
  have h3 (u : State) : keepsBounds u (startStartUp u) := .of_line id rfl rfl
  exact (((((hp.trans (hq _)).trans (hc _)).trans (hk _)).trans (startFullHoming_keepsBounds _)).trans (h2 _)).trans (h3 _)

/-! ### Every command -/

/-- What the invariants of the line and of the Await places keep. -/
def keepsInvariants (s t : State) : Prop := (lineInv s → lineInv t) ∧ (awaitInv s → awaitInv t)

theorem keepsBounds.keepsInvariants {s t : State} (h : keepsBounds s t) : keepsInvariants s t :=
  ⟨h.1, fun a => Nat.le_trans h.2 a⟩

/-- R43: a request is posted only where a place is free. -/
theorem cmdAwaitKeys_keepsInvariants (wanted : Byte) (timeout : Half) (echo : Byte) (s : State) :
    keepsInvariants s (cmdAwaitKeys wanted timeout echo s).1 := by
  unfold cmdAwaitKeys; split
  · exact (keepsBounds.refl s).keepsInvariants
  · split
    · exact (keepsBounds.refl s).keepsInvariants
    · rename_i h
      split
      · exact (keepsBounds.refl s).keepsInvariants
      · refine ⟨id, fun _ => ?_⟩
        unfold awaitInv
        simp only [awaitLoad_eq, List.length_append, List.length_singleton] at h ⊢
        omega

/-- R174: whatever a command's owner does, it keeps both. -/
theorem owner_keepsInvariants {c : Instr} {f : State → State × Reply} (h : ownerOf c = some f) (s : State) :
    keepsInvariants s (f s).1 := by
  cases c <;> cases h
  case awaitKeys => exact cmdAwaitKeys_keepsInvariants _ _ _ s
  all_goals refine keepsBounds.keepsInvariants ?_
  case readStatus => exact cmdReadStatus_keepsBounds _ s
  case setNotices => exact cmdSetNotices_keepsBounds _ _ _ _ s
  case setOption => exact cmdSetOption_keepsBounds _ _ _ s
  case partition => exact cmdPartition_keepsBounds _ _ _ _ s
  case restart => exact cmdRestart_keepsBounds s
  case keyStroke => exact cmdKeyStroke_keepsBounds _ _ s
  case typeText => exact cmdTypeText_keepsBounds _ s
  case releaseLine => exact cmdReleaseLine_keepsBounds _ s
  case cancelAwait => exact cancelAwaits_keepsBounds s
  case setMargins => exact cmdSetMargins_keepsBounds _ _ _ s
  case setTab => exact cmdSetTab_keepsBounds _ _ s
  case clearTab => exact cmdClearTab_keepsBounds _ _ s
  case clearAllTabs => exact formatCommand_keepsBounds _ (setFormat_keepsBounds _ s)
  case setSpacing => exact cmdSetSpacing_keepsBounds _ _ s
  case setLineSpacing => exact formatCommand_keepsBounds _ (setFormat_keepsBounds _ s)
  case setImpression => exact cmdSetImpression_keepsBounds _ _ s
  case setMarginZone => exact formatCommand_keepsBounds _ (setFormat_keepsBounds _ s)
  case setPageLength => exact formatCommand_keepsBounds _ (setFormat_keepsBounds _ s)
  case readFormat => exact .refl s
  case feed => exact cmdFeed_keepsBounds _ _ s
  case formFeed => exact cmdFormFeed_keepsBounds _ s
  case cancelPrinting => exact (cancelJobs_keepsBounds _ s).trans (settle_keepsBounds _)
  case rehome => exact cmdRehome_keepsBounds s
  case wheelChange => exact cmdWheelChange_keepsBounds s
  case wheelMounted => exact cmdWheelMounted_keepsBounds s
  case loadSupply => exact cmdLoadSupply_keepsBounds _ _ _ s
  case liftLast => exact takeLift_keepsBounds _ _ _ s
  case liftWord => exact takeLift_keepsBounds _ _ _ s
  case liftLine => exact takeLift_keepsBounds _ _ _ s
  case liftBack => exact cmdLiftBack_keepsBounds _ _ _ s
  case retractLine => exact takeLift_keepsBounds _ _ _ s
  case relocate => exact cmdRelocate_keepsBounds s
  case readSuspect => unfold cmdReadSuspect; split <;> exact .refl s
  case ignoreSuspect => exact cmdIgnoreSuspect_keepsBounds _ s
  case addWordByIndex => exact cmdAddWordByIndex_keepsBounds _ s
  case addWord => exact cmdAddWord_keepsBounds _ s
  case removeWord => exact cmdRemoveWord_keepsBounds _ s
  case saveUserWords => exact cmdSaveUserWords_keepsBounds _ s
  case checkWord => exact cmdCheckWord_keepsBounds _ s
  case showMessage => exact cmdShowMessage_keepsBounds _ _ _ s
  case clearMessage => exact cmdClearMessage_keepsBounds _ s
  case setTones => exact cmdSetTones_keepsBounds _ _ _ s

/-! ### Every event -/

theorem refuseBlock_keepsBounds (p : Port) (code : Byte) (st : Status) (s : State) :
    keepsBounds s (finish (refuseBlock p code st s)) :=
  ((quietly.setPort (v := { s.port p with assembly := [], gap := none, inHand := true }) rfl).keepsBounds.trans
    (reply_keepsBounds _ p code _)).trans (finish_keepsBounds _)

/-- R174, R175: a block whose owner keeps the invariants keeps them. -/
theorem owned_keepsInvariants (p : Port) (code : Byte) {f : State → State × Reply}
    (hf : ∀ u, keepsInvariants u (f u).1) (s : State) :
    keepsInvariants s (finish ((f (taken p s)).1.reply p code (f (taken p s)).2)) := by
  have h1 := (taken_keepsBounds p s).keepsInvariants
  have h2 := hf (taken p s)
  have h3 := ((reply_keepsBounds (f (taken p s)).1 p code (f (taken p s)).2).trans (finish_keepsBounds _)).keepsInvariants
  exact ⟨fun h => h3.1 (h2.1 (h1.1 h)), fun h => h3.2 (h2.2 (h1.2 h))⟩

theorem checked_keepsBounds (p : Port) (code : Byte) (r : Reply) (s : State) :
    keepsBounds s (finish ((taken p s).reply p code r)) :=
  ((taken_keepsBounds p s).trans (reply_keepsBounds _ p code r)).trans (finish_keepsBounds _)

theorem takeBlock_keepsInvariants (p : Port) (code : Byte) (count : Nat) {f : State → State × Reply}
    (hf : ∀ u, keepsInvariants u (f u).1) (s : State) : keepsInvariants s (takeBlock p code count f s) := by
  unfold takeBlock; dsimp only; split
  · exact (checked_keepsBounds p code _ s).keepsInvariants
  · exact owned_keepsInvariants p code hf s

theorem offer_keepsInvariants (p : Port) (code : Byte) (count : Nat) {f : State → State × Reply}
    (hf : ∀ u, keepsInvariants u (f u).1) (s : State) : keepsInvariants s (offer p code count f s) :=
  offer_keeps (P := keepsInvariants s) (keepsBounds.refl s).keepsInvariants (loseByte_quietly p s).keepsBounds.keepsInvariants
    (fun st => (refuseBlock_keepsBounds p code st s).keepsInvariants)
    (fun st => (checked_keepsBounds p code (.plain st) s).keepsInvariants) (owned_keepsInvariants p code hf s)

theorem blockOwner_keepsInvariants (p : Port) (code : Byte) (data : List Byte) (s : State) :
    keepsInvariants s (blockOwner p code data s).1 := by
  cases h : (decodeBlock p code data).bind ownerOf with
  | none =>
    have e : blockOwner p code data = refuse .length := by rw [blockOwner, h]
    rw [e]; exact (keepsBounds.refl s).keepsInvariants
  | some f =>
    have e : blockOwner p code data = f := by rw [blockOwner, h]
    obtain ⟨c, -, hc⟩ := Option.bind_eq_some_iff.1 h
    rw [e]; exact owner_keepsInvariants hc s

theorem writeByte_keepsInvariants (p : Port) (b : Byte) (s : State) : keepsInvariants s (writeByte p b s) := by
  have ha (bytes : List Byte) : keepsInvariants s (assemble p bytes s) :=
    (quietly.setPort (v := { s.port p with assembly := bytes, gap := some Config.gapLimit }) rfl).keepsBounds.keepsInvariants
  unfold writeByte takeByte; split
  · exact (keepsBounds.refl s).keepsInvariants
  · split
    · exact (loseByte_quietly p s).keepsBounds.keepsInvariants
    · split
      · split
        · exact (refuseBlock_keepsBounds p _ _ s).keepsInvariants
        · split
          · exact ha _
          · split
            · exact takeBlock_keepsInvariants p _ _ (blockOwner_keepsInvariants p _ _) s
            · exact (refuseBlock_keepsBounds p _ _ s).keepsInvariants
      · exact ha _

theorem readOut_queue (v : PortState) (b : Block) (taken : Nat) : (v.readOut b taken).queue = v.queue := by
  unfold PortState.readOut; dsimp only; split <;> rfl

/-- R177: reading takes at most a block from the queue. -/
theorem read_keepsBounds (p : Port) (s : State) : keepsBounds s (s.setPort p (s.port p).read) := by
  refine setPort_queue_keepsBounds ?_
  unfold PortState.read; split
  · exact Nat.le_refl _
  · split
    · rw [readOut_queue]
    · rename_i b rest _ hq
      rw [readOut_queue, hq]
      exact ((List.sublist_cons_self b rest).filter _).length_le
    · exact Nat.le_refl _

theorem gapExpiry_keepsBounds (p : Port) (s : State) : keepsBounds s (gapExpiry p s) := by
  unfold gapExpiry; split
  · exact refuseBlock_keepsBounds p _ _ s
  · exact .refl s

theorem resetHeldLine_keepsBounds (p : Port) (s : State) : keepsBounds s (resetHeldLine p s) := by
  have hf : keepsBounds s (setFragment p none s) := .of_frame (setFragment_frame p none s) (by decide)
  have hr (u : State) : keepsBounds u (performRelocate u) :=
    .ite (.refl u) (.ite (appendJob_keepsBounds _ u) (.of_line id rfl rfl))
  have hd (u : State) (d : Display) : keepsBounds u { u with display := d } := .of_line id rfl rfl
  have hj (u : State) : keepsBounds u { u with line := { u.line with joined := none } } := .of_line id rfl rfl
  exact .ite (.ite ((hf.trans (hd _ _)).trans (hr _)) ((hf.trans (hj _)).trans (discardLine_keepsBounds _))) hf

theorem resetStrokes_keepsBounds (p : Port) (s : State) : keepsBounds s (resetStrokes p s) := by
  cases p
  · exact .of_line id rfl rfl
  · exact ⟨id, Nat.add_le_add_right (Nat.zero_le _) _⟩

theorem resetPort_keepsBounds (p : Port) (s : State) : keepsBounds s (resetPort p s) := by
  have hp : keepsBounds s (restartRest (s.setPort p (s.port p).resetInput)) :=
    (setPort_queue_keepsBounds (Nat.zero_le _)).trans (.of_frame (restartRest_frame _) (by decide))
  have hq (u : State) : keepsBounds u (if p = .link then dropQueries u else u) := .ite (.of_line id rfl rfl) (.refl u)
  have ho (u : State) : keepsBounds u (if ownsOverlay p u then dropOverlay u else u) := .ite (.of_line id rfl rfl) (.refl u)
  unfold resetPort; dsimp only
  exact ((((hp.trans (resetHeldLine_keepsBounds p _)).trans (resetStrokes_keepsBounds p _)).trans (hq _)).trans
    (ho _)).trans (endStep_keepsBounds _)

theorem composeStep_keepsBounds (s : State) : keepsBounds s (composeStep s) := by
  unfold composeStep; split
  · rename_i p m _ _
    split
    · rename_i k rest _
      have hr : keepsBounds s { s with composer := s.composer.setRing p rest } := .of_line id (by cases p <;> rfl) rfl
      exact (hr.trans (composeTaken_keepsBounds p m k _)).trans (endStep_keepsBounds _)
    · exact .refl s
  · exact .refl s

theorem convertStep_keepsBounds (s : State) : keepsBounds s (convertStep s) := by
  unfold convertStep; split
  · exact (keepsBounds.ite (releaseDirect_keepsBounds s) (convertLine_keepsBounds _ _ s)).trans (endStep_keepsBounds _)
  · exact .refl s

theorem holdExpiry_keepsBounds (s : State) : keepsBounds s (holdExpiry s) := by
  unfold holdExpiry; split
  · rename_i p _ hp
    have h : keepsBounds s { s with holdTimer := none } := .of_line id rfl rfl
    exact (h.trans (forceEnd_keepsBounds p (by rw [hp]; exact nofun))).trans (endStep_keepsBounds _)
  · exact .refl s

theorem motionEnded_keepsBounds (s : State) : keepsBounds s (motionEnded s) := by
  unfold motionEnded; split
  · split
    · exact orderDone_keepsBounds s
    · exact .of_line id rfl rfl
    · exact .refl s
  · exact .refl s

theorem wheelSettled_keepsBounds (s : State) : keepsBounds s (wheelSettled s) := by
  have he (e : Engine) : keepsBounds s { s with engine := e } := .of_line id rfl rfl
  unfold wheelSettled; split
  · exact ((he _).trans (motionEnded_keepsBounds _)).trans (endStep_keepsBounds _)
  · exact .refl s

theorem carrierArrived_keepsBounds (s : State) : keepsBounds s (carrierArrived s) := by
  have he (e : Engine) : keepsBounds s { s with engine := e } := .of_line id rfl rfl
  unfold carrierArrived; split
  · exact ((he _).trans (motionEnded_keepsBounds _)).trans (endStep_keepsBounds _)
  · exact .refl s

theorem completeBlow_keepsBounds (s : State) : keepsBounds s (completeBlow s) := by
  unfold completeBlow; split
  · exact (completeStrike_keepsBounds _ s).trans (orderDone_keepsBounds _)
  · exact (completeLift_keepsBounds _ _ s).trans (orderDone_keepsBounds _)
  · exact .refl s

theorem hammerReturned_keepsBounds (s : State) : keepsBounds s (hammerReturned s) := by
  have he (e : Engine) : keepsBounds s { s with engine := e } := .of_line id rfl rfl
  unfold hammerReturned; split
  · exact ((he _).trans (completeBlow_keepsBounds _)).trans (endStep_keepsBounds _)
  · exact .refl s
  · exact .refl s

theorem platenStopped_keepsBounds (s : State) : keepsBounds s (platenStopped s) := by
  have he (e : Engine) : keepsBounds s { s with engine := e } := .of_line id rfl rfl
  unfold platenStopped; split
  · exact (((he _).trans (completeFeed_keepsBounds _ _)).trans (orderDone_keepsBounds _)).trans (endStep_keepsBounds _)
  · exact (((he _).trans (completeEject_keepsBounds _)).trans (orderDone_keepsBounds _)).trans (endStep_keepsBounds _)
  · exact .refl s

theorem askTable_keepsBounds (hub : Nat) (s : State) : keepsBounds s (askTable hub s) :=
  .ite (homingRefused_keepsBounds 0 2 s) (requestTable_keepsBounds hub s)

theorem wakeFound_keepsBounds (hub : Nat) (s : State) : keepsBounds s (wakeFound hub s) := by
  have he (u : State) (e : Engine) : keepsBounds u { u with engine := e } := .of_line id rfl rfl
  have hk (u : State) : keepsBounds u (keepColumn u) := .of_line id rfl rfl
  unfold wakeFound; split
  · exact .ite (homingLoaded_keepsBounds _ false s)
      ((((cancelJobs_keepsBounds .console s).trans (hk _)).trans (he _ _)).trans (askTable_keepsBounds hub _))
  · exact askTable_keepsBounds hub s

theorem indexFound_keepsBounds (hub : BitVec 6) (s : State) : keepsBounds s (indexFound hub s) := by
  have he (u : State) (e : Engine) : keepsBounds u { u with engine := e } := .of_line id rfl rfl
  have hn (u : State) : keepsBounds u (newPage u) := (he u _).trans (emptyMemory_keepsBounds _)
  have hr (h : Homing) (n : Nat) (u : State) : keepsBounds u (hubRead h n u) :=
    .ite (((he u _).trans (hn _)).trans (askTable_keepsBounds n _))
      (.ite ((he u _).trans (wakeFound_keepsBounds n _)) ((he u _).trans (askTable_keepsBounds n _)))
  unfold indexFound; split
  · exact .ite ((hr _ _ s).trans (endStep_keepsBounds _)) (.refl s)
  · exact .refl s

theorem storeOpDone_keepsBounds (bytes : List Byte) (s : State) : keepsBounds s (storeOpDone bytes s) := by
  have k (st : Store) : keepsBounds s { s with store := st } := .of_line id rfl rfl
  unfold storeOpDone; split
  · exact .refl s
  · split
    · refine keepsBounds.trans ?_ (endStep_keepsBounds _)
      dsimp only; split
      · exact (k _).trans (startUpStep_keepsBounds bytes _)
      · exact (k _).trans (wheelRead_keepsBounds bytes _)
      · exact (k _).trans (saveStepDone_keepsBounds _)
      · exact (k _).trans (lookupRead_keepsBounds bytes _)
    · exact .refl s

theorem faultWhen_keepsBounds (b : Bool) (cause : FaultCause) (s : State) : keepsBounds s (faultWhen b cause s) :=
  .ite ((enterFault_keepsBounds cause s).trans (endStep_keepsBounds _)) (.refl s)

theorem restExpiry_keepsBounds (s : State) : keepsBounds s (restExpiry s) := by
  have he (e : Engine) : keepsBounds s { s with engine := e, restTimer := none } := .of_line id rfl rfl
  exact .ite ((he _).trans (finish_keepsBounds _)) (.refl s)

theorem overlayEnd_keepsBounds (s : State) : keepsBounds s (overlayEnd s) := by
  have hd : keepsBounds s (dropOverlay s) := .of_line id rfl rfl
  unfold overlayEnd; split
  · exact .ite (hd.trans (finish_keepsBounds _)) (.refl s)
  · exact .refl s

theorem reset_keepsInvariants (s : State) : keepsInvariants s { State.reset with pending := s.pending } :=
  ⟨fun _ => WorkingLine.fits_free, fun _ => show awaitLoad _ ≤ 4 by exact Nat.zero_le _⟩

/-- An event that is none of the resets and writes no byte keeps the bounds. -/
theorem eventOf_keepsInvariants (c : Instr) (s : State) : keepsInvariants s (eventOf c s) := by
  cases c
  case powerOn => exact reset_keepsInvariants s
  case resetLine => exact reset_keepsInvariants s
  case dataWrite p b => exact writeByte_keepsInvariants p b s
  all_goals refine keepsBounds.keepsInvariants ?_
  case portReset p => exact resetPort_keepsBounds p s
  case dataRead p => exact read_keepsBounds p s
  case statusRead p => exact (quietly.setPort (v := (s.port p).readStatus) rfl).keepsBounds
  case resetInputRelease p =>
    exact (quietly.setPort (v := { s.port p with resetAsserted := false }) rfl).keepsBounds
  case gapTimerExpiry p => exact gapExpiry_keepsBounds p s
  case composeStroke => exact composeStep_keepsBounds s
  case lineConversion => exact convertStep_keepsBounds s
  case jobStart => exact (startJob_keepsBounds s).trans (endStep_keepsBounds _)
  case wheelSettled => exact wheelSettled_keepsBounds s
  case carrierArrived => exact carrierArrived_keepsBounds s
  case hammerPulseEnd => exact (hammerPulseEnd_quietly s).keepsBounds
  case hammerReturned => exact hammerReturned_keepsBounds s
  case tapeRaised => exact (tapeRaised_quietly s).keepsBounds
  case platenStopped => exact platenStopped_keepsBounds s
  case homeReached => exact (homeReached_quietly s).keepsBounds
  case indexFound hub => exact indexFound_keepsBounds hub s
  case wheelLimitExpiry => exact faultWhen_keepsBounds _ _ s
  case carrierLimitExpiry => exact faultWhen_keepsBounds _ _ s
  case hammerLimitExpiry => exact faultWhen_keepsBounds _ _ s
  case tapeLimitExpiry => exact faultWhen_keepsBounds _ _ s
  case homingLimitExpiry => exact faultWhen_keepsBounds _ _ s
  case restTimerExpiry => exact restExpiry_keepsBounds s
  case holdLimitExpiry => exact holdExpiry_keepsBounds s
  case awaitTimeout place => exact awaitExpiry_keepsBounds place s
  case storeOpComplete bytes => exact storeOpDone_keepsBounds bytes s
  case busyLimitExpiry => exact .ite ((storeFault_keepsBounds s).trans (endStep_keepsBounds _)) (.refl s)
  case overlayExpiry => exact overlayEnd_keepsBounds s
  case blinkToggle => exact .of_line id rfl rfl
  case toneEnd => exact .of_line id rfl rfl
  case frameTransferEnd => exact .of_line id rfl rfl
  all_goals exact .refl s

/-- Settles O11: a place is taken only by Await Keys, which tests for a free one; a request that completes leaves its place to
its notice, and everything else takes none. -/
theorem stepKeepsAwaitPlaces : Obligations.StepKeepsAwaitPlaces := by
  unfold Obligations.StepKeepsAwaitPlaces
  exact step_keeps (P := awaitInv) (fun _ _ k h => k.keepsBounds.keepsInvariants.2 h)
    (fun c s h => (eventOf_keepsInvariants c s).2 h) (fun s h => (tickAwaits_keepsBounds s).keepsInvariants.2 h)
    fun _ _ p code count s hc h => (offer_keepsInvariants p code count (owner_keepsInvariants hc) s).2 h

/-- Settles O12: every operation keeps the line within its bounds; what is composed or forced to its end is a line that has a
holder. -/
theorem stepKeepsLine : Obligations.StepKeepsLine := by
  unfold Obligations.StepKeepsLine
  exact step_keeps (P := lineInv) (fun _ _ k h => k.keepsBounds.keepsInvariants.1 h)
    (fun c s h => (eventOf_keepsInvariants c s).1 h) (fun s h => (tickAwaits_keepsBounds s).keepsInvariants.1 h)
    fun _ _ p code count s hc h => (offer_keepsInvariants p code count (owner_keepsInvariants hc) s).1 h

end Sys2Proof.Machine

/-! SUPPORT. Strokes at the rings' doors and the Await requests: what each operation writes. -/

namespace Sys2Proof.Machine

/-! ### Blocks that are taken -/

theorem runBlock_taken {p : Port} {code : Byte} {count : Nat} {owner : State → State × Reply} {s : State}
    (hf : portFree p s) (hn : count ≤ 30) (hc : checkBlock p code count = none) :
    runBlock p code count owner s = .next (finish ((owner (taken p s)).1.reply p code (owner (taken p s)).2)) :=
  congrArg Host.Outcome.next (offer_taken owner hf hn hc)

theorem runBlock_refused {p : Port} {code : Byte} {count : Nat} {owner : State → State × Reply} {s : State} {st : Status}
    (hf : portFree p s) (hn : count ≤ 30) (hc : checkBlock p code count = some st) :
    runBlock p code count owner s = .next (finish ((taken p s).reply p code (.plain st))) :=
  congrArg Host.Outcome.next (offer_refused owner hf hn hc)

/-- R27: the hold limit timer at the end of a step, from where the step left it. -/
theorem finish_holdTimer_from {u : State} {x : Option Nat} (h : u.holdTimer = x) :
    (finish u).holdTimer = holdNow { finish u with holdTimer := x } := by subst h; rfl


theorem composer_frame (u : State) (c : Composer) : changesOnly [.composer] u { u with composer := c } :=
  fun q hq => by cases q <;> first | exact absurd hq (by decide) | rfl

/-! ### The rings (R21, R22, R27) -/

@[simp] theorem setRing_ring (c : Composer) (p : Port) (ring : List Stroke) : (c.setRing p ring).ring p = ring := by
  cases p <;> rfl

@[simp] theorem setRing_ring_other (c : Composer) (p : Port) (ring : List Stroke) :
    (c.setRing p ring).ring (Port.other p) = c.ring (Port.other p) := by cases p <;> rfl

theorem placedBy_frame (p : Port) (s : State) : changesOnly [.holdTimer] s (placedBy p s) := by
  unfold placedBy; split
  · intro q hq; cases q <;> first | exact absurd hq (by decide) | rfl
  · exact .refl _ _

theorem placedBy_holdTimer (p : Port) (s : State) :
    (placedBy p s).holdTimer = if s.line.holder = some p then none else s.holdTimer := by
  unfold placedBy; split <;> rfl

theorem joinRing_frame (p : Port) (strokes : List Stroke) (s : State) :
    changesOnly [.composer, .holdTimer] s (joinRing p strokes s) := by
  have h : changesOnly [.composer, .holdTimer] s
      { s with composer := s.composer.setRing p (s.composer.ring p ++ strokes) } := by
    intro q hq; cases q <;> first | exact absurd hq (by decide) | rfl
  exact .ite h (h.trans ((placedBy_frame p _).mono (by decide)))

theorem joinRing_composer (p : Port) (strokes : List Stroke) (s : State) :
    (joinRing p strokes s).composer = s.composer.setRing p (s.composer.ring p ++ strokes) := by
  unfold joinRing; dsimp only; split
  · rfl
  · exact (placedBy_frame p _).same .composer

theorem joinRing_holdTimer (p : Port) (strokes : List Stroke) (s : State) :
    (joinRing p strokes s).holdTimer = if strokes ≠ [] ∧ s.line.holder = some p then none else s.holdTimer := by
  unfold joinRing; dsimp only
  cases strokes with
  | nil => simp
  | cons k rest => rw [if_neg (by simp), placedBy_holdTimer]; simp

theorem ringRoom_pos (p : Port) (s : State) : 0 < ringRoom p s ↔ (s.composer.ring p).length < s.partition.ring p := by
  unfold ringRoom; omega

@[simp] theorem taken_ringRoom (p q : Port) (s : State) : ringRoom q (taken p s) = ringRoom q s := by
  unfold ringRoom; rw [taken_composer, taken_partition]

/-! ### Key Stroke (R22) -/

theorem cmdKeyStroke_unnamed {b0 b1 : Byte} (h : decodeStroke b0 b1 = none) (s : State) :
    cmdKeyStroke b0 b1 s = refuse .length s := by simp [cmdKeyStroke, h]

/-- R22: with no request to take it, a stroke joins the console ring. -/
theorem cmdKeyStroke_unrouted {b0 b1 : Byte} {k : Stroke} {s : State} (h : decodeStroke b0 b1 = some k)
    (hr : s.options.keyboardSharing = false ∨ s.composer.awaits = []) :
    cmdKeyStroke b0 b1 s = if 0 < ringRoom .console s then (joinRing .console [k] s, .plain .done)
      else (s.tone .refuse, .plain .full) := by
  unfold cmdKeyStroke; rw [h]; dsimp only
  split
  · rename_i hk ha; rcases hr with hr | hr <;> simp_all
  · rfl

theorem cmdKeyStroke_routed {b0 b1 : Byte} {k : Stroke} {r : AwaitRequest} {others : List AwaitRequest} {s : State}
    (h : decodeStroke b0 b1 = some k) (hk : s.options.keyboardSharing = true) (ha : s.composer.awaits = r :: others) :
    cmdKeyStroke b0 b1 s = (routeStroke k r others s, .plain .done) := by
  unfold cmdKeyStroke; rw [h]; dsimp only; rw [hk, ha]

theorem exec_keyStroke_console {b0 b1 : Byte} {s : State} (hf : portFree .console s) :
    exec (.keyStroke .console b0 b1) s = .next (finish ((cmdKeyStroke b0 b1 (taken .console s)).1.reply .console 0x10
      (cmdKeyStroke b0 b1 (taken .console s)).2)) := runBlock_taken hf (by decide) rfl

/-- Settles O27: each premise picks a branch of the command, and each branch is a block that touches a ring, the tones or
nothing. -/
theorem keyStrokeJoinsTheRing : Obligations.KeyStrokeJoinsTheRing := by
  unfold Obligations.KeyStrokeJoinsTheRing
  refine ⟨fun b0 b1 s hf => ⟨_, exec_keyStroke_console hf, fun h => ?unnamed, fun k h hr hl => ?joins,
    fun k h hr hl => ?full⟩, fun b0 b1 s hf => ⟨_, runBlock_refused hf (by decide) rfl, blockOnly_refused _ _ _ s⟩⟩
  case unnamed =>
    rw [cmdKeyStroke_unnamed h]; exact blockOnly_refused _ _ _ s
  case joins =>
    have hc : cmdKeyStroke b0 b1 (taken .console s) = (joinRing .console [k] (taken .console s), .plain .done) := by
      rw [cmdKeyStroke_unrouted h (by simpa using hr),
        if_pos (by rw [taken_ringRoom]; exact (ringRoom_pos .console s).2 hl)]
    rw [hc]
    refine ⟨blockDone_of (joinRing_frame _ _ _) (by decide) (by decide), ?_, finish_holdTimer_from ?_⟩
    · rw [finish_composer, State.reply_composer, joinRing_composer, taken_composer]; rfl
    · rw [State.reply_holdTimer, joinRing_holdTimer, taken_line, taken_holdTimer]; simp
  case full =>
    have hc : cmdKeyStroke b0 b1 (taken .console s) = ((taken .console s).tone .refuse, .plain .full) := by
      rw [cmdKeyStroke_unrouted h (by simpa using hr),
        if_neg (by rw [taken_ringRoom, ringRoom_pos]; exact Nat.not_lt.2 hl)]
    rw [hc]
    refine ⟨blockDone_of (State.tone_frame _ _) (by decide) (by decide), ?_⟩
    rw [finish_tones, State.reply_tones, State.tone_tones, taken_tones]

/-! ### Routing to a request (R44, R45) -/

theorem echoStroke_frame (k : Stroke) (s : State) : changesOnly [.composer, .holdTimer, .tones] s (echoStroke k s) :=
  .ite ((joinRing_frame _ _ _).mono (by decide)) ((State.tone_frame _ _).mono (by decide))

/-- R44: what a stroke leaves once it is collected and echoed, before a full request completes. -/
def echoed (k : Stroke) (r : AwaitRequest) (others : List AwaitRequest) (s : State) : State :=
  let s1 := { s with composer := { s.composer with awaits := { r with collected := r.collected ++ [k] } :: others } }
  if r.echo then echoStroke k s1 else s1

theorem routeStroke_eq (k : Stroke) (r : AwaitRequest) (others : List AwaitRequest) (s : State) :
    routeStroke k r others s = if r.collected.length + 1 = r.wanted
      then completeAwait 0 { r with collected := r.collected ++ [k] } 0 (echoed k r others s) else echoed k r others s := by
  have h : (r.collected ++ [k]).length = r.collected.length + 1 := by simp
  unfold routeStroke; dsimp only; rw [h]; rfl

theorem echoed_frame (k : Stroke) (r : AwaitRequest) (others : List AwaitRequest) (s : State) :
    changesOnly [.composer, .holdTimer, .tones] s (echoed k r others s) := by
  have h (c : Composer) : changesOnly [.composer, .holdTimer, .tones] s { s with composer := c } := by
    intro q hq; cases q <;> first | exact absurd hq (by decide) | rfl
  exact .ite ((h _).trans (echoStroke_frame k _)) (h _)

/-- R44: the copy joins the console ring when Echo is asked for and the ring has room. -/
theorem echoed_composer (k : Stroke) (r : AwaitRequest) (others : List AwaitRequest) (s : State) :
    (echoed k r others s).composer = { s.composer with
      consoleRing := if r.echo = true ∧ s.composer.consoleRing.length < s.partition.consoleRing
        then s.composer.consoleRing ++ [k] else s.composer.consoleRing
      awaits := { r with collected := r.collected ++ [k] } :: others } := by
  unfold echoed echoStroke; dsimp only
  cases r.echo with
  | false => simp
  | true =>
    simp only [if_true, true_and, ringRoom_pos]
    by_cases h : s.composer.consoleRing.length < s.partition.consoleRing
    · rw [if_pos h, if_pos (by exact h), joinRing_composer]; rfl
    · rw [if_neg h, if_neg (by exact h)]; rfl

theorem echoed_tones (k : Stroke) (r : AwaitRequest) (others : List AwaitRequest) (s : State) :
    (echoed k r others s).tones = if r.echo = true ∧ s.partition.consoleRing ≤ s.composer.consoleRing.length
      then s.tones.request .refuse else s.tones := by
  unfold echoed echoStroke; dsimp only
  cases r.echo with
  | false => simp
  | true =>
    simp only [if_true, true_and, ringRoom_pos]
    by_cases h : s.composer.consoleRing.length < s.partition.consoleRing
    · rw [if_neg (Nat.not_le.2 h), if_pos (by exact h)]
      exact (joinRing_frame .console [k] _).same .tones
    · rw [if_pos (Nat.not_lt.1 h), if_neg (by exact h)]; rfl

theorem echoed_holdTimer (k : Stroke) (r : AwaitRequest) (others : List AwaitRequest) (s : State) :
    (echoed k r others s).holdTimer = if r.echo = true ∧ s.composer.consoleRing.length < s.partition.consoleRing
        ∧ s.line.holder = some .console then none else s.holdTimer := by
  unfold echoed echoStroke; dsimp only
  cases r.echo with
  | false => simp
  | true =>
    simp only [if_true, true_and, ringRoom_pos]
    by_cases h : s.composer.consoleRing.length < s.partition.consoleRing
    · rw [if_pos (by exact h), joinRing_holdTimer]; simp [h]
    · rw [if_neg (by exact h)]; simp [h, State.tone]

theorem keysNotice_frame (r : AwaitRequest) (cause : Nat) (s : State) : changesOnly [.link] s (keysNotice r cause s) :=
  State.notice_frame s .link _

theorem completeAwait_frame (place : Nat) (r : AwaitRequest) (cause : Nat) (s : State) :
    changesOnly [.composer, .link] s (completeAwait place r cause s) := by
  refine changesOnly.trans ?_ ((keysNotice_frame r cause _).mono (by decide))
  intro q hq; cases q <;> first | exact absurd hq (by decide) | rfl

theorem completeAwait_composer (place : Nat) (r : AwaitRequest) (cause : Nat) (s : State) :
    (completeAwait place r cause s).composer = { s.composer with awaits := s.composer.awaits.eraseIdx place } := rfl

theorem completeAwait_link (place : Nat) (r : AwaitRequest) (cause : Nat) (s : State) :
    (completeAwait place r cause s).link
      = s.link.notice (Notice.keysCollected r.tag cause r.collected.length (r.collected.flatMap (·.encode))) := rfl

theorem routeStroke_frame (k : Stroke) (r : AwaitRequest) (others : List AwaitRequest) (s : State) :
    changesOnly [.composer, .link, .tones, .holdTimer] s (routeStroke k r others s) := by
  have h := (echoed_frame k r others s).mono (b := [.composer, .link, .tones, .holdTimer]) (by decide)
  rw [routeStroke_eq]
  exact .ite (h.trans ((completeAwait_frame _ _ _ _).mono (by decide))) h

theorem taken_console_link (s : State) : (taken .console s).link = s.link := taken_port_other .console s

theorem reply_console_link (s : State) (code : Byte) (r : Reply) : (s.reply .console code r).link = s.link := rfl

/-- Settles O28: the stroke is collected and echoed, and a request it fills completes. -/
theorem keyStrokeRoutedToAwait : Obligations.KeyStrokeRoutedToAwait := by
  unfold Obligations.KeyStrokeRoutedToAwait
  intro b0 b1 k r others s hf hd hk ha
  have hc : cmdKeyStroke b0 b1 (taken .console s) = (routeStroke k r others (taken .console s), .plain .done) :=
    cmdKeyStroke_routed hd (by simpa using hk) (by simpa using ha)
  have hl : (r.collected ++ [k]).length = r.collected.length + 1 := by simp
  refine ⟨_, exec_keyStroke_console hf, ?_⟩
  rw [hc]
  refine ⟨blockDone_of (routeStroke_frame _ _ _ _) (by decide) (by decide), ?composer, ?tones,
    finish_holdTimer_from ?holdTimer, ?link⟩
  case composer =>
    rw [finish_composer, State.reply_composer, routeStroke_eq]
    split
    · rw [completeAwait_composer, echoed_composer, taken_composer, taken_partition]; rfl
    · rw [echoed_composer, taken_composer, taken_partition]
  case tones =>
    rw [finish_tones, State.reply_tones, routeStroke_eq]
    split
    · rw [(completeAwait_frame _ _ _ _).same .tones, echoed_tones, taken_tones, taken_composer, taken_partition]
    · rw [echoed_tones, taken_tones, taken_composer, taken_partition]
  case holdTimer =>
    rw [State.reply_holdTimer, routeStroke_eq]
    split
    · rw [(completeAwait_frame _ _ _ _).same .holdTimer, echoed_holdTimer, taken_holdTimer, taken_composer,
        taken_partition, taken_line]
    · rw [echoed_holdTimer, taken_holdTimer, taken_composer, taken_partition, taken_line]
  case link =>
    have he : (echoed k r others (taken .console s)).link = s.link :=
      ((echoed_frame k r others _).same .link).trans (taken_console_link s)
    rw [finish_link, reply_console_link, routeStroke_eq]
    split
    · rename_i hw; rw [completeAwait_link, he]; dsimp only; rw [hl, hw]
    · exact he

/-! ### Type Text (R23) -/

theorem readText_dropped {a : TextState} {b : Byte} (h : readTextByte a b = none) (rest : List Byte) :
    readText a (b :: rest) = { readText a rest with dropped := (readText a rest).dropped + 1 } := by
  rw [readText]; split <;> simp_all

theorem readText_shift {a a' : TextState} {b : Byte} (h : readTextByte a b = some (a', none)) (rest : List Byte) :
    readText a (b :: rest) = readText a' rest := by
  rw [readText]; split <;> simp_all

theorem readText_stroke {a : TextState} {b : Byte} {k : Stroke} (h : readTextByte a b = some (a, some k)) (rest : List Byte) :
    readText a (b :: rest) = { readText a rest with strokes := k :: (readText a rest).strokes } := by
  rw [readText]; split <;> simp_all

theorem isTypeCode_iff (b : Byte) :
    isTypeCode b = true ↔ (0x21 ≤ b.toNat ∧ b.toNat ≤ 0x7E) ∨ (0xC0 ≤ b.toNat ∧ b.toNat ≤ 0xFE) := by
  simp [isTypeCode]

/-- R23: a byte without a row of its own is a type code, or dropped. -/
theorem readTextByte_other (a : TextState) {b : Byte}
    (h : b.toNat ∉ [0x0E, 0x0F, 0x02, 0x03, 0x20, 0x08, 0x09, 0x0A, 0x0B, 0x0D, 0x1E]) :
    readTextByte a b = if isTypeCode b then some (a, some ⟨.character b, a.underline, a.bold⟩) else none := by
  simp only [List.mem_cons, List.not_mem_nil, or_false, not_or] at h
  unfold readTextByte; split <;> first | omega | rfl

theorem readTextByte_type (a : TextState) {b : Byte} (h : isTypeCode b = true) :
    readTextByte a b = some (a, some ⟨.character b, a.underline, a.bold⟩) := by
  rw [readTextByte_other a, if_pos h]
  rw [isTypeCode_iff] at h
  simp only [List.mem_cons, List.not_mem_nil, or_false, not_or]; omega

theorem cmdTypeText_eq (text : List Byte) (s : State) :
    let r := readText { underline := s.composer.linkUnderline, bold := s.composer.linkBold } text
    cmdTypeText text s = if r.strokes.length ≤ ringRoom .link s then
        ({ joinRing .link r.strokes s with composer := { s.composer with
            linkRing := s.composer.linkRing ++ r.strokes
            linkUnderline := r.state.underline, linkBold := r.state.bold } },
          { status := .done, data := [byte r.dropped] })
      else refuse .full s := by
  unfold cmdTypeText; dsimp only; rw [joinRing_composer]; rfl

/-- Settles O29: the block is taken whole or refused by the room of the ring, and a text is read by the row of its first
byte. -/
theorem typeTextIsTakenWhole : Obligations.TypeTextIsTakenWhole := by
  unfold Obligations.TypeTextIsTakenWhole
  refine ⟨fun text s hf hn => ?block, fun _ => rfl, fun a b rest => ?table⟩
  case block =>
    have hc : checkBlock .link 0x11 text.length = none := by
      have : checkBlock .link 0x11 text.length = if text.length < 0 || 30 < text.length then some .length else none := rfl
      rw [this, if_neg (by simpa using hn)]
    refine ⟨_, runBlock_taken hf hn hc, fun hl => ?_, fun hl => ?_⟩
    · rw [cmdTypeText_eq, taken_ringRoom, taken_composer, if_pos (by exact hl)]
      have hj (strokes : List Stroke) (c : Composer) : changesOnly [.composer, .holdTimer] (taken .link s)
          { joinRing .link strokes (taken .link s) with composer := c } :=
        (joinRing_frame .link strokes _).then (composer_frame _ c) (by decide) (by decide)
      refine ⟨blockDone_of (hj _ _) (by decide) (by decide),
        finish_holdTimer_from ?_, by rw [finish_composer, State.reply_composer]⟩
      · rw [State.reply_holdTimer]; dsimp only
        rw [joinRing_holdTimer, taken_line, taken_holdTimer]
    · rw [cmdTypeText_eq, taken_ringRoom, taken_composer, if_neg (by exact Nat.not_le.2 hl)]
      exact blockOnly_refused _ _ _ s
  case table =>
    refine ⟨fun h => ?_, fun h => ?_, fun h => ?_, fun h => ?_, fun h => ?_, fun h => ?_, fun h => ?_, fun h => ?_, fun h => ?_,
      fun h => ?_, fun h => ?_, fun h => ?_, fun h hn => ?_⟩
    · subst h; exact readText_shift rfl rest
    · subst h; exact readText_shift rfl rest
    · subst h; exact readText_shift rfl rest
    · subst h; exact readText_shift rfl rest
    · subst h; exact readText_stroke rfl rest
    · exact readText_stroke (readTextByte_type a ((isTypeCode_iff b).2 h)) rest
    · subst h; exact readText_stroke rfl rest
    · subst h; exact readText_stroke rfl rest
    · subst h; exact readText_stroke rfl rest
    · subst h; exact readText_stroke rfl rest
    · subst h; exact readText_stroke rfl rest
    · subst h; exact readText_stroke rfl rest
    · refine readText_dropped ?_ rest
      rw [readTextByte_other a hn, if_neg (by rw [isTypeCode_iff]; exact h)]

/-! ### Await Keys, Cancel Await and the timeout (R43, R45) -/

/-- R179 to R181: Keys Collected joins at the tail, when it is enabled. -/
theorem notice_keysCollected (v : PortState) (tag cause count : Nat) (strokes : List Byte) :
    v.notice (Notice.keysCollected tag cause count strokes) = { v with queue := v.queue
      ++ (if enabled v.enable 0xA7 then [Notice.keysCollected tag cause count strokes] else []) } := by
  have hk : (Notice.keysCollected tag cause count strokes).kind = 0xA7 := rfl
  unfold PortState.notice
  rw [hk, if_neg (show ¬ coalesces 0xA7 = true by decide), if_neg (show ¬ isJobNotice _ = true by rw [isJobNotice, hk]; decide)]
  cases enabled v.enable 0xA7 <;> simp

/-- Keys Collected for each of these requests, in their order. -/
theorem foldl_keysNotice (cause : Nat) (l : List AwaitRequest) (s : State) :
    l.foldl (fun t r => keysNotice r cause t) s = { s with link := { s.link with queue := s.link.queue
      ++ (if enabled s.link.enable 0xA7 then l.map fun r =>
        Notice.keysCollected r.tag cause r.collected.length (r.collected.flatMap (·.encode)) else []) } } := by
  induction l generalizing s with
  | nil => simp
  | cons r l ih =>
    have hr : keysNotice r cause s = { s with
        link := s.link.notice (Notice.keysCollected r.tag cause r.collected.length (r.collected.flatMap (·.encode))) } := rfl
    rw [List.foldl_cons, ih, hr, notice_keysCollected]
    cases enabled s.link.enable 0xA7 <;> simp

theorem awaitLoad_taken (s : State) : awaitLoad (taken .link s) = awaitLoad s := by
  have h : (taken .link s).link = { s.link with assembly := [], gap := none, inHand := true } := taken_port .link s
  rw [awaitLoad_eq, awaitLoad_eq, taken_composer, h]

/-- R43: the checks of Await Keys in their order. -/
theorem cmdAwaitKeys_eq (wanted : Byte) (timeout : Half) (echo : Byte) (s : State) :
    cmdAwaitKeys wanted timeout echo s =
      if s.options.keyboardSharing = false then refuse .notInMode s
      else if 4 ≤ awaitLoad s then refuse .full s
      else if wanted.toNat < 1 ∨ 28 < wanted.toNat ∨ 1 < echo.toNat ∨ 32767 < timeout.toNat then refuse .range s
      else ({ s with composer := { s.composer with
          awaits := s.composer.awaits ++ [AwaitRequest.mk s.composer.awaitTag wanted.toNat [] (echo == 1)
            (if timeout = 0 then none else some timeout.toNat)]
          awaitTag := (s.composer.awaitTag + 1) % 256 } },
        { status := .done, data := [byte s.composer.awaitTag] }) := by
  unfold cmdAwaitKeys; simp only [Bool.not_eq_true', Bool.or_eq_true, decide_eq_true_eq, or_assoc, Config.awaitSlots]

/-- Settles O31: the refusals of Await Keys in their order, and what a request leaves when it completes. -/
theorem awaitRequests : Obligations.AwaitRequests := by
  unfold Obligations.AwaitRequests
  refine ⟨fun wanted echo timeout s hf => ⟨_, runBlock_taken hf (by decide) rfl, fun h => ?notInMode, fun h hl => ?full,
    fun h hl hr => ?range, fun h hl hw hw' he ht => ?posted⟩, fun s hf => ⟨_, runBlock_taken hf (by decide) rfl, ?cancel⟩,
    fun place r s hr ht => ?timeout⟩
  case notInMode =>
    rw [cmdAwaitKeys_eq, if_pos (by rw [taken_options]; exact h)]; exact blockOnly_refused _ _ _ s
  case full =>
    rw [cmdAwaitKeys_eq, if_neg (by rw [taken_options, h]; decide), if_pos (by rw [awaitLoad_taken]; exact hl)]
    exact blockOnly_refused _ _ _ s
  case range =>
    rw [cmdAwaitKeys_eq, if_neg (by rw [taken_options, h]; decide),
      if_neg (by rw [awaitLoad_taken]; exact Nat.not_le.2 hl), if_pos hr]
    exact blockOnly_refused _ _ _ s
  case posted =>
    rw [cmdAwaitKeys_eq, if_neg (by rw [taken_options, h]; decide),
      if_neg (by rw [awaitLoad_taken]; exact Nat.not_le.2 hl), if_neg (by omega), taken_composer]
    refine ⟨blockDone_of ?_ (by decide) (by decide), rfl⟩
    intro q hq; cases q <;> first | exact absurd hq (by decide) | rfl
  case cancel =>
    have hl : (taken .link s).link = { s.link with assembly := [], gap := none, inHand := true } := taken_port .link s
    have hc : (cmdCancelAwait (taken .link s)).1 = { taken .link s with
        composer := { s.composer with awaits := [] }
        link := { s.link with
          assembly := [], gap := none, inHand := true
          queue := s.link.queue ++ (if enabled s.link.enable 0xA7 then s.composer.awaits.map fun r =>
            Notice.keysCollected r.tag 2 r.collected.length (r.collected.flatMap (·.encode)) else []) } } := by
      unfold cmdCancelAwait cancelAwaits
      rw [foldl_keysNotice]; dsimp only; rw [hl, taken_composer]
    rw [hc]
    refine ⟨rfl, rfl, ?_, finish_displayFollows (taken_display _ s), finish_holdFollows (taken_holdTimer _ s), ?_⟩
    · exact (taken_restTimer .link s)
    · refine changesOnly.trans (changesOnly.trans (changesOnly.trans ((taken_frame .link s).mono (by decide)) ?_)
        ((State.reply_frame _ .link _ _).mono (by decide))) ((finish_frame _).mono (by decide))
      intro q hq; cases q <;> first | exact absurd hq (by decide) | rfl
  case timeout =>
    refine ⟨finish (completeAwait place r 1 s), ?_, rfl, rfl, ?_⟩
    · show Host.Outcome.next (awaitExpiry place s) = _
      unfold awaitExpiry; rw [hr]; dsimp only; rw [if_pos ht]
    · exact (completeAwait_frame place r 1 s).then (finish_frame _) (by decide) (by decide)

end Sys2Proof.Machine

/-! SUPPORT. The spell queue at the end of a step and at a discarded line (R16, R131, R141, R145): which lookups stand,
which leave and which join. -/

namespace Sys2Proof.Machine

/-! ### The lookups of lines -/

/-- The lookups of lines in the spell queue, without the arbiter's mark. -/
def lineLookups (s : State) : List SpellEntry := (s.spelling.queue.filter (·.origin != .query)).map (·.unmarked)

theorem mem_lineLookups {s : State} {e : SpellEntry} (he : e ∈ s.spelling.queue) (ho : e.origin ≠ .query) :
    e.unmarked ∈ lineLookups s :=
  List.mem_map_of_mem (List.mem_filter.2 ⟨he, by simpa using ho⟩)

theorem exists_of_mem_lineLookups {s : State} {x : SpellEntry} (h : x ∈ lineLookups s) :
    ∃ e ∈ s.spelling.queue, e.unmarked = x := by
  obtain ⟨e, he, rfl⟩ := List.mem_map.1 h
  exact ⟨e, (List.mem_filter.1 he).1, rfl⟩

/-- A lookup that stands is in the queue, perhaps marked. -/
theorem lookupsStand.mem_or_marked {s t : State} (h : lookupsStand s t) {e : SpellEntry} (he : e ∈ s.spelling.queue) :
    e ∈ t.spelling.queue ∨ { e with inFlight := true } ∈ t.spelling.queue := by
  cases hf : e.inFlight with
  | true => exact .inl (h.2 e he hf)
  | false =>
    obtain ⟨x, hx, ex⟩ := List.mem_map.1 (h.1.subset (List.mem_map_of_mem (f := SpellEntry.unmarked) he))
    have hxe : x = { e with inFlight := x.inFlight } := by
      have := congrArg (fun y : SpellEntry => { y with inFlight := x.inFlight }) ex
      exact this
    cases hm : x.inFlight with
    | true => rw [hm] at hxe; exact .inr (hxe ▸ hx)
    | false =>
      rw [hm, ← hf] at hxe
      exact .inl ((show x = e from hxe) ▸ hx)

theorem lookupsStand.length_le {s t : State} (h : lookupsStand s t) :
    s.spelling.queue.length ≤ t.spelling.queue.length := by
  simpa using h.1.length_le

/-! ### A Spelling Unit at rest -/

/-- The Spelling Unit stands, but that queries may have joined its queue and the oldest lookup may be marked. -/
structure spellingRests (s t : State) : Prop where
  suspects : t.spelling.suspects = s.spelling.suspects
  printWait : t.spelling.printWait = s.spelling.printWait
  userWords : t.spelling.userWords = s.spelling.userWords
  consoleFragment : t.spelling.consoleFragment = s.spelling.consoleFragment
  linkFragment : t.spelling.linkFragment = s.spelling.linkFragment
  stand : lookupsStand s t
  lines : lineLookups t = lineLookups s

namespace spellingRests

theorem of_eq {s t : State} (h : t.spelling = s.spelling) : spellingRests s t where
  suspects := by rw [h]
  printWait := by rw [h]
  userWords := by rw [h]
  consoleFragment := by rw [h]
  linkFragment := by rw [h]
  stand := .of_eq (by rw [h])
  lines := by unfold lineLookups; rw [h]

theorem refl (s : State) : spellingRests s s := .of_eq rfl

theorem trans {s t u : State} (h : spellingRests s t) (k : spellingRests t u) : spellingRests s u where
  suspects := k.suspects.trans h.suspects
  printWait := k.printWait.trans h.printWait
  userWords := k.userWords.trans h.userWords
  consoleFragment := k.consoleFragment.trans h.consoleFragment
  linkFragment := k.linkFragment.trans h.linkFragment
  stand := h.stand.trans k.stand
  lines := k.lines.trans h.lines

/-- A lookup of a line was there before, but for its mark. -/
theorem origin {s t : State} (h : spellingRests s t) {e : SpellEntry} (he : e ∈ t.spelling.queue)
    (ho : e.origin ≠ .query) : ∃ m : Bool, { e with inFlight := m } ∈ s.spelling.queue := by
  obtain ⟨x, hx, hxe⟩ := exists_of_mem_lineLookups (h.lines ▸ mem_lineLookups he ho)
  have hm : x = { e with inFlight := x.inFlight } :=
    congrArg (fun y : SpellEntry => { y with inFlight := x.inFlight }) hxe
  exact ⟨x.inFlight, hm ▸ hx⟩

end spellingRests

theorem joinSpellQueue_query_rests (n : Nat) (letters : List Byte) (tag : Nat) (s : State) :
    spellingRests s (joinSpellQueue { spellEntry n letters with tag := tag } s) where
  suspects := rfl
  printWait := rfl
  userWords := rfl
  consoleFragment := rfl
  linkFragment := rfl
  stand := joinSpellQueue_lookupsStand _ s
  lines := by simp [lineLookups, joinSpellQueue, List.filter_append, spellEntry]

theorem fillQueries_rests (done l : List Query) (s : State) : spellingRests s (fillQueries done l s) := by
  induction l generalizing done s with
  | nil => exact ⟨rfl, rfl, rfl, rfl, rfl, .of_eq rfl, rfl⟩
  | cons q l ih =>
    unfold fillQueries; split
    · exact (joinSpellQueue_query_rests _ _ _ s).trans (ih _ _)
    · exact ih _ _

theorem markInFlight_unmarked (l : List SpellEntry) :
    ((markInFlight l).filter (·.origin != .query)).map (·.unmarked) = (l.filter (·.origin != .query)).map (·.unmarked) := by
  cases l with
  | nil => rfl
  | cons e l => simp only [markInFlight, List.filter_cons]; split <;> rfl

/-- R16: a grant only marks. -/
theorem arbitrate_rests (s : State) : spellingRests s (arbitrate s) := by
  have hs := arbitrate_lookupsStand s
  have hl : lineLookups (arbitrate s) = lineLookups s := by
    unfold arbitrate; split
    · split
      · rfl
      · rfl
      · exact markInFlight_unmarked _
      · rfl
    · rfl
  have hu : ∃ queue, (arbitrate s).spelling = { s.spelling with queue := queue } := by
    unfold arbitrate; split
    · split <;> exact ⟨_, rfl⟩
    · exact ⟨_, rfl⟩
  obtain ⟨queue, hu⟩ := hu
  exact ⟨by rw [hu], by rw [hu], by rw [hu], by rw [hu], by rw [hu], hs, hl⟩

/-- R145: with no line in Checking the end of a step settles no word. -/
theorem settle_rests {s : State} (h : s.line.phase ≠ .checking) : spellingRests s (settle s) := by
  unfold settle; rw [settleSpelling_unheld h]
  exact (fillQueries_rests _ _ s).trans (arbitrate_rests _)

theorem settle_line {s : State} (h : s.line.phase ≠ .checking) : (settle s).line = s.line := by
  unfold settle; rw [settleSpelling_unheld h]
  exact ((arbitrate_frame _).same .line).trans ((fillQueries_frame _ _ s).same .line)

theorem endStep_rests {s : State} (h : s.line.phase ≠ .checking) : spellingRests s (endStep s) :=
  (settle_rests h).trans (.of_eq ((finish_frame _).same .spelling))

theorem endStep_line {s : State} (h : s.line.phase ≠ .checking) : (endStep s).line = s.line :=
  ((finish_frame _).same .line).trans (settle_line h)

/-! ### What is dropped and what joins -/

/-- R131: the lookups that go: those in flight stay, marked stale. -/
theorem mem_discardLookups {gone : SpellEntry → Bool} {queue : List SpellEntry} {e : SpellEntry} :
    e ∈ discardLookups gone queue ↔
      (e ∈ queue ∧ gone e = false) ∨ ∃ x ∈ queue, gone x = true ∧ x.inFlight = true ∧ e = { x with stale := true } := by
  unfold discardLookups
  rw [List.mem_filterMap]
  constructor
  · rintro ⟨x, hx, he⟩
    split at he
    · next hg =>
      split at he
      · next hf => exact .inr ⟨x, hx, hg, hf, (Option.some.inj he).symm⟩
      · cases he
    · next hg => cases he; exact .inl ⟨hx, by simpa using hg⟩
  · rintro (⟨he, hg⟩ | ⟨x, hx, hg, hf, rfl⟩)
    · exact ⟨e, he, by simp [hg]⟩
    · exact ⟨x, hx, by simp [hg, hf]⟩

theorem ofLine_iff (serial : Nat) (e : SpellEntry) : ofLine serial e = true ↔ e.origin ≠ .query ∧ e.serial = serial := by
  simp [ofLine]

/-- R144: the lookup of a fragment joins behind, or none does. -/
theorem checkAlone_queue (p : Port) (f : Fragment) (s : State) :
    (checkAlone p f s).spelling.queue = s.spelling.queue
      ∨ ∃ e, (checkAlone p f s).spelling.queue = s.spelling.queue ++ [e] ∧ e.letters = f.letters := by
  unfold checkAlone; split
  · exact .inr ⟨_, rfl, rfl⟩
  · exact .inl rfl

theorem checkAlone_spelling (p : Port) (f : Fragment) (s : State) :
    (checkAlone p f s).spelling = { s.spelling with queue := (checkAlone p f s).spelling.queue } := by
  unfold checkAlone; split <;> rfl

theorem releaseJoined_spelling (s : State) :
    (releaseJoined s).spelling = { s.spelling with queue := (releaseJoined s).spelling.queue } := by
  unfold releaseJoined; split
  · split
    · rfl
    · exact checkAlone_spelling _ _ _
  · rfl

/-- R144: at a discard the joined fragment's lookup joins behind, or none does. -/
theorem releaseJoined_queue (s : State) :
    (releaseJoined s).spelling.queue = s.spelling.queue
      ∨ ∃ e f, (releaseJoined s).spelling.queue = s.spelling.queue ++ [e] ∧ s.line.joined = some f
        ∧ e.letters = f.letters := by
  unfold releaseJoined; split
  · next p f hh hj =>
    split
    · exact .inl rfl
    · rcases checkAlone_queue p f { s with line := { s.line with joined := none } } with h | ⟨e, h, he⟩
      · exact .inl h
      · exact .inr ⟨e, f, h, hj, he⟩
  · exact .inl rfl

/-! ### Release Line (R40) -/

/-- R151: the image at the end of a step, from the display the step left. -/
theorem finish_display_from {u : State} {x : Display} (h : u.display = x) :
    (finish u).display = displayNow { finish u with display := x } := by subst h; rfl

/-- R40: a discarded Line-mode line. -/
theorem discardLine_eq {p : Port} {s : State} (hh : s.line.holder = some p) (hm : s.line.mode = .line) :
    discardLine s =
      setPosition s.format.left (freeLine p (releaseJoined (dropLineSpelling s.line.serial s))) := by
  unfold discardLine; rw [hh]; dsimp only; rw [if_pos hm]

section
variable {p : Port} {s : State} (hh : s.line.holder = some p) (hm : s.line.mode = .line)
include hh hm

theorem discardLine_line : (discardLine s).line = .free := by rw [discardLine_eq hh hm]; rfl

theorem discardLine_composer :
    (discardLine s).composer = { s.composer with lastHolder := some p, position := s.format.left } := by
  rw [discardLine_eq hh hm, setPosition_composer, freeLine_composer, (releaseJoined_frame _).same .composer]; rfl

theorem discardLine_display : (discardLine s).display = { s.display with window := 0 } := by
  rw [discardLine_eq hh hm]
  show { (releaseJoined (dropLineSpelling s.line.serial s)).display with window := 0 } = _
  rw [(releaseJoined_frame _).same .display]; rfl

theorem discardLine_spelling :
    (discardLine s).spelling = (releaseJoined (dropLineSpelling s.line.serial s)).spelling := by
  rw [discardLine_eq hh hm]; rfl

theorem discardLine_suspects :
    (discardLine s).spelling.suspects = s.spelling.suspects.filter (·.place != .working) := by
  rw [discardLine_spelling hh hm, releaseJoined_spelling]; rfl

theorem discardLine_printWait : (discardLine s).spelling.printWait = s.spelling.printWait := by
  rw [discardLine_spelling hh hm, releaseJoined_spelling]; rfl

/-- R141: of the line's lookups only the one in flight stays, stale; a joined fragment may join behind. -/
theorem discardLine_lookup {e : SpellEntry} (he : e ∈ (discardLine s).spelling.queue) (ho : e.origin ≠ .query)
    (hs : e.serial = s.line.serial) : e.stale = true ∨ ∃ f, s.line.joined = some f ∧ e.letters = f.letters := by
  rw [discardLine_spelling hh hm] at he
  have hd {x : SpellEntry} (hx : x ∈ (dropLineSpelling s.line.serial s).spelling.queue) (ho : x.origin ≠ .query)
      (hs : x.serial = s.line.serial) : x.stale = true := by
    rcases mem_discardLookups.1 hx with ⟨-, hg⟩ | ⟨y, -, -, -, rfl⟩
    · rw [(ofLine_iff _ _).2 ⟨ho, hs⟩] at hg; cases hg
    · rfl
  rcases releaseJoined_queue (dropLineSpelling s.line.serial s) with h | ⟨x, f, h, hj, hx⟩ <;> rw [h] at he
  · exact .inl (hd he ho hs)
  · rcases List.mem_append.1 he with he | he
    · exact .inl (hd he ho hs)
    · exact .inr ⟨f, hj, by rw [List.mem_singleton.1 he, hx]⟩

theorem discardLine_inFlight {e : SpellEntry} (he : e ∈ s.spelling.queue) (ho : e.origin ≠ .query)
    (hs : e.serial = s.line.serial) (hf : e.inFlight = true) :
    { e with stale := true } ∈ (discardLine s).spelling.queue := by
  have hd : { e with stale := true } ∈ (dropLineSpelling s.line.serial s).spelling.queue :=
    mem_discardLookups.2 (.inr ⟨e, he, (ofLine_iff _ _).2 ⟨ho, hs⟩, hf, rfl⟩)
  rw [discardLine_spelling hh hm]
  rcases releaseJoined_queue (dropLineSpelling s.line.serial s) with h | ⟨x, f, h, -, -⟩ <;> rw [h]
  · exact hd
  · exact List.mem_append_left _ hd

end

theorem cmdReleaseLine_refused {p : Port} {s : State} {st : Status}
    (h : (s.line.holder = none ∧ st = .noLine) ∨ (s.line.holder = some (Port.other p) ∧ st = .busy)
      ∨ (s.line.holder = some p ∧ s.line.mode = .direct ∧ st = .notInMode)) :
    cmdReleaseLine p s = refuse st s := by
  unfold cmdReleaseLine
  rcases h with ⟨hh, rfl⟩ | ⟨hh, rfl⟩ | ⟨hh, hm, rfl⟩ <;> rw [hh] <;> dsimp only
  · rw [if_pos (by cases p <;> decide)]
  · rw [if_neg (by simp), if_pos hm]

theorem cmdReleaseLine_released {p : Port} {s : State} (hh : s.line.holder = some p) (hm : s.line.mode = .line) :
    cmdReleaseLine p s = (settle (discardLine s), .plain .done) := by
  unfold cmdReleaseLine; rw [hh]; dsimp only
  rw [if_neg (by simp), if_neg (by rw [hm]; decide)]

/-- R144, R145: a released line leaves the end of the step nothing to settle. -/
theorem released_phase {p : Port} {s : State} (hh : s.line.holder = some p) (hm : s.line.mode = .line) :
    (discardLine s).line.phase ≠ .checking := by rw [discardLine_line hh hm]; decide

/-- R40: what the release changes. -/
theorem released_frame {p : Port} {s : State} (hh : s.line.holder = some p) (hm : s.line.mode = .line) :
    changesOnly [.line, .composer, .spelling, .store, .display] s (settle (discardLine s)) :=
  (discardLine_frame s).then (settle_unheld (released_phase hh hm)) (by decide) (by decide)

/-- Settles O30: the refusals by the line's holder and mode, and what a discarded line leaves behind. -/
theorem releaseLineDiscards : Obligations.ReleaseLineDiscards := by
  unfold Obligations.ReleaseLineDiscards
  intro p s hf
  refine ⟨_, runBlock_taken hf (by decide) (by cases p <;> rfl), fun hh => ?_, fun hh => ?_, fun hh hm => ?_, fun hh hm => ?_⟩
  · rw [cmdReleaseLine_refused (st := .noLine) (.inl ⟨by rw [taken_line]; exact hh, rfl⟩)]; exact blockOnly_refused _ _ _ s
  · rw [cmdReleaseLine_refused (st := .busy) (.inr (.inl ⟨by rw [taken_line]; exact hh, rfl⟩))]
    exact blockOnly_refused _ _ _ s
  · rw [cmdReleaseLine_refused (st := .notInMode) (.inr (.inr ⟨by rw [taken_line]; exact hh, by rw [taken_line]; exact hm, rfl⟩))]
    exact blockOnly_refused _ _ _ s
  · rw [← taken_line p s] at hh hm
    have hr := settle_rests (released_phase hh hm)
    have hfr := released_frame hh hm
    have hd := settle_unheld (released_phase hh hm)
    rw [cmdReleaseLine_released hh hm]
    set u := settle (discardLine (taken p s)) with hu
    have hsp : (finish (u.reply p 0x12 (.plain .done))).spelling = u.spelling := by
      rw [finish_spelling, State.reply_spelling]
    refine ⟨blockDone_of hfr (by cases p <;> decide) (by decide), ?_, ?_, ?_, ?_, ?_, ?_, ?_⟩
    · rw [finish_line, State.reply_line, settle_line (released_phase hh hm), discardLine_line hh hm]
    · refine finish_display_from ?_
      rw [State.reply_display, hd.same .display, discardLine_display hh hm, taken_display]
    · rw [finish_composer, State.reply_composer, hd.same .composer, discardLine_composer hh hm, taken_composer, taken_format]
    · rw [hsp, hr.suspects, discardLine_suspects hh hm, taken_spelling]
    · rw [hsp, hr.printWait, discardLine_printWait hh hm, taken_spelling]
    · rw [hsp]; intro e he ho hs
      obtain ⟨m, hx⟩ := hr.origin he ho
      have := discardLine_lookup hh hm hx ho (by rw [taken_line]; exact hs)
      rwa [taken_line] at this
    · rw [hsp]; intro e he ho hs hfl
      rw [← taken_spelling p s] at he
      exact hr.stand.2 _ (discardLine_inFlight hh hm he ho (by rw [hs, taken_line]) hfl) hfl

end Sys2Proof.Machine

/-! SUPPORT. A Direct-mode Character that the wheel lacks is reported to the console (R52): a step of the working line
that changes the console port. -/

namespace Sys2Proof.Machine

/-- A 12-pitch wheel with 'a' alone. -/
def bareWheel : PetalMap where
  wheelId := 7
  pitch := .twelve
  spaceWidth := 10
  underscore := ⟨0x5F, 62, 10, 1⟩
  glyphs := [⟨0x61, 64, 10, 2⟩]

/-- The engine Ready with that wheel, the console's Direct-mode line in Composing, its every notice enabled, and a 'b' at
the head of its ring. -/
def missingStruck : State := { State.reset with
  engine := { Engine.reset with state := .ready, homing := none, homingLimit := none, petalMap := some bareWheel }
  store := { Store.reset with state := .absent, startUp := none, link := none }
  console := { State.reset.console with enable := BitVec.allOnes 19 }
  line := { WorkingLine.free with phase := .composing, holder := some .console, serial := 9, mode := .direct }
  composer := { State.reset.composer with consoleRing := [⟨.character 0x62, false, false⟩] } }

/-- What a step leaves in the console's queue. -/
def queueAfter (c : Instr) (s : State) : Nat :=
  match exec c s with
  | .next t => t.console.queue.length
  | .fault _ => 0
  | .refused _ => 0

theorem missingStruck_reports : queueAfter .composeStroke missingStruck = missingStruck.console.queue.length + 1 := by
  decide

/-- Refutes O60: its frame of a Direct-mode stroke leaves out the console, yet it holds of every stroke, and a Character
that the wheel lacks is reported to the console by Missing Character. -/
theorem not_otherStrokesAndLineEnds : ¬ Obligations.OtherStrokesAndLineEnds := by
  unfold Obligations.OtherStrokesAndLineEnds
  rintro ⟨h, -⟩
  obtain ⟨t, ht, -, -, -, -, -, -, -, hf⟩ := h ⟨.character 0x62, false, false⟩ [] bareWheel missingStruck rfl rfl rfl rfl rfl
    (by decide) (by decide)
  have hc : t.console = missingStruck.console := hf .console (by decide)
  have hq : queueAfter .composeStroke missingStruck = t.console.queue.length := by unfold queueAfter; rw [ht]
  rw [missingStruck_reports, hc] at hq
  omega

end Sys2Proof.Machine

/-! SUPPORT. The words of a line (R128): the tokens that the walk finds are the runs between boundary cells, and a word is
such a run without the cells at its ends that are no letters. -/

namespace Sys2Proof.Machine

/-! ### Tokens -/

/-- A boundary cell stands at this index. -/
def boundaryAt (cells : List Cell) (j : Nat) : Bool := (cells[j]?).any (·.boundary)

/-- R128: a token is a longest run of cells without a boundary cell, complete when one follows. -/
structure IsToken (cells : List Cell) (t : Token) : Prop where
  nonempty : t.start < t.stop
  within : t.stop ≤ cells.length
  inside : ∀ j, t.start ≤ j → j < t.stop → boundaryAt cells j = false
  before : t.start = 0 ∨ boundaryAt cells (t.start - 1) = true
  complete : t.complete = decide (t.stop < cells.length)
  after : t.stop < cells.length → boundaryAt cells t.stop = true

/-- What the walk knows at cell `i`: the run it is in starts at `cur`. -/
def walked (cells : List Cell) (i : Nat) : Option Nat → Prop
  | none => i = 0 ∨ boundaryAt cells (i - 1) = true
  | some a => a < i ∧ (∀ j, a ≤ j → j < i → boundaryAt cells j = false) ∧ (a = 0 ∨ boundaryAt cells (a - 1) = true)

/-- The token that a boundary cell at `i`, or the end of the line, closes. -/
theorem isToken_closed {cells : List Cell} {a i : Nat} {k : Bool} (hw : walked cells i (some a)) (hi : i ≤ cells.length)
    (hk : k = decide (i < cells.length)) (hb : i < cells.length → boundaryAt cells i = true) : IsToken cells ⟨a, i, k⟩ :=
  ⟨hw.1, hi, hw.2.1, hw.2.2, hk, hb⟩

/-- It is the only one that starts in the run. -/
theorem IsToken.eq_closed {cells : List Cell} {a i : Nat} {t : Token} (h : IsToken cells t) (hw : walked cells i (some a))
    (hb : i < cells.length → boundaryAt cells i = true) (ha : a ≤ t.start) (hi : t.start < i) (hl : i ≤ cells.length) :
    t = ⟨a, i, decide (i < cells.length)⟩ := by
  obtain ⟨start, stop, complete⟩ := t
  obtain ⟨hne, hwi, hin, hbe, hc, haf⟩ := h
  obtain ⟨hai, hrun, -⟩ := hw
  dsimp only at *
  have hs : start = a := by
    rcases hbe with h0 | h0
    · omega
    · by_contra hn
      have := hrun (start - 1) (by omega) (by omega)
      rw [this] at h0; cases h0
  have he : stop = i := by
    rcases Nat.lt_trichotomy stop i with h1 | h1 | h1
    · have := haf (by omega)
      rw [hrun stop (by omega) h1] at this; cases this
    · exact h1
    · have := hb (by omega)
      rw [hin i (by omega) h1] at this; cases this
  subst hs he; rw [hc]

theorem tokensFrom_boundary_none {c : Cell} (h : c.boundary = true) (i : Nat) (rest : List Cell) :
    tokensFrom i none (c :: rest) = tokensFrom (i + 1) none rest := by simp [tokensFrom, h]

theorem tokensFrom_boundary_some {c : Cell} (h : c.boundary = true) (i a : Nat) (rest : List Cell) :
    tokensFrom i (some a) (c :: rest) = ⟨a, i, true⟩ :: tokensFrom (i + 1) none rest := by simp [tokensFrom, h]

theorem tokensFrom_plain {c : Cell} (h : c.boundary = false) (i : Nat) (cur : Option Nat) (rest : List Cell) :
    tokensFrom i cur (c :: rest) = tokensFrom (i + 1) (some (cur.getD i)) rest := by cases cur <;> simp [tokensFrom, h]

/-- R128: what the walk from cell `i` finds. -/
theorem mem_tokensFrom {cells : List Cell} {t : Token} (rest : List Cell) (i : Nat) (cur : Option Nat)
    (hr : cells.drop i = rest) (hl : i + rest.length = cells.length) (hw : walked cells i cur) :
    t ∈ tokensFrom i cur rest ↔ IsToken cells t ∧ cur.getD i ≤ t.start := by
  induction rest generalizing i cur with
  | nil =>
    have hi : i = cells.length := by simpa using hl
    cases cur with
    | none =>
      simp only [tokensFrom, List.not_mem_nil, Option.getD_none, false_iff, not_and]
      intro h; have := h.nonempty; have := h.within; omega
    | some a =>
      simp only [tokensFrom, List.mem_singleton, Option.getD_some]
      constructor
      · rintro rfl; exact ⟨isToken_closed hw (by omega) (by simp [hi]) (by omega), Nat.le_refl _⟩
      · rintro ⟨h, ha⟩
        have := h.eq_closed hw (by omega) ha (by have := h.nonempty; have := h.within; omega) (by omega)
        rw [this]; simp [hi]
  | cons c rest ih =>
    have hc : cells[i]? = some c := by rw [← List.head?_drop, hr]; rfl
    have hd : cells.drop (i + 1) = rest := by rw [← List.tail_drop, hr]; rfl
    have hll : i + 1 + rest.length = cells.length := by rw [← hl, List.length_cons]; omega
    have hlt : i < cells.length := by omega
    have hb : boundaryAt cells i = c.boundary := by rw [boundaryAt, hc]; rfl
    cases hcb : c.boundary with
    | true =>
      rw [hcb] at hb
      have hn : walked cells (i + 1) none := .inr hb
      have hnot {t : Token} (h : IsToken cells t) : t.start ≠ i := fun e => by
        have := h.inside i (by omega) (by have := h.nonempty; omega)
        rw [hb] at this; cases this
      cases cur with
      | none =>
        rw [tokensFrom_boundary_none hcb, ih (i + 1) none hd hll hn, Option.getD_none, Option.getD_none]
        exact and_congr_right fun h => ⟨by omega, fun hi => by have := hnot h; omega⟩
      | some a =>
        rw [tokensFrom_boundary_some hcb, List.mem_cons, ih (i + 1) none hd hll hn, Option.getD_none, Option.getD_some]
        constructor
        · rintro (rfl | ⟨h, hi⟩)
          · exact ⟨isToken_closed hw (by omega) (by simp [hlt]) fun _ => hb, Nat.le_refl _⟩
          · exact ⟨h, by have := hw.1; omega⟩
        · rintro ⟨h, ha⟩
          rcases Nat.lt_or_ge t.start i with hi | hi
          · left; rw [h.eq_closed hw (fun _ => hb) ha hi (by omega)]; simp [hlt]
          · right; exact ⟨h, by have := hnot h; omega⟩
    | false =>
      rw [hcb] at hb
      rw [tokensFrom_plain hcb]
      have hs : walked cells (i + 1) (some (cur.getD i)) := by
        cases cur with
        | none => exact ⟨Nat.lt_succ_self i, fun j h1 h2 => by
            rw [show j = i from by simp only [Option.getD_none] at h1; omega]; exact hb, hw⟩
        | some a =>
          refine ⟨Nat.lt_succ_of_lt hw.1, fun j h1 h2 => ?_, hw.2.2⟩
          rcases Nat.lt_or_ge j i with h3 | h3
          · exact hw.2.1 j h1 h3
          · rw [show j = i from by omega]; exact hb
      rw [ih (i + 1) _ hd hll hs]; rfl

theorem mem_tokens {cells : List Cell} {t : Token} : t ∈ tokensFrom 0 none cells ↔ IsToken cells t := by
  rw [mem_tokensFrom cells 0 none rfl (by simp) (.inl rfl)]; simp

/-- The walk finds the tokens from left to right. -/
theorem tokensFrom_ordered (rest : List Cell) (i : Nat) (cur : Option Nat) (hc : cur.getD i ≤ i) :
    (∀ t ∈ tokensFrom i cur rest, cur.getD i ≤ t.start) ∧ (tokensFrom i cur rest).Pairwise (fun s t => s.stop < t.start) := by
  induction rest generalizing i cur with
  | nil => cases cur <;> simp [tokensFrom]
  | cons c rest ih =>
    cases hcb : c.boundary with
    | true =>
      obtain ⟨h1, h2⟩ := ih (i + 1) none (Nat.le_refl _)
      rw [Option.getD_none] at h1
      cases cur with
      | none => rw [tokensFrom_boundary_none hcb]; exact ⟨fun t ht => Nat.le_of_succ_le (h1 t ht), h2⟩
      | some a =>
        rw [Option.getD_some] at hc
        rw [tokensFrom_boundary_some hcb, Option.getD_some]
        refine ⟨fun t ht => ?_, List.pairwise_cons.2 ⟨fun t ht => Nat.lt_of_succ_le (h1 t ht), h2⟩⟩
        rcases List.mem_cons.1 ht with rfl | ht
        · exact Nat.le_refl _
        · exact Nat.le_trans hc (Nat.le_of_succ_le (h1 t ht))
    | false => rw [tokensFrom_plain hcb]; exact ih (i + 1) _ (by simpa using Nat.le_succ_of_le hc)

/-! ### Runs trimmed to a word -/

/-- A list cut at the first and the last of its elements with a property. -/
structure TrimsTo {α : Type} (l : α → Bool) (run lead word tail : List α) : Prop where
  eq : run = lead ++ (word ++ tail)
  lead : ∀ c ∈ lead, l c = false
  tail : ∀ c ∈ tail, l c = false
  head : ∃ c, word.head? = some c ∧ l c = true
  last : ∃ c, word.getLast? = some c ∧ l c = true

theorem takeWhile_append_stops {α : Type} {p : α → Bool} {a b : List α} (ha : ∀ c ∈ a, p c = true)
    (hb : ∀ c, b.head? = some c → p c = false) : (a ++ b).takeWhile p = a := by
  rw [List.takeWhile_append_of_pos ha]
  cases b with
  | nil => simp
  | cons c b => rw [List.takeWhile_cons_of_neg (by simp [hb c rfl]), List.append_nil]

theorem dropWhile_head {α : Type} {p : α → Bool} {a : List α} {c : α} (h : (a.dropWhile p).head? = some c) : p c = false := by
  have := List.head?_dropWhile_not p a
  rw [h] at this; simpa using this

namespace TrimsTo
variable {α : Type} {l : α → Bool} {run lead word tail : List α}

theorem takeWhile (h : TrimsTo l run lead word tail) : run.takeWhile (fun c => !l c) = lead := by
  obtain ⟨c, hc, hl⟩ := h.head
  rw [h.eq]
  refine takeWhile_append_stops (fun c hc => by simp [h.lead c hc]) fun d hd => ?_
  rw [List.head?_append, hc] at hd
  cases hd; simp [hl]

theorem takeWhile_reverse (h : TrimsTo l run lead word tail) : run.reverse.takeWhile (fun c => !l c) = tail.reverse := by
  obtain ⟨c, hc, hl⟩ := h.last
  rw [h.eq, List.reverse_append, List.reverse_append, List.append_assoc]
  refine takeWhile_append_stops (fun c hc => by simp [h.tail c (List.mem_reverse.1 hc)]) fun d hd => ?_
  rw [List.head?_append, List.head?_reverse, hc] at hd
  cases hd; simp [hl]

theorem word_ne_nil (h : TrimsTo l run lead word tail) : word ≠ [] := by
  obtain ⟨c, hc, -⟩ := h.head
  rintro rfl; cases hc

end TrimsTo

theorem exists_trimsTo {α : Type} (l : α → Bool) (run : List α) (h : ∃ c ∈ run, l c = true) :
    ∃ lead word tail, TrimsTo l run lead word tail := by
  set body := run.dropWhile (fun c => !l c) with hbody
  have hr : run = run.takeWhile (fun c => !l c) ++ body := (List.takeWhile_append_dropWhile).symm
  have hlead : ∀ c ∈ run.takeWhile (fun c => !l c), l c = false := fun c hc => by
    simpa using List.mem_takeWhile_imp hc
  have hb : body = (body.reverse.dropWhile (fun c => !l c)).reverse ++ (body.reverse.takeWhile (fun c => !l c)).reverse := by
    rw [← List.reverse_append, List.takeWhile_append_dropWhile, List.reverse_reverse]
  have htail : ∀ c ∈ (body.reverse.takeWhile (fun c => !l c)).reverse, l c = false := fun c hc => by
    simpa using List.mem_takeWhile_imp (List.mem_reverse.1 hc)
  have hne : (body.reverse.dropWhile (fun c => !l c)).reverse ≠ [] := fun e => by
    rw [e, List.nil_append] at hb
    obtain ⟨c, hc, hl⟩ := h
    rw [hr] at hc
    rcases List.mem_append.1 hc with hc | hc
    · rw [hlead c hc] at hl; cases hl
    · rw [hb] at hc; rw [htail c hc] at hl; cases hl
  obtain ⟨c, rest, hw⟩ := List.exists_cons_of_ne_nil hne
  refine ⟨_, _, _, hr.trans (congrArg _ hb), hlead, htail, ⟨c, by rw [hw]; rfl, ?_⟩, ?_⟩
  · have hc : body.head? = some c := by rw [hb, hw]; rfl
    simpa using dropWhile_head hc
  · rw [List.getLast?_reverse]
    cases hd : (body.reverse.dropWhile (fun c => !l c)).head? with
    | none => rw [List.head?_eq_none_iff] at hd; rw [hd] at hne; exact absurd rfl hne
    | some d => exact ⟨d, rfl, by simpa using dropWhile_head hd⟩

/-! ### Tokens as runs of cells -/

/-- A run of cells between boundary cells or the edges of the line. -/
structure IsRun (cells before run after : List Cell) : Prop where
  eq : cells = before ++ (run ++ after)
  before : ∀ c, before.getLast? = some c → c.boundary = true
  after : ∀ c, after.head? = some c → c.boundary = true
  plain : ∀ c ∈ run, c.boundary = false

/-- The token of a run. -/
def tokenOf (before run after : List Cell) : Token :=
  ⟨before.length, before.length + run.length, !after.isEmpty⟩

theorem IsRun.isToken {cells before run after : List Cell} (h : IsRun cells before run after) (hne : run ≠ []) :
    IsToken cells (tokenOf before run after) := by
  have hl : cells.length = before.length + (run.length + after.length) := by rw [h.eq]; simp
  have hp : 0 < run.length := List.length_pos_iff.2 hne
  have hcomplete : (!after.isEmpty) = decide (before.length + run.length < cells.length) := by
    cases after <;> simp [hl]
  refine ⟨by simp only [tokenOf]; omega, by simp only [tokenOf]; omega, fun j h1 h2 => ?_, ?_, hcomplete, fun hlt => ?_⟩
  · simp only [tokenOf] at h1 h2
    have hj : j - before.length < run.length := by omega
    rw [boundaryAt, h.eq, List.getElem?_append_right h1, List.getElem?_append_left hj, List.getElem?_eq_getElem hj]
    exact h.plain _ (List.getElem_mem hj)
  · simp only [tokenOf]
    cases hb : before.getLast? with
    | none => left; rw [List.getLast?_eq_none_iff.1 hb]; rfl
    | some c =>
      right
      have hb' := hb
      rw [List.getLast?_eq_getElem?] at hb'
      have hlt : before.length - 1 < before.length := (List.getElem?_eq_some_iff.1 hb').1
      rw [boundaryAt, h.eq, List.getElem?_append_left hlt, hb']
      exact h.before c hb
  · simp only [tokenOf] at hlt ⊢
    have ha : after.head? = cells[before.length + run.length]? := by
      rw [h.eq, List.getElem?_append_right (by omega), List.getElem?_append_right (by omega), List.head?_eq_getElem?]
      congr 1; omega
    obtain ⟨c, hc⟩ : ∃ c, cells[before.length + run.length]? = some c := ⟨_, List.getElem?_eq_getElem hlt⟩
    rw [boundaryAt, hc]
    exact h.after c (ha.trans hc)

theorem IsToken.isRun {cells : List Cell} {t : Token} (h : IsToken cells t) :
    ∃ before run after, IsRun cells before run after ∧ run ≠ [] ∧ t = tokenOf before run after := by
  have hlt := h.nonempty
  have hle := h.within
  have hlen : ((cells.drop t.start).take (t.stop - t.start)).length = t.stop - t.start := by simp; omega
  have hbl : (cells.take t.start).length = t.start := by simp; omega
  refine ⟨cells.take t.start, (cells.drop t.start).take (t.stop - t.start), cells.drop t.stop, ⟨?_, fun c hc => ?_,
    fun c hc => ?_, fun c hc => ?_⟩, fun e => ?_, ?_⟩
  · have : cells.drop t.stop = (cells.drop t.start).drop (t.stop - t.start) := by
      rw [List.drop_drop]; congr 1; omega
    rw [this, List.take_append_drop, List.take_append_drop]
  · rcases h.before with h0 | hb
    · rw [h0] at hc; simp at hc
    · rw [List.getLast?_eq_getElem?, hbl] at hc
      have hs : t.start - 1 < t.start := by
        by_contra hn
        rw [show t.start = 0 by omega] at hc; simp at hc
      rw [List.getElem?_take_of_lt hs] at hc
      rw [boundaryAt, hc] at hb; exact hb
  · rw [List.head?_drop] at hc
    have hs : t.stop < cells.length := (List.getElem?_eq_some_iff.1 hc).1
    have := h.after hs
    rw [boundaryAt, hc] at this; exact this
  · obtain ⟨j, hj, hcj⟩ := List.getElem_of_mem hc
    rw [hlen] at hj
    have hin := h.inside (t.start + j) (by omega) (by omega)
    have hc' : cells[t.start + j]? = some c := by
      rw [← List.getElem?_drop, ← List.getElem?_take_of_lt hj]
      exact List.getElem?_eq_some_iff.2 ⟨_, hcj⟩
    rw [boundaryAt, hc'] at hin; exact hin
  · rw [e] at hlen; simp at hlen; omega
  · have hk : t.complete = !(cells.drop t.stop).isEmpty := by
      rw [h.complete]
      by_cases hs : t.stop < cells.length
      · simp [hs]
      · simp [hs]; omega
    unfold tokenOf
    rw [hbl, hlen, ← hk, show t.start + (t.stop - t.start) = t.stop by omega]

/-! ### Words -/

/-- R128: a line cut at one of its words: the word's token is `lead ++ word ++ tail`. -/
structure Division (cells before lead word tail after : List Cell) : Prop where
  run : IsRun cells before (lead ++ (word ++ tail)) after
  trim : TrimsTo (fun c => isLetter c.code) (lead ++ (word ++ tail)) lead word tail

theorem Cell.letter_of_plain {c : Cell} (h : c.boundary = false) : c.letter = isLetter c.code := by
  unfold Cell.boundary at h
  unfold Cell.letter isLetter
  cases hk : c.kind <;> simp_all

theorem Division.length {cells before lead word tail after : List Cell}
    (h : Division cells before lead word tail after) :
    cells.length = before.length + lead.length + word.length + tail.length + after.length := by
  rw [h.run.eq]; simp; omega

theorem Division.eq {cells before lead word tail after : List Cell}
    (h : Division cells before lead word tail after) : cells = (before ++ lead) ++ (word ++ (tail ++ after)) := by
  rw [h.run.eq]; simp

/-- R128: the trim of a token that is a run. -/
theorem trim_tokenOf {cells before run after : List Cell} (h : IsRun cells before run after) {w : RawWord} :
    (tokenOf before run after).trim cells = some w ↔
      ∃ lead word tail, run = lead ++ (word ++ tail) ∧ Division cells before lead word tail after
        ∧ w = ⟨before.length + lead.length, word.length, !after.isEmpty⟩ := by
  have hcodes : codesOf cells before.length (before.length + run.length - before.length) = run.map (·.code) := by
    unfold codesOf
    rw [h.eq, List.drop_left, Nat.add_sub_cancel_left, List.take_left]
  have hl : ((run.map (·.code)).takeWhile fun c => !isLetter c).length
      = (run.takeWhile fun c => !isLetter c.code).length := by
    rw [List.takeWhile_map, List.length_map]; rfl
  have ht : ((run.map (·.code)).reverse.takeWhile fun c => !isLetter c).length
      = (run.reverse.takeWhile fun c => !isLetter c.code).length := by
    rw [← List.map_reverse, List.takeWhile_map, List.length_map]; rfl
  unfold Token.trim tokenOf
  dsimp only
  rw [hcodes, hl, ht, List.length_map]
  constructor
  · intro hw
    split at hw
    · cases hw
    · next hne =>
      have hex : ∃ c ∈ run, isLetter c.code = true := by
        by_contra hno
        refine hne (congrArg List.length (List.takeWhile_eq_self_iff.2 fun c hc => ?_))
        cases hcl : isLetter c.code with
        | true => exact absurd ⟨c, hc, hcl⟩ hno
        | false => rfl
      obtain ⟨lead, word, tail, hd⟩ := exists_trimsTo (fun c : Cell => isLetter c.code) run hex
      have h1 := hd.takeWhile
      have h2 := hd.takeWhile_reverse
      have hlen := congrArg List.length hd.eq
      simp only [List.length_append] at hlen
      rw [h1, h2, List.length_reverse] at hw
      refine ⟨lead, word, tail, hd.eq, ⟨hd.eq ▸ h, hd.eq ▸ hd⟩, ?_⟩
      rw [← Option.some.inj hw, show run.length - lead.length - tail.length = word.length by omega]
  · rintro ⟨lead, word, tail, hrun, hd, rfl⟩
    have h1 := hd.trim.takeWhile
    have h2 := hd.trim.takeWhile_reverse
    have hlen := congrArg List.length hrun
    simp only [List.length_append] at hlen
    have hpos := List.length_pos_iff.2 hd.trim.word_ne_nil
    rw [hrun, h1, h2, List.length_reverse, ← hrun, if_neg (by omega),
      show run.length - lead.length - tail.length = word.length by omega]

/-- R128: the words of a line are the words of its divisions. -/
theorem mem_wordsOf {cells : List Cell} {w : RawWord} : w ∈ wordsOf cells ↔
    ∃ before lead word tail after, Division cells before lead word tail after
      ∧ w = ⟨before.length + lead.length, word.length, !after.isEmpty⟩ := by
  unfold wordsOf
  rw [List.mem_filterMap]
  constructor
  · rintro ⟨t, ht, hw⟩
    obtain ⟨before, run, after, hrun, -, rfl⟩ := (mem_tokens.1 ht).isRun
    obtain ⟨lead, word, tail, -, hd, rfl⟩ := (trim_tokenOf hrun).1 hw
    exact ⟨before, lead, word, tail, after, hd, rfl⟩
  · rintro ⟨before, lead, word, tail, after, hd, rfl⟩
    refine ⟨_, mem_tokens.2 (hd.run.isToken ?_), (trim_tokenOf hd.run).2 ⟨lead, word, tail, rfl, hd, rfl⟩⟩
    simp [hd.trim.word_ne_nil]

/-- R128, in the words of the statements: cells [first, first + count) are the word of a division. -/
theorem wordAtCells_iff {cells : List Cell} {first count : Nat} : wordAtCells cells first count = true ↔
    ∃ before lead word tail after, Division cells before lead word tail after
      ∧ first = before.length + lead.length ∧ count = word.length := by
  have hnb : (fun c : Cell => !(c.kind != .character || c.code == 0x2D)) = fun c : Cell => !c.boundary := rfl
  unfold wordAtCells
  dsimp only
  rw [hnb]
  simp only [Bool.and_eq_true, beq_iff_eq, List.all_eq_true, Bool.not_eq_true']
  constructor
  · rintro ⟨⟨⟨⟨⟨hlen, hplain⟩, hhead⟩, hlast⟩, hbefore⟩, hafter⟩
    set word := (cells.drop first).take count with hword
    set front := (cells.take first).reverse with hfront
    set back := cells.drop (first + count) with hback
    have hf : cells.take first = (front.dropWhile fun c => !c.boundary).reverse
        ++ (front.takeWhile fun c => !c.boundary).reverse := by
      rw [← List.reverse_append, List.takeWhile_append_dropWhile, hfront, List.reverse_reverse]
    have hb : back = (back.takeWhile fun c => !c.boundary) ++ back.dropWhile fun c => !c.boundary :=
      (List.takeWhile_append_dropWhile).symm
    have heq : cells = cells.take first ++ (word ++ back) := by
      rw [hback, ← List.drop_drop, List.take_append_drop, List.take_append_drop]
    have hw0 : word ≠ [] := by rintro e; rw [e] at hhead; simp at hhead
    have hfl : first ≤ cells.length := by
      by_contra hn
      exact hw0 (by rw [hword, List.drop_eq_nil_of_le (by omega), List.take_nil])
    have hletter {c : Cell} (hc : c.boundary = false) (k : Bool) (h : c.letter = k) : isLetter c.code = k := by
      rw [← Cell.letter_of_plain hc]; exact h
    have hfp {c : Cell} (hc : c ∈ (front.takeWhile fun c => !c.boundary).reverse) : c.boundary = false := by
      simpa using List.mem_takeWhile_imp (List.mem_reverse.1 hc)
    have hbp {c : Cell} (hc : c ∈ back.takeWhile fun c => !c.boundary) : c.boundary = false := by
      simpa using List.mem_takeWhile_imp hc
    refine ⟨(front.dropWhile fun c => !c.boundary).reverse, (front.takeWhile fun c => !c.boundary).reverse, word,
      back.takeWhile fun c => !c.boundary, back.dropWhile fun c => !c.boundary,
      ⟨⟨?_, fun c hc => ?_, fun c hc => ?_, fun c hc => ?_⟩, rfl, fun c hc => ?_, fun c hc => ?_, ?_, ?_⟩, ?_, hlen.symm⟩
    · rw [hf] at heq
      conv_rhs at heq => rw [hb]
      simpa using heq
    · rw [List.getLast?_reverse] at hc; simpa using dropWhile_head hc
    · simpa using dropWhile_head hc
    · simp only [List.mem_append] at hc
      rcases hc with hc | hc | hc
      · exact hfp hc
      · exact hplain c hc
      · exact hbp hc
    · exact hletter (hfp hc) _ (hbefore c (List.mem_reverse.1 hc))
    · exact hletter (hbp hc) _ (hafter c hc)
    · obtain ⟨c, hc, hl⟩ := (Option.any_eq_true _ _).1 hhead
      exact ⟨c, hc, hletter (hplain c (List.mem_of_head? hc)) _ hl⟩
    · obtain ⟨c, hc, hl⟩ := (Option.any_eq_true _ _).1 hlast
      exact ⟨c, hc, hletter (hplain c (List.mem_of_getLast? hc)) _ hl⟩
    · have := congrArg List.length hf
      rw [List.length_append, List.length_take, Nat.min_eq_left hfl] at this
      exact this
  · rintro ⟨before, lead, word, tail, after, hd, rfl, rfl⟩
    have hplain {c : Cell} (hc : c ∈ lead ++ (word ++ tail)) := hd.run.plain c hc
    have hdrop : cells.drop (before.length + lead.length) = word ++ (tail ++ after) := by
      rw [← List.length_append, hd.eq, List.drop_left]
    have htake : cells.take (before.length + lead.length) = before ++ lead := by
      rw [← List.length_append, hd.eq, List.take_left]
    have hback : cells.drop (before.length + lead.length + word.length) = tail ++ after := by
      rw [← List.drop_drop, hdrop, List.drop_left]
    have hfw : (before ++ lead).reverse.takeWhile (fun c => !c.boundary) = lead.reverse := by
      rw [List.reverse_append]
      refine takeWhile_append_stops (fun c hc => ?_) fun c hc => ?_
      · simp [hplain (List.mem_append_left _ (List.mem_reverse.1 hc))]
      · rw [List.head?_reverse] at hc; simp [hd.run.before c hc]
    have hbw : (tail ++ after).takeWhile (fun c => !c.boundary) = tail := by
      refine takeWhile_append_stops (fun c hc => ?_) fun c hc => ?_
      · simp [hplain (List.mem_append_right _ (List.mem_append_right _ hc))]
      · simp [hd.run.after c hc]
    have hletter {c : Cell} (hc : c ∈ lead ++ (word ++ tail)) : c.letter = isLetter c.code :=
      Cell.letter_of_plain (hplain hc)
    rw [hdrop, htake, hback, List.take_left, hfw, hbw]
    refine ⟨⟨⟨⟨⟨rfl, fun c hc => ?_⟩, ?_⟩, ?_⟩, fun c hc => ?_⟩, fun c hc => ?_⟩
    · exact hplain (by simp [hc])
    · obtain ⟨c, hc, hl⟩ := hd.trim.head
      rw [hc, Option.any_some, hletter (by simp [List.mem_of_head? hc])]; exact hl
    · obtain ⟨c, hc, hl⟩ := hd.trim.last
      rw [hc, Option.any_some, hletter (by simp [List.mem_of_getLast? hc])]; exact hl
    · rw [hletter (List.mem_append_left _ (List.mem_reverse.1 hc))]; exact hd.trim.lead c (List.mem_reverse.1 hc)
    · rw [hletter (by simp [hc])]; exact hd.trim.tail c hc

end Sys2Proof.Machine

/-! SUPPORT. The word list of the working line (R129 to R131): what a fresh list holds, what the attempts make of it, and
what an edit leaves of the Spelling Unit. -/

namespace Sys2Proof.Machine

/-! ### The words of a line, in order -/

theorem trim_within {cells : List Cell} {t : Token} {w : RawWord} (ht : IsToken cells t) (hw : t.trim cells = some w) :
    t.start ≤ w.first ∧ w.first + w.count ≤ t.stop ∧ 0 < w.count := by
  obtain ⟨before, run, after, hrun, -, rfl⟩ := ht.isRun
  obtain ⟨lead, word, tail, hr, hd, rfl⟩ := (trim_tokenOf hrun).1 hw
  have hpos := List.length_pos_iff.2 hd.trim.word_ne_nil
  have := congrArg List.length hr
  simp only [List.length_append] at this
  simp only [tokenOf]
  omega

/-- R128: the words stand left to right, no two overlapping. -/
theorem wordsOf_ordered (cells : List Cell) : (wordsOf cells).Pairwise (fun a b => a.first < b.first) := by
  unfold wordsOf
  rw [List.pairwise_filterMap]
  refine (tokensFrom_ordered cells 0 none (Nat.le_refl _)).2.imp_of_mem fun {s t} hs ht hlt a ha b hb => ?_
  have h1 := trim_within (mem_tokens.1 hs) ha
  have h2 := trim_within (mem_tokens.1 ht) hb
  omega

theorem wordAtCells_of_mem {cells : List Cell} {w : RawWord} (h : w ∈ wordsOf cells) :
    wordAtCells cells w.first w.count = true := by
  obtain ⟨before, lead, word, tail, after, hd, rfl⟩ := mem_wordsOf.1 h
  exact wordAtCells_iff.2 ⟨before, lead, word, tail, after, hd, rfl, rfl⟩

/-- R128: a word stands in the list, complete exactly when a boundary cell follows it. -/
theorem mem_of_wordAtCells {cells : List Cell} {first count : Nat} (h : wordAtCells cells first count = true) :
    ∃ k : Bool, ⟨first, count, k⟩ ∈ wordsOf cells
      ∧ k = (cells.drop (first + count)).any (·.boundary) := by
  obtain ⟨before, lead, word, tail, after, hd, rfl, rfl⟩ := wordAtCells_iff.1 h
  refine ⟨_, mem_wordsOf.2 ⟨before, lead, word, tail, after, hd, rfl⟩, ?_⟩
  have hdrop : cells.drop (before.length + lead.length + word.length) = tail ++ after := by
    rw [← List.length_append, ← List.length_append, hd.eq, ← List.append_assoc, List.drop_left]
  have htail : tail.any (·.boundary) = false :=
    List.any_eq_false.2 fun c hc => by simp [hd.run.plain c (by simp [hc])]
  rw [hdrop, List.any_append, htail, Bool.false_or]
  cases ha : after with
  | nil => rfl
  | cons c rest => simp [hd.run.after c (by rw [ha]; rfl)]

theorem count_pos_of_wordAtCells {cells : List Cell} {first count : Nat} (h : wordAtCells cells first count = true) :
    0 < count ∧ first + count ≤ cells.length ∧ (codesOf cells first count).length = count := by
  obtain ⟨before, lead, word, tail, after, hd, rfl, rfl⟩ := wordAtCells_iff.1 h
  have hpos := List.length_pos_iff.2 hd.trim.word_ne_nil
  have := hd.length
  refine ⟨hpos, by omega, ?_⟩
  unfold codesOf
  simp only [List.length_map, List.length_take, List.length_drop]
  omega

/-! ### Fresh records -/

/-- R128, in the words of the statements. -/
theorem skippedWord_iff (codes : List Byte) (h : 0 < codes.length) :
    skippedWord codes = true ↔ codes.length = 1 ∨ ∃ c ∈ codes, fold c = none ∧ c ≠ 0x27 := by
  have hcode (c : Byte) : isWordCode c = true ↔ ¬ (fold c = none ∧ c ≠ 0x27) := by
    unfold isWordCode isLetter apostrophe
    cases fold c <;> simp
  unfold skippedWord
  rw [Bool.or_eq_true, decide_eq_true_eq, Bool.not_eq_true', List.all_eq_false]
  refine or_congr (by omega) (exists_congr fun c => and_congr_right fun _ => ?_)
  rw [hcode, not_not]

theorem makeRecord_classed {l : WorkingLine} {w : RawWord} (hw : w ∈ wordsOf l.cells) :
    (makeRecord l w).classed l := by
  obtain ⟨hpos, -, hlen⟩ := count_pos_of_wordAtCells (wordAtCells_of_mem hw)
  have hs := skippedWord_iff (codesOf l.cells w.first w.count) (by omega)
  rw [hlen] at hs
  have hl : (if (makeRecord l w).joined = true then (l.joined.map (·.letters)).getD [] else [])
      = (match if w.first = 0 then l.joined else none with
        | some f => f.letters
        | none => []) := by
    unfold makeRecord; dsimp only
    split <;> cases l.joined <;> simp
  unfold WordRecord.classed
  dsimp only
  rw [hl]
  refine ⟨rfl, rfl, ?_, fun h => ?_, fun h hlong => ?_, fun h hshort => ?_⟩
  · unfold makeRecord; dsimp only
    split <;> simp_all
  · have : (l.unmapped || skippedWord (codesOf l.cells w.first w.count)) = true := by
      rw [Bool.or_eq_true, hs]; exact h
    unfold makeRecord; simp [this]
  · have : (l.unmapped || skippedWord (codesOf l.cells w.first w.count)) = false := by
      rw [Bool.eq_false_iff, Ne, Bool.or_eq_true, hs]; exact h
    unfold makeRecord; simp only [this]; rw [List.length_append] at hlong; exact ⟨rfl, by simp; exact hlong⟩
  · have : (l.unmapped || skippedWord (codesOf l.cells w.first w.count)) = false := by
      rw [Bool.eq_false_iff, Ne, Bool.or_eq_true, hs]; exact h
    left; unfold makeRecord; simp only [this]; rw [List.length_append] at hshort; refine ⟨rfl, by simp; exact hshort⟩

/-! ### The list divided anew -/

/-- What the list says of the cells depends on these parts of the line alone. -/
theorem wordsAnew.of_same {s t : State} (h : wordsAnew s) (hk : wordListKept t = wordListKept s)
    (hc : t.line.cells = s.line.cells) (hw : t.line.words = s.line.words) (hj : t.line.joined = s.line.joined)
    (hg : t.line.generation = s.line.generation) (hu : t.line.unmapped = s.line.unmapped) : wordsAnew t := by
  unfold wordsAnew WordRecord.classed at h ⊢
  rw [hk, hc, hw, hj, hg, hu]; exact h

/-- The line with a fresh list. -/
def freshList (s : State) : State := { s with line := { s.line with words := freshRecords s } }

/-- R129: a fresh list is divided anew from the cells. -/
theorem freshList_anew (s : State) : wordsAnew (freshList s) := by
  refine ⟨fun h => ?_, fun h => ?_⟩
  · show freshRecords s = []
    rw [freshRecords, show wordListKept s = false from h]; rfl
  · have hw : (freshList s).line.words = (wordsOf s.line.cells).map (makeRecord s.line) := by
      show freshRecords s = _
      rw [freshRecords, show wordListKept s = true from h, if_pos rfl]
    rw [hw]
    refine ⟨fun w hm => ?_, fun i _ n _ hi => ?_, ?_, fun w hm => ?_⟩
    · obtain ⟨x, hx, rfl⟩ := List.mem_map.1 hm
      exact wordAtCells_of_mem hx
    · obtain ⟨k, hk, -⟩ := mem_of_wordAtCells hi
      exact ⟨_, List.mem_map_of_mem hk, rfl, rfl⟩
    · exact List.pairwise_map.2 (wordsOf_ordered s.line.cells)
    · obtain ⟨x, hx, rfl⟩ := List.mem_map.1 hm
      exact makeRecord_classed hx

/-- R144: without a word at cell 0 no record is joined, and the list stands when the fragment goes. -/
theorem wordsAnew.unjoined {s t : State} (h : wordsAnew s) (h0 : ∀ w ∈ s.line.words, w.first ≠ 0)
    (ht : t.line = { s.line with joined := none }) (hk : wordListKept t = wordListKept s) : wordsAnew t := by
  refine ⟨fun k => ?_, fun k => ?_⟩
  · rw [ht]; exact h.1 (hk ▸ k)
  · obtain ⟨h1, h2, h3, h4⟩ := h.2 (hk ▸ k)
    rw [ht]
    refine ⟨h1, h2, h3, fun w hm => ?_⟩
    obtain ⟨hg, hu, hj, hc⟩ := h4 w hm
    have hf : (w.first == 0) = false := by simpa using h0 w hm
    have hn : w.joined = false := by rw [hj, hf]; rfl
    unfold WordRecord.classed at *
    simp only [hn, hf, Bool.false_and, if_neg Bool.false_ne_true, List.nil_append, true_and] at *
    exact ⟨hg, hu, hc⟩

/-- A fresh word in class of its own is never Unchecked without a cause. -/
theorem WordRecord.classed.checkable {l : WorkingLine} {w : WordRecord} (h : w.classed l) (hu : w.status = .unchecked)
    (hn : w.cause = none) (g : WordRecord → WordRecord) (hf : (g w).first = w.first) (hc : (g w).count = w.count)
    (hup : (g w).upper = w.upper) (hge : (g w).generation = w.generation) (hj : (g w).joined = w.joined)
    (hs : ((g w).status = .unchecked ∧ (g w).cause ≠ some .long) ∨ (g w).status = .queued ∨ (g w).status = .good) :
    (g w).classed l := by
  unfold WordRecord.classed at *
  dsimp only at *
  rw [hf, hc, hup, hge, hj]
  obtain ⟨h1, h2, h3, h4, h5, -⟩ := h
  refine ⟨h1, h2, h3, fun k => ?_, fun k k' => ?_, fun _ _ => hs⟩
  · have := h4 k; rw [hu] at this; cases this
  · have := (h5 k k').2; rw [hn] at this; cases this

theorem first_unique {words : List WordRecord} (h : words.Pairwise (fun a b => a.first < b.first)) {a b : WordRecord}
    (ha : a ∈ words) (hb : b ∈ words) (e : a.first = b.first) : a = b :=
  List.inj_on_of_nodup_map ((List.pairwise_map.2 h).imp Nat.ne_of_lt) ha hb e

/-- R130: an attempt settles or queues the word found there, when it is Unchecked without a cause. -/
theorem wordsAnew.setWord {s t : State} {first : Nat} {g : WordRecord → WordRecord} {w : WordRecord} (h : wordsAnew s)
    (hw : s.line.words.find? (·.first == first) = some w) (hu : w.status = .unchecked) (hn : w.cause = none)
    (hl : t.line = (Machine.setWord first g s).line) (hk : wordListKept t = wordListKept s)
    (hg : ∀ r, (g r).first = r.first ∧ (g r).count = r.count ∧ (g r).upper = r.upper ∧ (g r).generation = r.generation
      ∧ (g r).joined = r.joined)
    (hs : ((g w).status = .unchecked ∧ (g w).cause ≠ some .long) ∨ (g w).status = .queued ∨ (g w).status = .good) :
    wordsAnew t := by
  have hm : w ∈ s.line.words := List.mem_of_find?_eq_some hw
  have hf : w.first = first := by simpa using List.find?_some hw
  have hwords : t.line.words = s.line.words.map fun r => if r.first = first then g r else r := by rw [hl]; rfl
  have hfix : ∀ r : WordRecord, (if r.first = first then g r else r).first = r.first
      ∧ (if r.first = first then g r else r).count = r.count := fun r => by
    split
    · exact ⟨(hg r).1, (hg r).2.1⟩
    · exact ⟨rfl, rfl⟩
  refine ⟨fun k => ?_, fun k => ?_⟩
  · rw [hwords, h.1 (hk ▸ k)]; rfl
  · obtain ⟨h1, h2, h3, h4⟩ := h.2 (hk ▸ k)
    have hline : t.line = { s.line with words := s.line.words.map fun r => if r.first = first then g r else r } := hl
    rw [hline]
    dsimp only
    refine ⟨fun r hr => ?_, fun i hi n hn' hin => ?_, ?_, fun r hr => ?_⟩
    · obtain ⟨x, hx, rfl⟩ := List.mem_map.1 hr
      rw [(hfix x).1, (hfix x).2]; exact h1 x hx
    · obtain ⟨x, hx, hx1, hx2⟩ := h2 i hi n hn' hin
      exact ⟨_, List.mem_map_of_mem hx, by rw [(hfix x).1, hx1], by rw [(hfix x).2, hx2]⟩
    · refine List.pairwise_map.2 (h3.imp fun hab => ?_)
      rw [(hfix _).1, (hfix _).1]; exact hab
    · obtain ⟨x, hx, rfl⟩ := List.mem_map.1 hr
      split
      · next hxf =>
        have hxw : x = w := first_unique h3 hx hm (hxf.trans hf.symm)
        obtain ⟨g1, g2, g3, g4, g5⟩ := hg x
        exact (hxw ▸ h4 w hm : x.classed s.line).checkable (hxw ▸ hu) (hxw ▸ hn) g g1 g2 g3 g4 g5 (hxw ▸ hs)
      · exact h4 x hx

/-! ### Attempts -/

/-- R130: the attempt for word `w` came to something: the record becomes `g` of itself, and `more` joins the queue. -/
structure Tried (first : Nat) (p : Port) (w : WordRecord) (g : WordRecord → WordRecord) (more : List SpellEntry)
    (s t : State) : Prop where
  holder : s.line.holder = some p
  found : s.line.words.find? (·.first == first) = some w
  unchecked : w.status = .unchecked
  causeless : w.cause = none
  line : t.line = (setWord first g s).line
  spelling : t.spelling = { s.spelling with queue := s.spelling.queue ++ more }
  rest : t.options = s.options ∧ t.lift = s.lift
  keeps : ∀ r, (g r).first = r.first ∧ (g r).count = r.count ∧ (g r).upper = r.upper
    ∧ (g r).generation = r.generation ∧ (g r).joined = r.joined
  outcome : (more = [] ∧ ((g w).status = .good ∨ ((g w).status = .unchecked ∧ (g w).cause = some .unavailable)))
    ∨ ((g w).status = .queued ∧ ∃ e, more = [e] ∧ e.serial = s.line.serial ∧ e.first = w.first ∧ e.count = w.count
      ∧ e.generation = w.generation ∧ e.origin = .line p)

/-- R130, R136: an attempt comes to something or leaves all as it is; then the word is settled or queued, or the spell
queue is full. -/
theorem attemptWord_inv (first : Nat) (s : State) :
    (attemptWord first s = s ∧ ∀ p w, s.line.holder = some p → s.line.words.find? (·.first == first) = some w →
        w.status = .unchecked → w.cause = none → 8 ≤ s.spelling.queue.length)
      ∨ ∃ p w g more, Tried first p w g more s (attemptWord first s) := by
  unfold attemptWord
  split
  · next p w hp hw =>
    split
    · next hu =>
      simp only [Bool.and_eq_true, decide_eq_true_eq, Option.isNone_iff_eq_none] at hu
      dsimp only
      split
      · right
        exact ⟨p, w, fun r => { r with status := .good }, [], hp, hw, hu.1, hu.2, rfl, by simp [setWord], ⟨rfl, rfl⟩,
          fun r => ⟨rfl, rfl, rfl, rfl, rfl⟩, .inl ⟨rfl, .inl rfl⟩⟩
      · split
        · next hr =>
          left
          exact ⟨rfl, fun _ _ _ _ _ _ => by
            by_contra hlt; simp [Spelling.room, Config.spellEntries, Nat.not_le.1 hlt] at hr⟩
        · split
          · right
            exact ⟨p, w, fun r => { r with cause := some .unavailable }, [], hp, hw, hu.1, hu.2, rfl, by simp [setWord],
              ⟨rfl, rfl⟩, fun r => ⟨rfl, rfl, rfl, rfl, rfl⟩, .inl ⟨rfl, .inr ⟨hu.1, rfl⟩⟩⟩
          · right
            exact ⟨p, w, fun r => { r with status := .queued }, [_], hp, hw, hu.1, hu.2, rfl, rfl, ⟨rfl, rfl⟩,
              fun r => ⟨rfl, rfl, rfl, rfl, rfl⟩, .inr ⟨rfl, _, rfl, rfl, rfl, rfl, rfl, rfl⟩⟩
    · next hu =>
      left
      refine ⟨rfl, fun _ w' _ hw' h1 h2 => absurd ?_ hu⟩
      rw [hw] at hw'; cases hw'
      simp [h1, h2]
  · next hno =>
    left
    exact ⟨rfl, fun p w hp hw => absurd hw (hno p w hp)⟩

namespace Tried
variable {first : Nat} {p : Port} {w : WordRecord} {g : WordRecord → WordRecord} {more : List SpellEntry} {s t : State}

theorem wordListKept (h : Tried first p w g more s t) : wordListKept t = wordListKept s := by
  have hh : t.line.holder = s.line.holder := by rw [h.line]; rfl
  unfold Machine.wordListKept; rw [hh, h.rest.1, h.rest.2]

theorem words (h : Tried first p w g more s t) : t.line.words = s.line.words.map fun r => if r.first = first then g r else r := by
  rw [h.line]; rfl

theorem anew (h : Tried first p w g more s t) (k : wordsAnew s) : wordsAnew t := by
  refine k.setWord h.found h.unchecked h.causeless h.line h.wordListKept h.keeps ?_
  rcases h.outcome with ⟨-, hg | ⟨hg, hc⟩⟩ | ⟨hg, -⟩
  · exact .inr (.inr hg)
  · exact .inl ⟨hg, by rw [hc]; simp⟩
  · exact .inr (.inl hg)

/-- A record with another status than Unchecked stands. -/
theorem stands (h : Tried first p w g more s t) (k : wordsAnew s) {r : WordRecord} (hr : r ∈ s.line.words)
    (hs : r.status ≠ .unchecked) : r ∈ t.line.words := by
  have hm : w ∈ s.line.words := List.mem_of_find?_eq_some h.found
  have hf : w.first = first := by simpa using List.find?_some h.found
  rw [h.words]
  refine List.mem_map.2 ⟨r, hr, if_neg fun e => hs ?_⟩
  cases hk : Machine.wordListKept s with
  | false => rw [k.1 hk] at hr; cases hr
  | true => rw [first_unique (k.2 hk).2.2.1 hr hm (e.trans hf.symm)]; exact h.unchecked

/-- A record that is left Unchecked without a cause was so before. -/
theorem was (h : Tried first p w g more s t) (k : wordsAnew s) {r : WordRecord} (hr : r ∈ t.line.words)
    (hu : r.status = .unchecked) (hn : r.cause = none) : r ∈ s.line.words ∧ r.first ≠ first := by
  have hm : w ∈ s.line.words := List.mem_of_find?_eq_some h.found
  have hf : w.first = first := by simpa using List.find?_some h.found
  rw [h.words] at hr
  obtain ⟨x, hx, rfl⟩ := List.mem_map.1 hr
  split at hu
  · next e =>
    rw [if_pos e] at hn
    have hxw : x = w := by
      cases hk : Machine.wordListKept s with
      | false => rw [k.1 hk] at hx; cases hx
      | true => exact first_unique (k.2 hk).2.2.1 hx hm (e.trans hf.symm)
    subst hxw
    rcases h.outcome with ⟨-, hg | ⟨-, hc⟩⟩ | ⟨hg, -⟩
    · rw [hg] at hu; cases hu
    · rw [hc] at hn; cases hn
    · rw [hg] at hu; cases hu
  · next e => rw [if_neg e]; exact ⟨hx, e⟩

end Tried

theorem attemptWord_anew {first : Nat} {s : State} (h : wordsAnew s) : wordsAnew (attemptWord first s) := by
  rcases attemptWord_inv first s with ⟨e, -⟩ | ⟨_, _, _, _, ht⟩
  · rw [e]; exact h
  · exact ht.anew h

/-- A record that the attempts leave Unchecked without a cause was so before them. -/
theorem attemptWords_was (firsts : List Nat) {s : State} (h : wordsAnew s) {r : WordRecord}
    (hr : r ∈ (attemptWords firsts s).line.words) (hu : r.status = .unchecked) (hn : r.cause = none) :
    r ∈ s.line.words := by
  induction firsts generalizing s with
  | nil => exact hr
  | cons f firsts ih =>
    have := ih (attemptWord_anew h) hr
    rcases attemptWord_inv f s with ⟨e, -⟩ | ⟨_, _, _, _, ht⟩
    · rwa [e] at this
    · exact (ht.was h this hu hn).1

/-- The record of a first cell is the one found there. -/
theorem find_of_mem {s : State} (h : wordsAnew s) {w : WordRecord} (hw : w ∈ s.line.words) :
    s.line.words.find? (·.first == w.first) = some w := by
  cases hx : s.line.words.find? (·.first == w.first) with
  | none => exact absurd (List.find?_eq_none.1 hx w hw) (by simp)
  | some x =>
    have hm := List.mem_of_find?_eq_some hx
    have hf : x.first = w.first := by simpa using List.find?_some hx
    cases hk : wordListKept s with
    | false => rw [h.1 hk] at hw; cases hw
    | true => rw [first_unique (h.2 hk).2.2.1 hm hw hf]

/-- R130: after the attempts a word tried is left Unchecked without a cause only with a full spell queue. -/
theorem attemptWords_full {p : Port} (firsts : List Nat) {s : State} (hp : s.line.holder = some p) (h : wordsAnew s) {w : WordRecord}
    (hw : w ∈ (attemptWords firsts s).line.words) (hf : w.first ∈ firsts) (hu : w.status = .unchecked)
    (hn : w.cause = none) : 8 ≤ (attemptWords firsts s).spelling.queue.length := by
  induction firsts generalizing s with
  | nil => cases hf
  | cons f firsts ih =>
    have hp' : (attemptWord f s).line.holder = some p := (attemptWord_respelled f s).holder.trans hp
    rcases List.mem_cons.1 hf with hff | hmem
    · have hwf := attemptWords_was firsts (attemptWord_anew h) hw hu hn
      rcases attemptWord_inv f s with ⟨e, hfull⟩ | ⟨_, _, _, _, ht⟩
      · rw [e] at hwf
        have h8 : 8 ≤ (attemptWord f s).spelling.queue.length := by
          rw [e]; exact hfull p w hp (hff ▸ find_of_mem h hwf) hu hn
        exact Nat.le_trans h8 (attemptWords_lookupsStand firsts (attemptWord f s)).length_le
      · exact absurd hff (ht.was h hwf hu hn).2
    · exact ih hp' (attemptWord_anew h) hw hmem

theorem attemptWords_anew (firsts : List Nat) {s : State} (h : wordsAnew s) : wordsAnew (attemptWords firsts s) := by
  induction firsts generalizing s with
  | nil => exact h
  | cons f firsts ih => exact ih (attemptWord_anew h)

theorem attemptWord_spelling (first : Nat) (s : State) :
    (attemptWord first s).spelling = { s.spelling with queue := (attemptWord first s).spelling.queue } := by
  rcases attemptWord_inv first s with ⟨e, -⟩ | ⟨_, _, _, _, ht⟩
  · rw [e]
  · rw [ht.spelling]

theorem attemptWords_spelling (firsts : List Nat) (s : State) :
    (attemptWords firsts s).spelling = { s.spelling with queue := (attemptWords firsts s).spelling.queue } := by
  induction firsts generalizing s with
  | nil => rfl
  | cons f firsts ih =>
    have h := ih (attemptWord f s)
    rw [attemptWord_spelling f s] at h
    exact h

end Sys2Proof.Machine

/-! SUPPORT. The Spelling Unit at an edit and at an insertion at the end of the line (R129 to R131, R144), in the words of
the statements. -/

namespace Sys2Proof.Machine

/-! ### The course of an edit (R131) -/

/-- The lookup of a line of this serial, as the statements say it. -/
theorem ours_iff (s : State) (e : SpellEntry) :
    (e.origin != .query && e.serial == s.line.serial) = ofLine s.line.serial e := rfl

/-- What a lookup of the line is queued for: nothing any more, a record of the list, or the fragment that was joined. -/
def accounted (s t : State) (e : SpellEntry) : Prop :=
  e.stale = true
    ∨ (∃ w ∈ t.line.words, w.first = e.first ∧ w.count = e.count ∧ w.generation = e.generation ∧ w.status = .queued)
    ∨ (t.line.joined = none ∧ ∃ f, s.line.joined = some f ∧ e.letters = f.letters)

/-- An edit under way: the list is new, and each lookup of the line is accounted for. -/
structure editing (s t : State) : Prop where
  suspects : t.spelling.suspects = s.spelling.suspects.filter (·.place != .working)
  printWait : t.spelling.printWait = s.spelling.printWait
  userWords : t.spelling.userWords = s.spelling.userWords
  inFlight : ∀ e ∈ s.spelling.queue, ofLine s.line.serial e = true → e.inFlight = true →
    { e with stale := true } ∈ t.spelling.queue
  others : ∀ e ∈ s.spelling.queue, ofLine s.line.serial e = false →
    e ∈ t.spelling.queue ∨ { e with inFlight := true } ∈ t.spelling.queue
  lookups : ∀ e ∈ t.spelling.queue, ofLine s.line.serial e = true → accounted s t e
  anew : wordsAnew t

namespace editing
variable {s t u : State}

/-- R131 steps 1 to 3. -/
theorem fresh (hs : u.spelling = s.spelling) : editing s (freshList (dropLineSpelling s.line.serial u)) where
  suspects := by rw [← hs]; rfl
  printWait := by rw [← hs]; rfl
  userWords := by rw [← hs]; rfl
  inFlight e he ho hf := mem_discardLookups.2 (.inr ⟨e, hs ▸ he, ho, hf, rfl⟩)
  others e he ho := .inl (mem_discardLookups.2 (.inl ⟨hs ▸ he, ho⟩))
  lookups e he ho := by
    rcases mem_discardLookups.1 he with ⟨-, hn⟩ | ⟨x, -, -, -, rfl⟩
    · rw [ho] at hn; cases hn
    · exact .inl rfl
  anew := freshList_anew _

/-- The Spelling Unit only queues more. -/
theorem more (h : editing s t) {more : List SpellEntry} (hq : u.spelling = { t.spelling with queue := t.spelling.queue ++ more })
    (hold : ∀ e, accounted s t e → accounted s u e)
    (hnew : ∀ e ∈ more, ofLine s.line.serial e = true → accounted s u e) (ha : wordsAnew u) : editing s u where
  suspects := by rw [hq]; exact h.suspects
  printWait := by rw [hq]; exact h.printWait
  userWords := by rw [hq]; exact h.userWords
  inFlight e he ho hf := by rw [hq]; exact List.mem_append_left _ (h.inFlight e he ho hf)
  others e he ho := by
    rw [hq]; exact (h.others e he ho).imp (List.mem_append_left _) (List.mem_append_left _)
  lookups e he ho := by
    rw [hq] at he
    rcases List.mem_append.1 he with he | he
    · exact hold e (h.lookups e he ho)
    · exact hnew e he ho
  anew := ha

theorem attemptWord (h : editing s t) (first : Nat) : editing s (attemptWord first t) := by
  rcases attemptWord_inv first t with ⟨e, -⟩ | ⟨p, w, g, more, ht⟩
  · rw [e]; exact h
  · refine h.more ht.spelling (fun e he => ?_) (fun e he _ => ?_) (ht.anew h.anew)
    · rcases he with hs | ⟨r, hr, h1, h2, h3, h4⟩ | ⟨hj, hf⟩
      · exact .inl hs
      · exact .inr (.inl ⟨r, ht.stands h.anew hr (by rw [h4]; decide), h1, h2, h3, h4⟩)
      · exact .inr (.inr ⟨by rw [ht.line]; exact hj, hf⟩)
    · rcases ht.outcome with ⟨hm, -⟩ | ⟨hq, x, hm, -, h1, h2, h3, -⟩
      · rw [hm] at he; cases he
      · rw [hm] at he
        rw [List.mem_singleton.1 he]
        obtain ⟨g1, g2, -, g4, -⟩ := ht.keeps w
        have hw : w ∈ t.line.words := List.mem_of_find?_eq_some ht.found
        have hf : w.first = first := by simpa using List.find?_some ht.found
        have hin : g w ∈ (Machine.attemptWord first t).line.words := by rw [ht.line]; exact mem_setWord hw hf
        exact .inr (.inl ⟨g w, hin, g1.trans h1.symm, g2.trans h2.symm, g4.trans h3.symm, hq⟩)

theorem attemptWords (h : editing s t) (firsts : List Nat) : editing s (attemptWords firsts t) := by
  induction firsts generalizing t with
  | nil => exact h
  | cons f firsts ih => exact ih (h.attemptWord f)

end editing

/-- The line without its joined fragment. -/
def dropJoined (s : State) : State := { s with line := { s.line with joined := none } }

/-- The line marked unmapped. -/
def markUnmapped (s : State) : State := { s with line := { s.line with unmapped := true } }

/-- R144: the joined fragment stays, or is checked alone when no word begins at cell 0. -/
theorem checkJoined_cases (edited : Bool) (s : State) : checkJoined edited s = s
    ∨ ∃ p f, s.line.holder = some p ∧ s.line.joined = some f ∧ (∀ w ∈ s.line.words, w.first ≠ 0)
      ∧ wordListKept s = true ∧ (edited = true ∨ s.line.cells ≠ [])
      ∧ checkJoined edited s = checkAlone p f (dropJoined s) := by
  unfold checkJoined; split
  · next p f hp hf =>
    split
    · next hc =>
      simp only [Bool.and_eq_true, Bool.or_eq_true, Bool.not_eq_true', List.any_eq_false, beq_iff_eq,
        List.isEmpty_eq_false_iff] at hc
      exact .inr ⟨p, f, hp, hf, hc.2, hc.1.1, hc.1.2, rfl⟩
    · exact .inl rfl
  · exact .inl rfl

theorem wordListKept_congr {s t : State} (hh : t.line.holder = s.line.holder) (ho : t.options = s.options)
    (hl : t.lift = s.lift) : wordListKept t = wordListKept s := by unfold wordListKept; rw [hh, ho, hl]

/-- R144: with the fragment gone the list stands. -/
theorem wordsAnew.checkJoined {s : State} (h : wordsAnew s) (edited : Bool) : wordsAnew (checkJoined edited s) := by
  rcases checkJoined_cases edited s with e | ⟨p, f, hp, hj, h0, -, -, e⟩ <;> rw [e]
  · exact h
  · have hf := checkAlone_frame p f (dropJoined s)
    have hl : (checkAlone p f (dropJoined s)).line = { s.line with joined := none } := checkAlone_line p f _
    exact h.unjoined h0 hl (wordListKept_congr (by rw [hl]) (hf.same .options) (hf.same .lift))

theorem editing.checkJoined {s t : State} (h : editing s t) (hj : t.line.joined = s.line.joined) :
    editing s (checkJoined true t) := by
  have ha := h.anew.checkJoined true
  rcases checkJoined_cases true t with e | ⟨p, f, hp, hf, h0, -, -, e⟩ <;> rw [e] at ha ⊢
  · exact h
  · have hline : (checkAlone p f (dropJoined t)).line = { t.line with joined := none } :=
      checkAlone_line p f _
    have hold (e : SpellEntry) (he : accounted s t e) :
        accounted s (checkAlone p f (dropJoined t)) e := by
      rcases he with hs | hr | ⟨-, hf⟩
      · exact .inl hs
      · exact .inr (.inl (by rw [hline]; exact hr))
      · exact .inr (.inr ⟨by rw [hline], hf⟩)
    have hsp := checkAlone_spelling p f (dropJoined t)
    rcases checkAlone_queue p f (dropJoined t) with hq | ⟨x, hq, hx⟩ <;> rw [hq] at hsp
    · exact h.more (more := []) (by rw [hsp, List.append_nil]; rfl) hold (fun e he => by cases he) ha
    · refine h.more (more := [x]) hsp hold (fun e he _ => ?_) ha
      rw [List.mem_singleton.1 he]
      exact .inr (.inr ⟨by rw [hline], f, hj ▸ hf, hx⟩)

/-! ### An edit, at the end of the step -/

/-- R131: an edit is over when every complete word has been tried. -/
theorem editing.edited {s t : State} (h : editing s t)
    (hfull : ∀ w ∈ t.line.words, w.status = .unchecked → w.cause = none →
      (t.line.cells.drop (w.first + w.count)).any (·.boundary) = true → 8 ≤ t.spelling.queue.length) :
    editedSpelling s t :=
  ⟨h.suspects, h.printWait, h.userWords, h.inFlight, h.others, h.lookups, h.anew, hfull⟩

/-- R131: what the end of the step leaves of an edit. -/
theorem editedSpelling.rests {s t u : State} (h : editedSpelling s t) (r : spellingRests t u)
    (hk : wordListKept u = wordListKept t) (hc : u.line.cells = t.line.cells) (hw : u.line.words = t.line.words)
    (hj : u.line.joined = t.line.joined) (hg : u.line.generation = t.line.generation)
    (hu : u.line.unmapped = t.line.unmapped) : editedSpelling s u := by
  obtain ⟨h1, h2, h3, h4, h5, h6, h7, h8⟩ := h
  refine ⟨r.suspects.trans h1, r.printWait.trans h2, r.userWords.trans h3, fun e he ho hf => ?_, fun e he ho => ?_,
    fun e he ho => ?_, h7.of_same hk hc hw hj hg hu, fun w hm hu hn hb => ?_⟩
  · exact r.stand.2 _ (h4 e he ho hf) hf
  · rcases h5 e he ho with h | h
    · exact r.stand.mem_or_marked h
    · exact .inr (r.stand.2 _ h rfl)
  · have hq : e.origin ≠ .query := ((ofLine_iff _ _).1 ho).1
    obtain ⟨m, hm⟩ := r.origin he hq
    have := h6 _ hm ho
    rw [hw, hj]; exact this
  · rw [hw] at hm; rw [hc] at hb
    exact Nat.le_trans (h8 w hm hu hn hb) r.stand.length_le

/-- R131: the complete words are tried. -/
theorem mem_completeFirsts {s : State} (h : wordsAnew s) {w : WordRecord} (hw : w ∈ s.line.words)
    (hb : (s.line.cells.drop (w.first + w.count)).any (·.boundary) = true) : w.first ∈ completeFirsts s := by
  cases hk : wordListKept s with
  | false => rw [h.1 hk] at hw; cases hw
  | true =>
    obtain ⟨k, hm, hkk⟩ := mem_of_wordAtCells ((h.2 hk).1 w hw)
    refine List.mem_map.2 ⟨_, List.mem_filter.2 ⟨hm, ?_⟩, rfl⟩
    simp [hkk, hb]

/-- R131: what an edit makes of the spelling side; the cells may have changed before it. -/
theorem editSpelling_edited {s u : State} (hs : u.spelling = s.spelling) (hser : u.line.serial = s.line.serial)
    (hj : u.line.joined = s.line.joined) : editedSpelling s (editSpelling u) := by
  have hd : editing s (checkJoined true (freshList (dropLineSpelling s.line.serial u))) :=
    (editing.fresh hs).checkJoined hj
  have he : editSpelling u = attemptWords (completeFirsts (checkJoined true (freshList (dropLineSpelling s.line.serial u))))
      (checkJoined true (freshList (dropLineSpelling s.line.serial u))) := by
    unfold editSpelling rebuildWords; rw [hser]; rfl
  rw [he]
  set c := checkJoined true (freshList (dropLineSpelling s.line.serial u)) with hc
  refine (hd.attemptWords _).edited fun w hw hu hn hb => ?_
  have hwas := attemptWords_was _ hd.anew hw hu hn
  rw [(attemptWords_respelled _ c).cells] at hb
  cases hp : c.line.holder with
  | none =>
    have hk : wordListKept c = false := by unfold wordListKept; rw [hp]
    rw [hd.anew.1 hk] at hwas; cases hwas
  | some p => exact attemptWords_full _ hp hd.anew hw (mem_completeFirsts hd.anew hwas hb) hu hn

/-- R131: so does a line that becomes unmapped: every word is Skipped. -/
theorem unmapLine_edited {s u : State} (hs : u.spelling = s.spelling) (hser : u.line.serial = s.line.serial)
    (hj : u.line.joined = s.line.joined) : editedSpelling s (unmapLine u) := by
  have hd : editing s (checkJoined true (freshList (dropLineSpelling s.line.serial
      (markUnmapped u)))) := (editing.fresh (u := markUnmapped u) hs).checkJoined hj
  have he : unmapLine u = checkJoined true (freshList (dropLineSpelling s.line.serial
      (markUnmapped u))) := by
    unfold unmapLine; rw [hser]; rfl
  rw [he]
  refine hd.edited fun w hw hu _ _ => ?_
  have hun := (checkJoined_respelled true (freshList (dropLineSpelling s.line.serial
    (markUnmapped u)))).unmapped
  set c := checkJoined true (freshList (dropLineSpelling s.line.serial (markUnmapped u)))
  cases hk : wordListKept c with
  | false => rw [hd.anew.1 hk] at hw; cases hw
  | true =>
    obtain ⟨-, -, -, hsk, -⟩ := (hd.anew.2 hk).2.2.2 w hw
    rw [hsk (.inl hun)] at hu; cases hu

/-! ### Words depend on what the cells hold, not on where they lie -/

theorem boundary_congr {c d : Cell} (h : c.content = d.content) : c.boundary = d.boundary := by
  have hk : c.kind = d.kind := congrArg (·.1) h
  have hc : c.code = d.code := congrArg (·.2.1) h
  unfold Cell.boundary; rw [hk, hc]

theorem tokensFrom_congr {l l' : List Cell} (h : l.map (·.content) = l'.map (·.content)) (i : Nat) (cur : Option Nat) :
    tokensFrom i cur l = tokensFrom i cur l' := by
  induction l generalizing l' i cur with
  | nil => cases l' with
    | nil => rfl
    | cons _ _ => cases h
  | cons c l ih =>
    cases l' with
    | nil => cases h
    | cons d l' =>
      obtain ⟨hc, hl⟩ := List.cons.inj h
      cases hb : d.boundary with
      | true =>
        have hb' := (boundary_congr hc).trans hb
        cases cur with
        | none => rw [tokensFrom_boundary_none hb, tokensFrom_boundary_none hb', ih hl]
        | some a => rw [tokensFrom_boundary_some hb, tokensFrom_boundary_some hb', ih hl]
      | false => rw [tokensFrom_plain hb, tokensFrom_plain ((boundary_congr hc).trans hb), ih hl]

theorem codesOf_congr {l l' : List Cell} (h : l.map (·.content) = l'.map (·.content)) (first count : Nat) :
    codesOf l first count = codesOf l' first count := by
  have hc : l.map (·.code) = l'.map (·.code) := by
    have := congrArg (List.map (fun x : CellKind × Byte × Bool × Bool × Nat => x.2.1)) h
    rwa [List.map_map, List.map_map] at this
  unfold codesOf
  rw [List.map_take, List.map_drop, List.map_take, List.map_drop, hc]

theorem trim_congr {l l' : List Cell} (h : l.map (·.content) = l'.map (·.content)) (t : Token) : t.trim l = t.trim l' := by
  unfold Token.trim; rw [codesOf_congr h]

theorem wordsOf_congr {l l' : List Cell} (h : l.map (·.content) = l'.map (·.content)) : wordsOf l = wordsOf l' := by
  unfold wordsOf; rw [tokensFrom_congr h]
  exact congrArg (List.filterMap · _) (funext fun t => trim_congr h t)

theorem lastBoundary_congr {l l' : List Cell} (h : l.map (·.content) = l'.map (·.content)) :
    l.getLast?.any (·.boundary) = l'.getLast?.any (·.boundary) := by
  have hb (x : List Cell) : x.getLast?.any (·.boundary)
      = (x.map (·.content)).getLast?.any fun y => y.1 != .character || y.2.1 == hyphen := by
    rw [List.getLast?_map, Option.any_map]; rfl
  rw [hb, hb, h]

theorem justCompleted_def (cells : List Cell) : justCompleted cells =
    if cells.getLast?.any (·.boundary) = true then
      ((tokensFrom 0 none cells).filter fun t => t.complete && t.stop == cells.length - 1).filterMap fun t =>
        (t.trim cells).map (·.first)
    else [] := by
  unfold justCompleted
  cases cells.getLast? <;> rfl

theorem justCompleted_congr {l l' : List Cell} (h : l.map (·.content) = l'.map (·.content)) :
    justCompleted l = justCompleted l' := by
  have hlen : l.length = l'.length := by simpa using congrArg List.length h
  have htrim : (fun t : Token => (t.trim l).map (·.first)) = fun t : Token => (t.trim l').map (·.first) :=
    funext fun t => by rw [trim_congr h]
  rw [justCompleted_def, justCompleted_def, tokensFrom_congr h, hlen, htrim, lastBoundary_congr h]

/-! ### The word that a boundary cell at the end completes (R130) -/

theorem filter_eq_singleton {l : List Token} (h : l.Pairwise (fun a b => a.stop < b.stop)) {t : Token} (ht : t ∈ l)
    (hc : t.complete = true) : (l.filter fun x => x.complete && x.stop == t.stop) = [t] := by
  have hm : t ∈ l.filter fun x => x.complete && x.stop == t.stop := List.mem_filter.2 ⟨ht, by simp [hc]⟩
  have hp := h.filter fun x => x.complete && x.stop == t.stop
  have hs : ∀ x ∈ l.filter fun x => x.complete && x.stop == t.stop, x.stop = t.stop := fun x hx => by
    have := (List.mem_filter.1 hx).2
    simp only [Bool.and_eq_true, beq_iff_eq] at this
    exact this.2
  cases hl : l.filter fun x => x.complete && x.stop == t.stop with
  | nil => rw [hl] at hm; cases hm
  | cons a rest =>
    rw [hl] at hm hp hs
    cases rest with
    | nil => rw [List.mem_singleton.1 hm]
    | cons b rest =>
      have := (List.pairwise_cons.1 hp).1 b (by simp)
      rw [hs a (by simp), hs b (by simp)] at this
      exact absurd this (Nat.lt_irrefl _)

/-- R130: the boundary cell `c` at the end completes the word whose token reaches it. -/
theorem justCompleted_eq {cells : List Cell} {c : Cell} {first count : Nat} (hc : c.boundary = true)
    (hw : wordAtCells cells first count = true)
    (hrest : (cells.drop (first + count)).all (fun x => !x.boundary) = true) :
    ⟨first, count, true⟩ ∈ wordsOf (cells ++ [c]) ∧ justCompleted (cells ++ [c]) = [first] := by
  obtain ⟨before, lead, word, tail, after, hd, rfl, rfl⟩ := wordAtCells_iff.1 hw
  have hafter : after = [] := by
    have hdrop : cells.drop (before.length + lead.length + word.length) = tail ++ after := by
      rw [← List.length_append, ← List.length_append, hd.eq, ← List.append_assoc, List.drop_left]
    rw [hdrop, List.all_append, Bool.and_eq_true] at hrest
    cases ha : after with
    | nil => rfl
    | cons x rest =>
      have h1 := hd.run.after x (by rw [ha]; rfl)
      have h2 := List.all_eq_true.1 hrest.2 x (by rw [ha]; simp)
      rw [h1] at h2; cases h2
  subst hafter
  have hrun : IsRun (cells ++ [c]) before (lead ++ (word ++ tail)) [c] := by
    refine ⟨?_, hd.run.before, fun x hx => ?_, hd.run.plain⟩
    · rw [hd.run.eq]; simp
    · cases hx; exact hc
  have hd' : Division (cells ++ [c]) before lead word tail [c] := ⟨hrun, hd.trim⟩
  have hne : lead ++ (word ++ tail) ≠ [] := by simp [hd.trim.word_ne_nil]
  have htok := mem_tokens.2 (hrun.isToken hne)
  have htrim := (trim_tokenOf hrun).2 ⟨lead, word, tail, rfl, hd', rfl⟩
  refine ⟨mem_wordsOf.2 ⟨before, lead, word, tail, [c], hd', rfl⟩, ?_⟩
  have hstops : (tokensFrom 0 none (cells ++ [c])).Pairwise (fun a b => a.stop < b.stop) :=
    (tokensFrom_ordered (cells ++ [c]) 0 none (Nat.le_refl _)).2.imp_of_mem fun {a b} _ hb hlt =>
      Nat.lt_trans hlt (mem_tokens.1 hb).nonempty
  have hstop : (tokenOf before (lead ++ (word ++ tail)) [c]).stop = (cells ++ [c]).length - 1 := by
    have := hd.length
    simp only [List.length_nil] at this
    simp only [tokenOf, List.length_append, List.length_singleton]; omega
  rw [justCompleted_def, List.getLast?_append_of_ne_nil _ (by simp), List.getLast?_singleton, Option.any_some, if_pos hc, ← hstop, filter_eq_singleton hstops htok rfl]
  simp [htrim]

theorem justCompleted_plain {cells : List Cell} {c : Cell} (hc : c.boundary = false) : justCompleted (cells ++ [c]) = [] := by
  rw [justCompleted_def, List.getLast?_append_of_ne_nil _ (by simp), List.getLast?_singleton, if_neg (by simp [hc])]

/-! ### An insertion at the end of the line (R129, R130) -/

/-- The letters that the record of a first cell is checked by. -/
theorem letters_of_joined {l : WorkingLine} {w : WordRecord} (hj : w.joined = (w.first == 0 && l.joined.isSome)) :
    l.letters w = (if w.first = 0 then (l.joined.map (·.letters)).getD [] else []) ++ codesOf l.cells w.first w.count := by
  unfold WorkingLine.letters
  rw [hj]
  by_cases h0 : w.first = 0 <;> cases hl : l.joined <;> simp [h0]

/-- R128, R129: a fresh checkable record is Unchecked without a cause. -/
theorem makeRecord_checkable {l : WorkingLine} {w : RawWord} (hw : w ∈ wordsOf l.cells) (hu : l.unmapped = false)
    (h1 : w.count ≠ 1) (hc : ∀ b ∈ codesOf l.cells w.first w.count, fold b ≠ none ∨ b = 0x27)
    (hl : ((if w.first = 0 then (l.joined.map (·.letters)).getD [] else []) ++ codesOf l.cells w.first w.count).length ≤ 24) :
    (makeRecord l w).status = .unchecked ∧ (makeRecord l w).cause = none := by
  have hst : (makeRecord l w).status = .skipped ∨ (makeRecord l w).status = .unchecked := by
    exact ite_eq_or_eq _ _ _
  have hca : (makeRecord l w).cause = some .long ∨ (makeRecord l w).cause = none := by
    exact ite_eq_or_eq _ _ _
  obtain ⟨-, -, hj, -, -, hs⟩ := makeRecord_classed hw
  have hlen : ((if (makeRecord l w).joined = true then (l.joined.map (·.letters)).getD [] else [])
      ++ codesOf l.cells w.first w.count).length ≤ 24 := by
    rw [hj]
    rw [show (makeRecord l w).first = w.first from rfl]
    by_cases h0 : w.first = 0 <;> cases hl' : l.joined <;> simp_all
  rcases hs (by
    rintro (h | h | ⟨b, hb, h⟩)
    · rw [hu] at h; cases h
    · exact h1 h
    · rcases hc b hb with h' | h'
      · exact h' h.1
      · exact h.2 h') hlen with ⟨h, hn⟩ | h | h
  · exact ⟨h, hca.resolve_left hn⟩
  · rcases hst with k | k <;> rw [k] at h <;> cases h
  · rcases hst with k | k <;> rw [k] at h <;> cases h

/-- R129: a record of the grown line: what was found of the word before, or a fresh one. -/
theorem keepOld_cases (old : List WordRecord) (w : WordRecord) : keepOld old w = w
    ∨ keepOld old w ∈ old ∧ (keepOld old w).first = w.first ∧ (keepOld old w).count = w.count
      ∧ (keepOld old w).joined = w.joined := by
  unfold keepOld
  split
  · next o ho =>
    have h := List.find?_some ho
    simp only [Bool.and_eq_true, beq_iff_eq] at h
    exact .inr ⟨List.mem_of_find?_eq_some ho, h.1.1, h.1.2, h.2⟩
  · exact .inl rfl

theorem keepOld_word (old : List WordRecord) (w : WordRecord) : (keepOld old w).first = w.first
    ∧ (keepOld old w).count = w.count ∧ (keepOld old w).joined = w.joined := by
  rcases keepOld_cases old w with h | ⟨-, h⟩
  · rw [h]; exact ⟨rfl, rfl, rfl⟩
  · exact h

/-- The line with a fresh list that keeps what was found before. -/
def grownList (s : State) : State := { s with line := { s.line with words := (freshRecords s).map (keepOld s.line.words) } }

theorem extendSpelling_eq (s : State) : extendSpelling s =
    attemptWords (justCompleted (checkJoined false (grownList s)).line.cells) (checkJoined false (grownList s)) := rfl

theorem checkJoined_spelling (edited : Bool) (s : State) :
    (checkJoined edited s).spelling = { s.spelling with queue := (checkJoined edited s).spelling.queue } := by
  rcases checkJoined_cases edited s with e | ⟨p, f, -, -, -, -, -, e⟩ <;> rw [e]
  exact checkAlone_spelling p f (dropJoined s)

theorem extendSpelling_spelling (s : State) :
    (extendSpelling s).spelling = { s.spelling with queue := (extendSpelling s).spelling.queue } := by
  rw [extendSpelling_eq]
  have h1 := attemptWords_spelling (justCompleted (checkJoined false (grownList s)).line.cells) (checkJoined false (grownList s))
  have h2 := checkJoined_spelling false (grownList s)
  rw [h2] at h1
  exact h1

theorem checkJoined_of_none {edited : Bool} {s : State} (h : s.line.joined = none) : checkJoined edited s = s := by
  rcases checkJoined_cases edited s with e | ⟨p, f, -, hj, -⟩
  · exact e
  · rw [h] at hj; cases hj

theorem checkJoined_of_word {edited : Bool} {s : State} {w : WordRecord} (hw : w ∈ s.line.words) (h : w.first = 0) :
    checkJoined edited s = s := by
  rcases checkJoined_cases edited s with e | ⟨p, f, -, -, h0, -⟩
  · exact e
  · exact absurd h (h0 w hw)

/-- The record of a first cell in a grown list is the one found there. -/
theorem find_grownList {s : State} (hk : wordListKept s = true) {x : RawWord} (hx : x ∈ wordsOf s.line.cells) :
    (grownList s).line.words.find? (·.first == x.first) = some (keepOld s.line.words (makeRecord s.line x)) := by
  have hwords : (grownList s).line.words = (wordsOf s.line.cells).map fun y => keepOld s.line.words (makeRecord s.line y) := by
    show (freshRecords s).map (keepOld s.line.words) = _
    rw [freshRecords, hk, if_pos rfl, List.map_map]; rfl
  have hfirst (y : RawWord) : (keepOld s.line.words (makeRecord s.line y)).first = y.first := (keepOld_word _ _).1
  rw [hwords, List.find?_map]
  have hp : ((fun w : WordRecord => w.first == x.first) ∘ fun y => keepOld s.line.words (makeRecord s.line y))
      = fun y => y.first == x.first := funext fun y => by simp only [Function.comp_apply, hfirst]
  rw [hp]
  cases hf : (wordsOf s.line.cells).find? fun y => y.first == x.first with
  | none => exact absurd (List.find?_eq_none.1 hf x hx) (by simp)
  | some y =>
    have hy := List.mem_of_find?_eq_some hf
    have hyx : y.first = x.first := by simpa using List.find?_some hf
    rw [List.inj_on_of_nodup_map (f := RawWord.first) ((List.pairwise_map.2 (wordsOf_ordered _)).imp Nat.ne_of_lt) hy hx hyx]
    rfl

/-- R130: what a word is tried with depends on these parts of the state alone. -/
theorem wordTried_congr {p : Port} {first count : Nat} {letters : List Byte} {s s' t : State}
    (h : wordTried p first count letters s' t) (hu : s'.spelling.userWords = s.spelling.userWords)
    (hq : s'.spelling.queue = s.spelling.queue) (hst : s'.store = s.store) (hser : s'.line.serial = s.line.serial) :
    wordTried p first count letters s t := by
  unfold wordTried at h ⊢
  rw [hu, hq, hst, hser] at h; exact h

theorem wordTried.rests {p : Port} {first count : Nat} {letters : List Byte} {s t u : State}
    (h : wordTried p first count letters s t) (hw : u.line.words = t.line.words) (r : spellingRests t u) :
    wordTried p first count letters s u := by
  obtain ⟨w, hm, h1, h2, h3, h4, h5, h6⟩ := h
  refine ⟨w, hw ▸ hm, h1, h2, h3, h4, h5, fun a b c => ?_⟩
  obtain ⟨hs, e, he, k⟩ := h6 a b c
  rcases r.stand.mem_or_marked he with he | he
  · exact ⟨hs, e, he, k⟩
  · exact ⟨hs, _, he, k⟩

/-- R129, R130, R131: what an insertion at the end makes of the spelling side: `u` is the state with the cell added. -/
theorem extendSpelling_extended {p : Port} {c : Cell} {s u : State} (hp : s.line.holder = some p)
    (hline : u.line.holder = s.line.holder ∧ u.line.serial = s.line.serial ∧ u.line.words = s.line.words
      ∧ u.line.joined = s.line.joined ∧ u.line.unmapped = s.line.unmapped)
    (hcells : u.line.cells.map (·.content) = (s.line.cells ++ [c]).map (·.content))
    (hk : wordListKept u = wordListKept s) (hsp : u.spelling = s.spelling) (hst : u.store = s.store) :
    extendedSpelling p c s (extendSpelling u) := by
  obtain ⟨huh, hus, huw, huj, huu⟩ := hline
  refine ⟨?_, ?_, fun hb hkept hmapped first count hlen hw hrest hj hold => ?_, fun hb hj => ?_⟩
  · rw [extendSpelling_spelling, hsp]
  · have := extendSpelling_lookupsStand u
    unfold lookupsStand at this ⊢
    rw [hsp] at this; exact this
  · intro codes letters hcount hcodes hshort
    obtain ⟨hmem, hjust⟩ := justCompleted_eq (c := c) hb hw hrest
    rw [← wordsOf_congr hcells] at hmem
    rw [← justCompleted_congr hcells] at hjust
    set r := keepOld u.line.words (makeRecord u.line ⟨first, count, true⟩) with hr
    have hfind := find_grownList (hk.trans hkept) hmem
    rw [← hr] at hfind
    obtain ⟨hf, hc, hjr⟩ := keepOld_word u.line.words (makeRecord u.line ⟨first, count, true⟩)
    rw [← hr] at hf hc hjr
    have hrm : r ∈ (grownList u).line.words := List.mem_of_find?_eq_some hfind
    have hid : checkJoined false (grownList u) = grownList u := by
      rcases hj with hj | hj
      · exact checkJoined_of_none (huj.trans hj)
      · exact checkJoined_of_word hrm (hf.trans hj)
    have hcodesEq : codesOf u.line.cells first count = codes := by
      rw [codesOf_congr hcells]
      show ((List.drop first (s.line.cells ++ [c])).take count).map _ = _
      rw [List.drop_append_of_le_length (by omega), List.take_append_of_le_length (by simp; omega)]
    have hletters : u.line.letters r = letters := by
      have hj' : r.joined = (r.first == 0 && u.line.joined.isSome) := by
        rw [hjr, hf]; exact (makeRecord_classed hmem).2.2.1
      rw [letters_of_joined hj', hf, hc, huj]
      show _ ++ codesOf u.line.cells first count = _
      rw [hcodesEq]; rfl
    have hstat : r.status = .unchecked ∧ r.cause = none := by
      rcases keepOld_cases u.line.words (makeRecord u.line ⟨first, count, true⟩) with h | ⟨h, h1, h2, -⟩
      · rw [← hr] at h; rw [h]
        refine makeRecord_checkable hmem (huu.trans hmapped) (by show count ≠ 1; omega) (fun b hb' => ?_) ?_
        · rw [show codesOf u.line.cells _ _ = codes from hcodesEq] at hb'; exact hcodes b hb'
        · show ((if first = 0 then (u.line.joined.map (·.letters)).getD [] else []) ++ codesOf u.line.cells first count).length ≤ 24
          rw [hcodesEq, huj]; exact hshort
      · rw [huw] at h; exact hold r (hr ▸ huw ▸ h) hf hc
    have htried := attemptWord_wordTried (s := grownList u) (huh.trans hp) hfind hstat.1 hstat.2
    rw [extendSpelling_eq, hid]
    show wordTried p first count letters s (attemptWords (justCompleted u.line.cells) (grownList u))
    rw [hjust]
    have hl2 : (grownList u).line.letters r = letters := hletters
    have hc2 : r.count = count := hc
    rw [hl2, hc2] at htried
    exact wordTried_congr htried (by rw [← hsp]; rfl) (by rw [← hsp]; rfl) hst hus
  · have hnone : (grownList u).line.joined = none := huj.trans hj
    rw [extendSpelling_eq, checkJoined_of_none hnone]
    show ((attemptWords (justCompleted u.line.cells) (grownList u)).spelling.queue.filter _).map _ = _
    rw [justCompleted_congr hcells, justCompleted_plain hb, ← hsp]; rfl

theorem extendedSpelling.rests {p : Port} {c : Cell} {s t u : State} (h : extendedSpelling p c s t)
    (r : spellingRests t u) (hw : u.line.words = t.line.words) : extendedSpelling p c s u := by
  obtain ⟨h1, h2, h3, h4⟩ := h
  refine ⟨r.suspects.trans h1, h2.trans r.stand, fun a b d first count e f g i j k l m => ?_, fun a b => ?_⟩
  · exact (h3 a b d first count e f g i j k l m).rests hw r
  · exact r.lines.trans (h4 a b)

end Sys2Proof.Machine

/-! SUPPORT. A stroke taken from a held line (R25), and the Direct-mode Character with its strikes (R29, R51 to R62). -/

namespace Sys2Proof.Machine

/-! ### Taking a stroke (R25, R26) -/

/-- A port's ring without its head stroke. -/
def takenStroke (p : Port) (rest : List Stroke) (s : State) : State :=
  { s with composer := s.composer.setRing p rest }

theorem takenStroke_frame (p : Port) (rest : List Stroke) (s : State) :
    changesOnly [.composer] s (takenStroke p rest s) := composer_frame s _

/-- R25: a stroke taken from the port to serve is composed, and the step ends. -/
theorem exec_composeStroke {p : Port} {k : Stroke} {rest : List Stroke} {m : PetalMap} {s : State}
    (hp : portToServe s = some p) (hr : s.composer.ring p = k :: rest) (hm : s.engine.petalMap = some m) :
    exec .composeStroke s = .next (endStep (composeTaken p m k (takenStroke p rest s))) := by
  show Host.Outcome.next (composeStep s) = _
  unfold composeStep; rw [hp, hm]; dsimp only; rw [hr]; rfl

/-- R25: the holder of a line in Composing or in Held is served, when its head stroke can be composed. -/
theorem portToServe_held {p : Port} {s : State} (hp : s.line.phase = .composing ∨ s.line.phase = .held)
    (hh : s.line.holder = some p) (ha : s.lift.away = false ∨ p = .console) (hr : s.composer.ring p ≠ [])
    (hm : s.engine.petalMap ≠ none)
    (hd : s.line.mode = .line ∨ (s.engine.queue.length < 4 ∧ s.engine.state ≠ .fault)) : portToServe s = some p := by
  have hf : s.line.phase ≠ .free := by rcases hp with h | h <;> rw [h] <;> decide
  have htake : canTake p s = true := by
    by_contra hno
    rw [Bool.not_eq_true, ← headWaits_iff] at hno
    rcases hno with (h | h | h | h | ⟨-, h⟩ | ⟨h1, h2⟩ | ⟨h, h2⟩)
    · exact hr h
    · exact hm h
    · rcases hp with k | k <;> rw [k] at h <;> cases h
    · rcases hp with k | k <;> rw [k] at h <;> cases h
    · exact h hh
    · rcases ha with k | k
      · rw [k] at h1; cases h1
      · rw [k] at h2; cases h2
    · rw [if_neg hf] at h
      rcases hd with k | ⟨k, k'⟩
      · rw [k] at h; cases h
      · rcases h2 with h2 | h2
        · omega
        · exact k' h2
  have hother : canTake (Port.other p) s = false := by
    rw [← headWaits_iff]
    refine .inr (.inr (.inr (.inr (.inl ⟨hp, ?_⟩))))
    rw [hh]; cases p <;> decide
  unfold portToServe
  cases p
  · rw [htake, show canTake .link s = false from hother]
  · rw [htake, show canTake .console s = false from hother]

/-! ### The refusals (R24) -/

/-- The record of the last refusal of a port's strokes. -/
theorem refuseStroke_composer (p : Port) (code : Status) (s : State) : (refuseStroke p code s).composer.refusals p
    = { code := some code, count := min 255 ((s.composer.refusals p).count + 1) } := by cases p <;> rfl

/-! ### A Direct-mode cell in its place (R30) -/

/-- R30: the cell at a position is replaced, or the cell is inserted. -/
def placeCell (held : Option Nat) (i : Nat) (c : Cell) (s : State) : State :=
  if held.isSome then directReplace i c s else directInsert i c s

/-- The line that a Direct-mode Character leaves, but for its words. -/
def placedLine (held : Option Nat) (i : Nat) (c : Cell) (l : WorkingLine) : WorkingLine :=
  if held.isSome then { l with cells := l.cells.set i c, generation := (l.generation + 1) % 65536 }
  else { l with cells := insertAt l.cells i c, unmapped := l.unmapped || decide (i ≠ l.cells.length) }

theorem placeCell_respelled (held : Option Nat) (i : Nat) (c : Cell) (s : State) :
    respelled { s with line := placedLine held i c s.line } (placeCell held i c s) := by
  unfold placeCell placedLine
  split
  · exact editSpelling_respelled _
  · unfold directInsert
    dsimp only
    split
    · next h => simpa [h] using extendSpelling_respelled _
    · next h => simpa [h] using unmapLine_respelled _

theorem placeCell_frame (held : Option Nat) (i : Nat) (c : Cell) (s : State) :
    changesOnly [.line, .spelling] s (placeCell held i c s) :=
  .ite (directReplace_frame i c s) (directInsert_frame i c s)

/-- R131: an overstrike, and a Character before the last cell, are edits. -/
theorem placeCell_edited {held : Option Nat} {i : Nat} {c : Cell} {s u : State} (hs : u.spelling = s.spelling)
    (hser : u.line.serial = s.line.serial) (hj : u.line.joined = s.line.joined)
    (h : held.isSome = true ∨ i ≠ u.line.cells.length) : editedSpelling s (placeCell held i c u) := by
  unfold placeCell
  split
  · exact editSpelling_edited hs hser hj
  · next hn =>
    unfold directInsert
    dsimp only
    rw [if_neg (h.resolve_left hn)]
    exact unmapLine_edited hs hser hj

/-- R52: a missing Character is reported. -/
def reportMissing (m : PetalMap) (code : Byte) (s : State) : State :=
  if (m.find code).isNone then s.notice .console (Notice.missingCharacter code s.line.serial) else s

theorem reportMissing_frame (m : PetalMap) (code : Byte) (s : State) :
    changesOnly [.console] s (reportMissing m code s) := .ite (State.notice_frame s .console _) (.refl _ s)

/-! ### The Direct-mode Character (R29, R30) -/

section
variable (m : PetalMap) (code : Byte) (k : Stroke) (s : State)

/-- The cell that a Direct-mode Character puts on the line. -/
def struckCell : Cell :=
  newCell s.line.cells .character code k s.composer.position (advanceOf s.format m code)

/-- The place of that cell. -/
def struckIndex : Nat := (cellAt s.line.cells s.composer.position).getD (directCursor s.line.cells s.composer.position)

/-- The job of a Direct-mode Character. -/
def struckJob : Job :=
  let x := s.composer.position + advanceOf s.format m code
  let strikes := cellStrikes s.format m s.line.rise (struckIndex s) (struckCell m code k s)
  strokeJob s (keptOrders strikes x) (droppedOf strikes) false

/-- The line and the Spelling Unit after a Direct-mode Character. -/
def struckLine : State :=
  placeCell (cellAt s.line.cells s.composer.position) (struckIndex s) (struckCell m code k s)
    (ringBell (s.composer.position + advanceOf s.format m code) s)

/-- R29: a Direct-mode Character that is taken. -/
def struck : State :=
  appendJob (struckJob m code k s)
    (setPosition (s.composer.position + advanceOf s.format m code) (reportMissing m code (struckLine m code k s)))

/-- R29, R36: the right end of what a Direct-mode Character may reach. -/
def directLimit : Nat := if s.line.marginRelease then 1560 else s.format.right

/-- R29: a Direct-mode Character is refused with Margin, else with Full, else struck. -/
theorem directCharacter_eq : directCharacter m code k s =
    if directLimit s < s.composer.position + advanceOf s.format m code then refuseStroke .console .margin s
    else if (cellAt s.line.cells s.composer.position).isNone && decide (160 ≤ s.line.cells.length) then
      refuseStroke .console .full s
    else struck m code k s := rfl

/-- R36: the bell of the line. -/
theorem ringBell_line (edge : Nat) (s : State) :
    (ringBell edge s).line = { s.line with bell := s.line.bell || inZone s.format edge } := by
  unfold ringBell
  split
  · next h =>
    rw [show (s.line.bell || inZone s.format edge) = true by simp_all]; rfl
  · next h =>
    rw [show (s.line.bell || inZone s.format edge) = s.line.bell by cases hb : s.line.bell <;> simp_all]

theorem ringBell_tones (edge : Nat) (s : State) : (ringBell edge s).tones =
    if s.line.bell = false ∧ inZone s.format edge = true then s.tones.request .bell else s.tones := by
  unfold ringBell
  cases hb : s.line.bell <;> cases hz : inZone s.format edge <;> simp

/-- The line of a Direct-mode Character before its words and the cursor. -/
def struckBase : WorkingLine :=
  placedLine (cellAt s.line.cells s.composer.position) (struckIndex s) (struckCell m code k s)
    { s.line with bell := s.line.bell || inZone s.format (s.composer.position + advanceOf s.format m code) }

theorem struckLine_respelled : respelled { s with line := struckBase m code k s } (struckLine m code k s) := by
  have h := placeCell_respelled (cellAt s.line.cells s.composer.position) (struckIndex s) (struckCell m code k s)
    (ringBell (s.composer.position + advanceOf s.format m code) s)
  rw [ringBell_line] at h
  exact h

theorem struckLine_frame : changesOnly [.line, .spelling, .tones] s (struckLine m code k s) :=
  (ringBell_frame _ s).then (placeCell_frame _ _ _ _) (by decide) (by decide)

theorem struckLine_tones : (struckLine m code k s).tones = (ringBell (s.composer.position + advanceOf s.format m code) s).tones :=
  (placeCell_frame _ _ _ _).same .tones

/-- What stays of the line at a Direct-mode Character. -/
theorem struckBase_keeps : (struckBase m code k s).holder = s.line.holder ∧ (struckBase m code k s).mode = s.line.mode
    ∧ (struckBase m code k s).serial = s.line.serial ∧ (struckBase m code k s).phase = s.line.phase
    ∧ (struckBase m code k s).rise = s.line.rise
    ∧ (struckBase m code k s).bell = (s.line.bell || inZone s.format (s.composer.position + advanceOf s.format m code)) := by
  unfold struckBase placedLine
  split <;> exact ⟨rfl, rfl, rfl, rfl, rfl, rfl⟩

theorem struck_line (hh : s.line.holder = some .console) (hm : s.line.mode = .direct) :
    (struck m code k s).line = { (struckLine m code k s).line with
      cursor := directCursor (struckLine m code k s).line.cells (s.composer.position + advanceOf s.format m code) } := by
  have hr := struckLine_respelled m code k s
  obtain ⟨k1, k2, -⟩ := struckBase_keeps m code k s
  have hd : (struckLine m code k s).line.isDirect = true := by
    unfold WorkingLine.isDirect
    rw [hr.holder, hr.mode]
    show ((struckBase m code k s).holder.isSome && (struckBase m code k s).mode == .direct) = true
    rw [k1, k2, hh, hm]; rfl
  have hl : (reportMissing m code (struckLine m code k s)).line = (struckLine m code k s).line :=
    (reportMissing_frame m code _).same .line
  unfold struck
  rw [appendJob_line]
  show (if (reportMissing m code (struckLine m code k s)).line.isDirect = true then _ else _) = _
  rw [hl, if_pos hd]

theorem struck_composer : (struck m code k s).composer =
    { s.composer with position := s.composer.position + advanceOf s.format m code } := by
  unfold struck
  rw [appendJob_composer, setPosition_composer, (reportMissing_frame m code _).same .composer,
    (struckLine_frame m code k s).same .composer]

theorem struck_spelling : (struck m code k s).spelling = (struckLine m code k s).spelling := by
  unfold struck
  rw [appendJob_spelling, setPosition_spelling, (reportMissing_frame m code _).same .spelling]

theorem struck_tones : (struck m code k s).tones =
    if s.line.bell = false ∧ inZone s.format (s.composer.position + advanceOf s.format m code) = true
    then s.tones.request .bell else s.tones := by
  unfold struck
  rw [appendJob_tones, setPosition_tones, (reportMissing_frame m code _).same .tones, struckLine_tones, ringBell_tones]

theorem struck_console : (struck m code k s).console =
    if (m.find code).isNone then s.console.notice (Notice.missingCharacter code s.line.serial) else s.console := by
  have hc : (struckLine m code k s).console = s.console := (struckLine_frame m code k s).same .console
  have hs : (struckLine m code k s).line.serial = s.line.serial :=
    (struckLine_respelled m code k s).serial.trans (struckBase_keeps m code k s).2.2.1
  unfold struck
  rw [appendJob_console, setPosition_console]
  unfold reportMissing
  split
  · show (struckLine m code k s).console.notice _ = _
    rw [hc, hs]
  · exact hc

/-- R65: what the engine does with an appended job. -/
theorem appendJob_engine (j : Job) (s : State) : (appendJob j s).engine.queue = s.engine.queue ++ [j]
    ∧ (s.engine.state ≠ .resting → (appendJob j s).engine = { s.engine with queue := s.engine.queue ++ [j] }
      ∧ (appendJob j s).restTimer = s.restTimer) := by
  unfold appendJob
  dsimp only
  split
  · next h => exact ⟨rfl, fun hn => absurd h hn⟩
  · exact ⟨rfl, fun _ => ⟨rfl, rfl⟩⟩

theorem struck_engine : (struck m code k s).engine.queue = s.engine.queue ++ [struckJob m code k s]
    ∧ (s.engine.state ≠ .resting → (struck m code k s).engine = { s.engine with queue := (struck m code k s).engine.queue }
      ∧ (struck m code k s).restTimer = s.restTimer) := by
  set u := setPosition (s.composer.position + advanceOf s.format m code) (reportMissing m code (struckLine m code k s)) with hu
  have he : u.engine = s.engine := by
    rw [hu, setPosition_engine, (reportMissing_frame m code _).same .engine, (struckLine_frame m code k s).same .engine]
  have ht : u.restTimer = s.restTimer := by
    rw [hu, setPosition_restTimer, (reportMissing_frame m code _).same .restTimer,
      (struckLine_frame m code k s).same .restTimer]
  obtain ⟨h1, h2⟩ := appendJob_engine (struckJob m code k s) u
  rw [he, ht] at h2
  rw [he] at h1
  exact ⟨h1, fun hn => ⟨(h2 hn).1.trans (by rw [← h1]; rfl), (h2 hn).2⟩⟩

end

end Sys2Proof.Machine

/-! SUPPORT. The Direct-mode Character at the end of its step, and the tables of R51, R59 and R60. -/

namespace Sys2Proof.Machine

/-! ### The tables of the Escapement Unit (R51, R52, R59, R60) -/

/-- R51, R55, R60: the strikes of a Character that is present. -/
theorem cellStrikes_present {f : FormatRecord} {m : PetalMap} {rise : Int} {i : Nat} {c : Cell} {g : Glyph}
    (hc : c.kind = .character) (hg : m.find c.code = some g) :
    cellStrikes f m rise i c = characterStrikes f m rise i c.position g c.bold
      ++ if c.underline then underscoreStrikes f m rise i c.position c.width else [] := by
  unfold cellStrikes; rw [hc]; dsimp only; rw [hg]

/-- R52: a missing Character is not struck. -/
theorem cellStrikes_missing {f : FormatRecord} {m : PetalMap} {rise : Int} {i : Nat} {c : Cell}
    (hc : c.kind = .character) (hg : m.find c.code = none) :
    cellStrikes f m rise i c = if c.underline then underscoreStrikes f m rise i c.position c.width else [] := by
  unfold cellStrikes; rw [hc]; dsimp only; rw [hg]; rfl

/-- R59: a last underscore ends at the right edge, where the whole ones leave a rest. -/
theorem underscorePositions_eq (p w u : Nat) : underscorePositions p w u =
    if w ≤ u then [p]
    else (List.range (w / u)).map (fun n => p + n * u) ++ (if w % u = 0 then [] else [p + w - u]) := by
  have hrest : (w / u * u < w) ↔ ¬ w % u = 0 := by
    have := Nat.div_add_mod w u
    rw [Nat.mul_comm] at this
    omega
  unfold underscorePositions
  dsimp only
  by_cases hr : w % u = 0
  · rw [if_neg (hrest.not.2 (not_not.2 hr)), if_pos hr]
  · rw [if_pos (hrest.2 hr), if_neg hr]

theorem underscoreStrikes_positions (f : FormatRecord) (m : PetalMap) (rise : Int) (i p w : Nat) :
    (underscoreStrikes f m rise i p w).map (·.position) = underscorePositions p w (underscoreWidth m) := by
  unfold underscoreStrikes
  rw [List.map_map]
  exact List.map_id _

/-- R51: a wheel of fixed pitch. -/
theorem metrics_fixedPitch {f : FormatRecord} {m : PetalMap} {w : Nat} (h : m.pitch.fixedWidth = some w) (g : Glyph) :
    metrics f m g = { advance := w, offset := 0, strikeWidth := w } ∧ spaceWidth f m = w ∧ underscoreWidth m = w := by
  unfold metrics spaceWidth underscoreWidth
  rw [h]; exact ⟨rfl, rfl, rfl⟩

/-- R51: a proportional wheel in a Fixed mode. -/
theorem metrics_fixedMode {f : FormatRecord} {m : PetalMap} {w : Nat} (h : m.pitch = .proportional)
    (hw : f.spacing.fixedWidth = some w) (g : Glyph) :
    metrics f m g = { advance := w, offset := ((w : Int) - g.width) / 2, strikeWidth := g.width } ∧ spaceWidth f m = w
      ∧ underscoreWidth m = m.underscore.width := by
  unfold metrics spaceWidth underscoreWidth
  rw [h, hw]; exact ⟨rfl, rfl, rfl⟩

/-- R51: a proportional wheel in Proportional. -/
theorem metrics_proportional {f : FormatRecord} {m : PetalMap} (h : m.pitch = .proportional)
    (hw : f.spacing = .proportional) (g : Glyph) :
    metrics f m g = { advance := g.width, offset := 0, strikeWidth := g.width } ∧ spaceWidth f m = m.spaceWidth
      ∧ underscoreWidth m = m.underscore.width := by
  unfold metrics spaceWidth underscoreWidth
  rw [h, hw]; exact ⟨rfl, rfl, rfl⟩

/-! ### The end of the step -/

/-- R131: what an overstrike, or a Character before the last cell, leaves of the spelling side. -/
theorem struckLine_edited {m : PetalMap} {code : Byte} {k : Stroke} {s : State}
    (h : (cellAt s.line.cells s.composer.position).isSome = true ∨ struckIndex s ≠ s.line.cells.length) :
    editedSpelling s (struckLine m code k s) := by
  have hl := ringBell_line (s.composer.position + advanceOf s.format m code) s
  refine placeCell_edited ((ringBell_frame _ s).same .spelling) ?_ ?_ ?_
  · rw [hl]
  · rw [hl]
  · rw [hl]; exact h

section
variable {m : PetalMap} {code : Byte} {k : Stroke} {s : State}

theorem struck_frame : changesOnly composeParts s (struck m code k s) := by
  have h1 : changesOnly composeParts s (reportMissing m code (struckLine m code k s)) :=
    (struckLine_frame m code k s).then (reportMissing_frame m code _) (by decide) (by decide)
  exact (h1.trans ((setPosition_frame _ _).mono (by decide))).trans ((appendJob_frame _ _).mono (by decide))

variable (hh : s.line.holder = some .console) (hm : s.line.mode = .direct) (hp : s.line.phase ≠ .checking)
include hh hm hp

theorem struck_phase : (struck m code k s).line.phase ≠ .checking := by
  rw [struck_line m code k s hh hm]
  show (struckLine m code k s).line.phase ≠ _
  rw [(struckLine_respelled m code k s).phase]
  show (struckBase m code k s).phase ≠ _
  rw [(struckBase_keeps m code k s).2.2.2.1]; exact hp

/-- The line of a Direct-mode Character at the end of its step. -/
theorem endStep_struck_line : (endStep (struck m code k s)).line = { (struckLine m code k s).line with
    cursor := directCursor (struckLine m code k s).line.cells (s.composer.position + advanceOf s.format m code) } :=
  (endStep_line (struck_phase hh hm hp)).trans (struck_line m code k s hh hm)

theorem endStep_struck_edited
    (h : (cellAt s.line.cells s.composer.position).isSome = true ∨ struckIndex s ≠ s.line.cells.length) :
    editedSpelling s (endStep (struck m code k s)) := by
  have hend := endStep_struck_line (m := m) (code := code) (k := k) hh hm hp
  have hu := endStep_unheld (struck_phase (m := m) (code := code) (k := k) hh hm hp)
  have hrest : spellingRests (struckLine m code k s) (endStep (struck m code k s)) :=
    (spellingRests.of_eq (struck_spelling m code k s)).trans (endStep_rests (struck_phase hh hm hp))
  have hopt : (endStep (struck m code k s)).options = (struckLine m code k s).options :=
    (hu.same .options).trans ((struck_frame.same .options).trans ((struckLine_frame m code k s).same .options).symm)
  have hlift : (endStep (struck m code k s)).lift = (struckLine m code k s).lift :=
    (hu.same .lift).trans ((struck_frame.same .lift).trans ((struckLine_frame m code k s).same .lift).symm)
  refine (struckLine_edited h).rests hrest (wordListKept_congr ?_ hopt hlift) ?_ ?_ ?_ ?_ ?_ <;> rw [hend]

theorem endStep_struck_cells : (endStep (struck m code k s)).line.cells =
    if (cellAt s.line.cells s.composer.position).isSome then s.line.cells.set (struckIndex s) (struckCell m code k s)
    else insertAt s.line.cells (struckIndex s) (struckCell m code k s) := by
  rw [endStep_struck_line hh hm hp]
  show (struckLine m code k s).line.cells = _
  rw [(struckLine_respelled m code k s).cells]
  show (struckBase m code k s).cells = _
  unfold struckBase placedLine
  split <;> rfl

theorem endStep_struck_generation : (endStep (struck m code k s)).line.generation =
    if (cellAt s.line.cells s.composer.position).isSome then (s.line.generation + 1) % 65536 else s.line.generation := by
  rw [endStep_struck_line hh hm hp]
  show (struckLine m code k s).line.generation = _
  rw [(struckLine_respelled m code k s).generation]
  show (struckBase m code k s).generation = _
  unfold struckBase placedLine
  split <;> rfl

theorem endStep_struck_unmapped : (endStep (struck m code k s)).line.unmapped =
    (s.line.unmapped || ((cellAt s.line.cells s.composer.position).isNone && decide (struckIndex s ≠ s.line.cells.length))) := by
  rw [endStep_struck_line hh hm hp]
  show (struckLine m code k s).line.unmapped = _
  rw [(struckLine_respelled m code k s).unmapped]
  show (struckBase m code k s).unmapped = _
  unfold struckBase placedLine
  cases cellAt s.line.cells s.composer.position <;> simp

theorem endStep_struck_keeps : (endStep (struck m code k s)).line.serial = s.line.serial
    ∧ (endStep (struck m code k s)).line.holder = s.line.holder ∧ (endStep (struck m code k s)).line.rise = s.line.rise
    ∧ (endStep (struck m code k s)).line.bell
      = (s.line.bell || inZone s.format (s.composer.position + advanceOf s.format m code)) := by
  have hr := struckLine_respelled m code k s
  obtain ⟨h1, -, h3, -, h5, h6⟩ := struckBase_keeps m code k s
  rw [endStep_struck_line hh hm hp]
  exact ⟨hr.serial.trans h3, hr.holder.trans h1, hr.rise.trans h5, hr.bell.trans h6⟩

end

/-- R29: the index of a cell to insert lies within the line. -/
theorem struckIndex_inserted {s : State} (h : cellAt s.line.cells s.composer.position = none) :
    struckIndex s = directCursor s.line.cells s.composer.position := by
  unfold struckIndex; rw [h]; rfl

theorem composeTaken_direct {p : Port} {m : PetalMap} {k : Stroke} {s : State} (hp : s.line.phase ≠ .free)
    (hm : s.line.mode = .direct) : composeTaken p m k s = composeDirect m k s := by
  unfold composeTaken
  rw [if_neg (by simp [hp])]
  dsimp only
  rw [if_neg hp, if_pos hm]

/-- A stroke's leaving its ring is nothing to the Spelling Unit. -/
theorem editedSpelling.of_taken {p : Port} {rest : List Stroke} {s t : State}
    (h : editedSpelling (takenStroke p rest s) t) : editedSpelling s t := by
  unfold editedSpelling at h ⊢; exact h

/-- R24: a refused stroke at the end of its step. -/
theorem endStep_refused {p : Port} {code : Status} {s : State} (hp : s.line.phase ≠ .checking) :
    (endStep (refuseStroke p code s)).composer = (refuseStroke p code s).composer
      ∧ (endStep (refuseStroke p code s)).tones = s.tones.request .refuse
      ∧ (endStep (refuseStroke p code s)).line = s.line ∧ (endStep (refuseStroke p code s)).engine = s.engine := by
  have hl : (refuseStroke p code s).line = s.line := (refuseStroke_frame p code s).same .line
  have hu := endStep_unheld (s := refuseStroke p code s) (by rw [hl]; exact hp)
  refine ⟨hu.same .composer, (hu.same .tones).trans rfl, (hu.same .line).trans hl, (hu.same .engine).trans ?_⟩
  exact (refuseStroke_frame p code s).same .engine

theorem directCharacter_display (m : PetalMap) (code : Byte) (k : Stroke) (s : State) :
    (directCharacter m code k s).display = s.display := by
  rw [directCharacter_eq]
  split
  · rfl
  · split
    · rfl
    · unfold struck
      rw [appendJob_display, setPosition_display, (reportMissing_frame m code _).same .display,
        (struckLine_frame m code k s).same .display]

/-- Settles O46: the refusals in their order, the struck Character with its cell, its job and the spelling side, and the
tables of the strikes and widths. -/
theorem directCharacterIsStruck : Obligations.DirectCharacterIsStruck := by
  unfold Obligations.DirectCharacterIsStruck
  refine ⟨fun code k rest m s hp hh hm hr hk hmap hq hf => ?step, fun f m rise i c g hc hg => ?present,
    fun f m rise i c hc hg => cellStrikes_missing hc hg, fun f m rise i p w _ => ⟨fun z hz => ?underscore, ?positions⟩,
    fun f m g => ⟨fun x hx hpitch => ?fixedPitch, fun hpitch hsp => ?proportional, fun x hx hpitch hsp => ?fixedMode⟩,
    fun f m code => ⟨fun hg => ?missing, fun g hg => ?found⟩⟩
  case step =>
    intro x w limit held c i strikes refused
    have hserve := portToServe_held (.inl hp) hh (.inr rfl) (by rw [show s.composer.ring .console = _ from hr]; simp)
      (by rw [hmap]; simp) (.inr ⟨hq, hf⟩)
    set u := takenStroke .console rest s with hu
    have hnf : u.line.phase ≠ .free := by show s.line.phase ≠ _; rw [hp]; decide
    have hnc : u.line.phase ≠ .checking := by show s.line.phase ≠ _; rw [hp]; decide
    have hh' : u.line.holder = some .console := hh
    have hm' : u.line.mode = .direct := hm
    have hstep : composeTaken .console m k u = directCharacter m code k u := by
      rw [composeTaken_direct hnf hm]; unfold composeDirect; rw [hk]
    refine ⟨_, exec_composeStroke hserve hr hmap, ?_, ?_, ?_, ?_, ?_⟩
    all_goals rw [← hu, hstep]
    · intro hlim
      rw [directCharacter_eq, if_pos (by exact hlim)]
      obtain ⟨h1, h2, h3, h4⟩ := endStep_refused (p := .console) (code := .margin) hnc
      exact ⟨h1.trans rfl, h4, congrArg WorkingLine.cells h3, h2⟩
    · intro hlim hnone hfull
      rw [directCharacter_eq, if_neg (by exact Nat.not_lt.2 hlim),
        if_pos (by
          rw [show cellAt u.line.cells u.composer.position = none from hnone,
            show decide (160 ≤ u.line.cells.length) = true from decide_eq_true hfull]; rfl)]
      obtain ⟨h1, h2, h3, h4⟩ := endStep_refused (p := .console) (code := .full) hnc
      exact ⟨h1.trans rfl, h4, congrArg WorkingLine.cells h3, h2⟩
    · intro hlim hroom
      have hstruck : directCharacter m code k u = struck m code k u := by
        rw [directCharacter_eq, if_neg (by exact Nat.not_lt.2 hlim), if_neg ?_]
        rcases hroom with h | h
        · have hsome : (cellAt u.line.cells u.composer.position).isSome = true := h
          rw [← Option.not_isSome, hsome]; simp
        · rw [show decide (160 ≤ u.line.cells.length) = false from decide_eq_false (Nat.not_le.2 h)]; simp
      rw [hstruck]
      have hend := endStep_unheld (struck_phase (m := m) (code := code) (k := k) hh' hm' hnc)
      obtain ⟨hq1, hq2⟩ := struck_engine m code k u
      obtain ⟨k1, k2, k3, k4⟩ := endStep_struck_keeps (m := m) (code := code) (k := k) hh' hm' hnc
      have he : (endStep (struck m code k u)).engine = (struck m code k u).engine := hend.same .engine
      refine ⟨(hend.same .composer).trans (struck_composer m code k u), k1, k2, k3,
        endStep_struck_cells hh' hm' hnc, endStep_struck_generation hh' hm' hnc, ?_, k4,
        (hend.same .tones).trans (struck_tones m code k u), ?_, fun hedit => ⟨?_, ?_⟩,
        (hend.same .console).trans (struck_console m code k u), fun hrest => ?_⟩
      · rw [endStep_struck_line hh' hm' hnc]; rfl
      · rw [he, hq1]; rfl
      · have hplace : (cellAt u.line.cells u.composer.position).isSome = true ∨ struckIndex u ≠ u.line.cells.length :=
          hedit.imp id Nat.ne_of_lt
        exact (endStep_struck_edited hh' hm' hnc hplace).of_taken
      · rw [endStep_struck_unmapped hh' hm' hnc]
        show (s.line.unmapped || (held.isNone && decide (i ≠ s.line.cells.length))) = _
        rcases hedit with h | h
        · rw [show held.isNone = false by rw [← Option.not_isSome, h]; rfl]; simp
        · rw [show decide (i ≠ s.line.cells.length) = true from decide_eq_true (Nat.ne_of_lt h), Bool.and_true]
      · obtain ⟨h1, h2⟩ := hq2 hrest
        rw [he]
        exact ⟨h1, (hend.same .restTimer).trans h2⟩
    · exact endStep_displayFollows (directCharacter_display m code k u)
    · have hframe : changesOnly composeParts s (directCharacter m code k u) :=
        (takenStroke_frame .console rest s).then (directCharacter_frame m code k u) (by decide) (by decide)
      exact hframe.then (endStep_frame _) (by decide) (by decide)
  case present =>
    intro q main
    rw [cellStrikes_present hc hg]
    unfold characterStrikes
    simp only [Bool.and_eq_true, decide_eq_true_eq, List.cons_append]
    rfl
  case underscore =>
    obtain ⟨q, -, rfl⟩ := List.mem_map.1 hz
    exact ⟨rfl, rfl, rfl, rfl, rfl, rfl⟩
  case positions => rw [underscoreStrikes_positions, underscorePositions_eq]
  case fixedPitch =>
    refine metrics_fixedPitch ?_ g
    rw [hpitch]
    simp only [List.mem_cons, List.not_mem_nil, or_false] at hx
    rcases hx with rfl | rfl | rfl <;> rfl
  case proportional => exact metrics_proportional hpitch hsp g
  case fixedMode =>
    have hw : f.spacing.fixedWidth = some x.2 := by
      rw [hsp]
      simp only [List.mem_cons, List.not_mem_nil, or_false] at hx
      rcases hx with rfl | rfl | rfl <;> rfl
    obtain ⟨h1, h2, h3⟩ := metrics_fixedMode hpitch hw g
    rw [h1]
    refine ⟨rfl, rfl, ?_, ?_, h2, h3⟩ <;> dsimp only <;> omega
  case missing =>
    refine ⟨by unfold advanceOf; rw [hg], fun g hm he => ?_⟩
    exact absurd (List.find?_eq_none.1 hg g hm) (by simp [he])
  case found =>
    refine ⟨by unfold advanceOf; rw [hg], List.mem_of_find?_eq_some hg, ?_⟩
    simpa using List.find?_some hg

end Sys2Proof.Machine

/-! SUPPORT. A Character, Space or Tab on a Line-mode line (R31, R33, R35, R36, R39): where it is refused, and what it
leaves when it is taken. -/

namespace Sys2Proof.Machine

/-! ### Layout keeps what the cells hold -/

theorem layWith_content (f : FormatRecord) (m : PetalMap) (x : Nat) (cells : List (Cell × Nat)) :
    (layWith f m x cells).map (·.content) = cells.map (·.1.content) := by
  induction cells generalizing x with
  | nil => rfl
  | cons c rest ih => exact congrArg₂ List.cons rfl (ih _)

theorem layFrom_content (f : FormatRecord) (m : PetalMap) (x : Nat) (cells : List Cell) :
    (layFrom f m x cells).map (·.content) = cells.map (·.content) := by
  unfold layFrom; rw [layWith_content, List.map_map]; rfl

/-- R33: a Line-mode line is laid out anew, and the compose position follows its cursor. -/
theorem relayLine_lineMode {m : PetalMap} {s : State} (hm : s.engine.petalMap = some m) (hh : s.line.holder ≠ none)
    (hl : s.line.mode = .line) : relayLine s = { s with
      line := { s.line with cells := layFrom s.format m s.format.left s.line.cells }
      composer := { s.composer with
        position := positionAt s.format.left (layFrom s.format m s.format.left s.line.cells) s.line.cursor } } := by
  have hc : (s.line.holder.isSome && s.line.mode == .line) = true := by
    rw [Option.isSome_iff_ne_none.2 hh, hl]; rfl
  unfold relayLine; rw [hm]; dsimp only; rw [if_pos hc]

/-! ### Where a cell is refused (R31, R34, R35) -/

section
variable (p : Port) (m : PetalMap) (kind : CellKind) (code : Byte) (k : Stroke) (s : State)

/-- The cell of a Line-mode stroke. -/
def typedCell : Cell := newCell s.line.cells kind code k 0 0

/-- The line with that cell at the cursor. -/
def typedCells : List Cell := insertAt s.line.cells s.line.cursor (typedCell kind code k s)

/-- The extent it would have. -/
def typedExtent : Nat := extentOf s.format.left (layFrom s.format m s.format.left (typedCells kind code k s))

/-- The cursor stands at the end of the line. -/
abbrev atEnd : Prop := s.line.cursor = s.line.cells.length

/-- R31, R35: the extent is one that the stroke may reach. -/
def takes : Prop :=
  if kind ≠ .character ∧ atEnd s then typedExtent m kind code k s ≤ 1560
  else typedExtent m kind code k s ≤ s.format.right
    ∨ (s.line.marginRelease = true ∧ typedExtent m kind code k s ≤ 1560)

/-- R34: a Character that wraps. -/
def wraps : Prop := kind = .character ∧ atEnd s ∧ s.line.marginRelease = false ∧ s.format.wrapOf p = true

/-- R36: the bell, when it is this stroke that may ring it. -/
def bellIf (b : Bool) (edge : Nat) (s : State) : State := if b then ringBell edge s else s

/-- R31: a stroke that is taken. -/
def typed : State :=
  bellIf (kind = .character && atEnd s) (typedExtent m kind code k s) (lineInsert (typedCell kind code k s) s)

/-- R31: a stroke that may be taken is refused with Full at 160 cells. -/
def offered : State := if 160 ≤ s.line.cells.length then refuseStroke p .full s else typed m kind code k s

/-- R31, R34, R35: the checks in their order. -/
theorem lineCell_eq : lineCell p m kind code k s =
    if kind != .character && decide (atEnd s) then
      if 1560 < typedExtent m kind code k s then refuseStroke p .margin s else offered p m kind code k s
    else if typedExtent m kind code k s ≤ s.format.right then offered p m kind code k s
    else if s.line.marginRelease then
      if 1560 < typedExtent m kind code k s then refuseStroke p .margin s else offered p m kind code k s
    else if decide (atEnd s) && s.format.wrapOf p then wrapLine p m (typedCell kind code k s) s
    else refuseStroke p .margin s := rfl

variable {p m kind code k s}

/-- R31: a stroke that may reach its extent is taken, or refused with Full. -/
theorem lineCell_of_takes (h : takes m kind code k s) : lineCell p m kind code k s = offered p m kind code k s := by
  rw [lineCell_eq]
  unfold takes at h
  by_cases hs : kind ≠ .character ∧ atEnd s
  · rw [if_pos hs] at h
    rw [if_pos (by simpa using hs), if_neg (Nat.not_lt.2 h)]
  · rw [if_neg hs] at h
    rw [if_neg (by simpa using hs)]
    by_cases hr : typedExtent m kind code k s ≤ s.format.right
    · rw [if_pos hr]
    · obtain ⟨h1, h2⟩ := h.resolve_left hr
      rw [if_neg hr, if_pos h1, if_neg (Nat.not_lt.2 h2)]

/-- R31, R35: a stroke that may not, and does not wrap, is refused with Margin. -/
theorem lineCell_of_margin (h : ¬ takes m kind code k s) (hw : ¬ wraps p kind s) :
    lineCell p m kind code k s = refuseStroke p .margin s := by
  rw [lineCell_eq]
  unfold takes at h
  by_cases hs : kind ≠ .character ∧ atEnd s
  · rw [if_pos hs] at h
    rw [if_pos (by simpa using hs), if_pos (Nat.not_le.1 h)]
  · rw [if_neg hs, not_or, not_and] at h
    rw [if_neg (by simpa using hs), if_neg h.1]
    by_cases hm : s.line.marginRelease = true
    · rw [if_pos hm, if_pos (Nat.not_le.1 (h.2 hm))]
    · rw [if_neg hm, if_neg ?_]
      rw [Bool.and_eq_true, decide_eq_true_eq]
      rintro ⟨h1, h2⟩
      refine hw ⟨?_, h1, by simpa using hm, h2⟩
      by_contra hk
      exact hs ⟨hk, h1⟩

/-! ### A stroke that is taken (R31, R33, R36) -/

theorem bellIf_line (b : Bool) (edge : Nat) (s : State) :
    (bellIf b edge s).line = { s.line with bell := s.line.bell || (b && inZone s.format edge) } := by
  unfold bellIf
  cases b
  · rw [if_neg Bool.false_ne_true, Bool.false_and, Bool.or_false]
  · rw [if_pos rfl, ringBell_line, Bool.true_and]

theorem bellIf_tones (b : Bool) (edge : Nat) (s : State) : (bellIf b edge s).tones =
    if b = true ∧ s.line.bell = false ∧ inZone s.format edge = true then s.tones.request .bell else s.tones := by
  unfold bellIf
  cases b
  · rw [if_neg Bool.false_ne_true, if_neg (by simp)]
  · rw [if_pos rfl, ringBell_tones]; simp

theorem bellIf_frame (b : Bool) (edge : Nat) (s : State) : changesOnly [.line, .tones] s (bellIf b edge s) :=
  .ite (ringBell_frame edge s) (.refl _ s)

/-- R31, R33: the line with the cell inserted and laid out anew. -/
def insertedLine (m : PetalMap) (f : FormatRecord) (c : Cell) (l : WorkingLine) : WorkingLine :=
  { l with
    cells := layFrom f m f.left (insertAt l.cells l.cursor c)
    cursor := l.cursor + 1
    generation := if l.cursor = l.cells.length then l.generation else (l.generation + 1) % 65536 }

/-- R33: the state with that line, and the compose position at its cursor. -/
def inserted (m : PetalMap) (c : Cell) (s : State) : State := { s with
  line := insertedLine m s.format c s.line
  composer := { s.composer with
    position := positionAt s.format.left (insertedLine m s.format c s.line).cells (s.line.cursor + 1) } }

/-- R31: the state with the cell inserted, before it is laid out. -/
def unlaid (c : Cell) (s : State) : State := { s with line := { s.line with
  cells := insertAt s.line.cells s.line.cursor c
  cursor := s.line.cursor + 1
  generation := if s.line.cursor = s.line.cells.length then s.line.generation else (s.line.generation + 1) % 65536 } }

/-- What a Line-mode stroke of port `p` finds: its line, in Composing, and the map Loaded. -/
structure composing (p : Port) (m : PetalMap) (s : State) : Prop where
  phase : s.line.phase = .composing
  holder : s.line.holder = some p
  mode : s.line.mode = .line
  map : s.engine.petalMap = some m

theorem composing.relay_unlaid {p : Port} {m : PetalMap} {s : State} (h : composing p m s) (c : Cell) :
    relayLine (unlaid c s) = inserted m c s :=
  relayLine_lineMode (s := unlaid c s) h.map (by show s.line.holder ≠ none; rw [h.holder]; simp) h.mode

theorem composing.lineInsert {p : Port} {m : PetalMap} {s : State} (h : composing p m s) (c : Cell) :
    lineInsert c s = if atEnd s then extendSpelling (inserted m c s) else editSpelling (inserted m c s) := by
  rw [← h.relay_unlaid c]; rfl

theorem composing.lineInsert_respelled {p : Port} {m : PetalMap} {s : State} (h : composing p m s) (c : Cell) :
    respelled (inserted m c s) (Machine.lineInsert c s) := by
  rw [h.lineInsert]
  split
  · exact extendSpelling_respelled _
  · exact editSpelling_respelled _

theorem inserted_frame (m : PetalMap) (c : Cell) (s : State) : changesOnly [.line, .composer] s (inserted m c s) :=
  fun q hq => by cases q <;> first | exact absurd hq (by decide) | rfl

theorem composing.lineInsert_spelled {p : Port} {m : PetalMap} {s : State} (h : composing p m s) (c : Cell) :
    changesOnly [.line, .spelling] (inserted m c s) (Machine.lineInsert c s) := by
  rw [h.lineInsert]
  exact .ite (extendSpelling_frame _) (editSpelling_frame _)

/-- A cell at the end goes behind the others. -/
theorem insertAt_end {cells : List Cell} {i : Nat} (h : i = cells.length) (c : Cell) : insertAt cells i c = cells ++ [c] := by
  unfold insertAt; rw [h, List.take_length, List.drop_length]

/-- R129, R130: what a cell at the end makes of the spelling side. -/
theorem composing.lineInsert_extended {p : Port} {m : PetalMap} {s : State} (h : composing p m s) (he : atEnd s) (c : Cell) :
    extendedSpelling p c s (Machine.lineInsert c s) := by
  rw [h.lineInsert, if_pos he]
  refine extendSpelling_extended h.holder ⟨rfl, rfl, rfl, rfl, rfl⟩ ?_ rfl rfl rfl
  show (layFrom s.format m s.format.left (insertAt s.line.cells s.line.cursor c)).map _ = _
  rw [layFrom_content, insertAt_end he]

/-- R131: what a cell before the end makes of it. -/
theorem composing.lineInsert_edited {p : Port} {m : PetalMap} {s : State} (h : composing p m s) (he : ¬ atEnd s) (c : Cell) :
    editedSpelling s (Machine.lineInsert c s) := by
  rw [h.lineInsert, if_neg he]
  exact editSpelling_edited rfl rfl rfl

/-! ### The end of the step -/

section
variable (h : composing p m s)
include h

theorem composing.typed_line : (typed m kind code k s).line = { (Machine.lineInsert (typedCell kind code k s) s).line with
    bell := s.line.bell || ((decide (kind = .character) && decide (atEnd s)) && inZone s.format (typedExtent m kind code k s)) } := by
  have hb : (Machine.lineInsert (typedCell kind code k s) s).line.bell = s.line.bell := (h.lineInsert_respelled _).bell
  have hf : (Machine.lineInsert (typedCell kind code k s) s).format = s.format := (lineInsert_frame _ s).same .format
  unfold typed
  rw [bellIf_line, hb, hf]

theorem composing.typed_phase : (typed m kind code k s).line.phase ≠ .checking := by
  rw [h.typed_line]
  show (Machine.lineInsert _ s).line.phase ≠ _
  rw [(h.lineInsert_respelled _).phase]
  show s.line.phase ≠ _
  rw [h.phase]; decide

theorem composing.typed_composer : (typed m kind code k s).composer = { s.composer with
    position := positionAt s.format.left (layFrom s.format m s.format.left (typedCells kind code k s)) (s.line.cursor + 1) } := by
  unfold typed
  rw [(bellIf_frame _ _ _).same .composer, (h.lineInsert_spelled _).same .composer]; rfl

theorem composing.typed_tones : (typed m kind code k s).tones =
    if (kind = .character ∧ atEnd s) ∧ s.line.bell = false ∧ inZone s.format (typedExtent m kind code k s) = true
    then s.tones.request .bell else s.tones := by
  have hb : (Machine.lineInsert (typedCell kind code k s) s).line.bell = s.line.bell := (h.lineInsert_respelled _).bell
  have hf : (Machine.lineInsert (typedCell kind code k s) s).format = s.format := (lineInsert_frame _ s).same .format
  have ht : (Machine.lineInsert (typedCell kind code k s) s).tones = s.tones := (h.lineInsert_spelled _).same .tones
  unfold typed
  rw [bellIf_tones, hb, hf, ht]
  simp only [Bool.and_eq_true, decide_eq_true_eq]

omit h in
theorem typed_spelling :
    (typed m kind code k s).spelling = (Machine.lineInsert (typedCell kind code k s) s).spelling := by
  unfold typed; exact (bellIf_frame _ _ _).same .spelling

/-- The line of a stroke that is taken, at the end of its step. -/
theorem composing.endStep_typed : (endStep (typed m kind code k s)).line = (typed m kind code k s).line
    ∧ (endStep (typed m kind code k s)).composer = (typed m kind code k s).composer
    ∧ (endStep (typed m kind code k s)).tones = (typed m kind code k s).tones
    ∧ spellingRests (Machine.lineInsert (typedCell kind code k s) s) (endStep (typed m kind code k s)) := by
  have hp : (typed m kind code k s).line.phase ≠ .checking := h.typed_phase
  have hu := endStep_unheld hp
  exact ⟨endStep_line hp, hu.same .composer, hu.same .tones, (spellingRests.of_eq typed_spelling).trans (endStep_rests hp)⟩

/-- What stays of the line, and what the cell changes. -/
theorem composing.endStep_typed_line :
    let t := endStep (typed m kind code k s)
    t.line.cells = layFrom s.format m s.format.left (typedCells kind code k s) ∧ t.line.cursor = s.line.cursor + 1
      ∧ t.line.generation = (if atEnd s then s.line.generation else (s.line.generation + 1) % 65536)
      ∧ t.line.phase = .composing ∧ t.line.holder = s.line.holder ∧ t.line.serial = s.line.serial
      ∧ t.line.marginRelease = s.line.marginRelease := by
  have hr := h.lineInsert_respelled (typedCell kind code k s)
  dsimp only
  rw [h.endStep_typed.1, h.typed_line]
  exact ⟨hr.cells, hr.cursor, hr.generation, hr.phase.trans h.phase, hr.holder, hr.serial, hr.marginRelease⟩

theorem composing.wordListKept_typed : wordListKept (endStep (typed m kind code k s))
    = wordListKept (Machine.lineInsert (typedCell kind code k s) s) := by
  have hf : changesOnly [.spelling, .store, .display, .holdTimer, .line, .tones]
      (Machine.lineInsert (typedCell kind code k s) s) (endStep (typed m kind code k s)) :=
    (bellIf_frame _ _ _).then (endStep_unheld h.typed_phase) (by decide) (by decide)
  refine wordListKept_congr ?_ (hf.same .options) (hf.same .lift)
  rw [h.endStep_typed.1, h.typed_line]

theorem composing.endStep_edited (he : ¬ atEnd s) : editedSpelling s (endStep (typed m kind code k s)) := by
  obtain ⟨hl, -, -, hrest⟩ := h.endStep_typed (kind := kind) (code := code) (k := k)
  refine (h.lineInsert_edited he _).rests hrest h.wordListKept_typed ?_ ?_ ?_ ?_ ?_ <;> rw [hl, h.typed_line]

theorem composing.endStep_extended (he : atEnd s) :
    extendedSpelling p (typedCell kind code k s) s (endStep (typed m kind code k s)) := by
  obtain ⟨hl, -, -, hrest⟩ := h.endStep_typed (kind := kind) (code := code) (k := k)
  refine (h.lineInsert_extended he _).rests hrest ?_
  rw [hl, h.typed_line]

end

end

/-! ### The stroke and its step -/

theorem wrapLine_phase (p : Port) (m : PetalMap) (c : Cell) {s : State} (h : s.line.phase ≠ .checking) :
    (wrapLine p m c s).line.phase ≠ .checking := by
  unfold wrapLine
  split
  · exact h
  · dsimp only
    split
    · exact h
    · rw [(lineEndSpelling_respelled _ _).phase, (cutWords_respelled _).phase, relayLine_phase]
      show Phase.waiting ≠ .checking; decide

/-- A Character, Space or Tab leaves no line in Checking. -/
theorem composing.lineCell_phase {p : Port} {m : PetalMap} {s : State} (h : composing p m s) (kind : CellKind)
    (code : Byte) (k : Stroke) : (lineCell p m kind code k s).line.phase ≠ .checking := by
  have hs : s.line.phase ≠ .checking := by rw [h.phase]; decide
  have ho : (offered p m kind code k s).line.phase ≠ .checking := by
    unfold offered; split
    · exact hs
    · exact h.typed_phase
  rw [lineCell_eq]
  split
  · split
    · exact hs
    · exact ho
  · split
    · exact ho
    · split
      · split
        · exact hs
        · exact ho
      · split
        · exact wrapLine_phase p m _ hs
        · exact hs

/-- The stroke of a Character, a Space or a Tab. -/
def types (k : Stroke) (kind : CellKind) (code : Byte) : Prop :=
  (kind = .character ∧ k.kind = .character code) ∨ (kind = .space ∧ code = 0x20 ∧ k.kind = .space)
    ∨ (kind = .tab ∧ code = 0x09 ∧ k.kind = .function .tab)

/-- R39: the head stroke taken, the line back in Composing. -/
def resumed (p : Port) (rest : List Stroke) (s : State) : State :=
  { takenStroke p rest s with line := { s.line with phase := .composing } }

theorem composeLine_types {p : Port} {m : PetalMap} {k : Stroke} {kind : CellKind} {code : Byte} {s : State}
    (h : types k kind code) : composeLine p m k s = lineCell p m kind code k s := by
  unfold composeLine
  rcases h with ⟨rfl, hk⟩ | ⟨rfl, rfl, hk⟩ | ⟨rfl, rfl, hk⟩ <;> rw [hk]

/-- R31, R39: a Character, Space or Tab is composed in Composing, to which a Held line returns. -/
theorem composeTaken_types {p : Port} {m : PetalMap} {k : Stroke} {kind : CellKind} {code : Byte} {rest : List Stroke}
    {s : State} (hp : s.line.phase = .composing ∨ s.line.phase = .held) (hm : s.line.mode = .line)
    (h : types k kind code) : composeTaken p m k (takenStroke p rest s) = lineCell p m kind code k (resumed p rest s) := by
  have hf : (takenStroke p rest s).line.phase ≠ .free := by
    show s.line.phase ≠ _
    rcases hp with e | e <;> rw [e] <;> decide
  have hd : (takenStroke p rest s).line.mode ≠ .direct := by show s.line.mode ≠ _; rw [hm]; decide
  unfold composeTaken
  rw [if_neg (by simp [hf])]
  dsimp only
  rw [if_neg hf, if_neg hd]
  rcases hp with e | e
  · have hsame : resumed p rest s = takenStroke p rest s := by unfold resumed; rw [← e]; rfl
    rw [hsame, if_neg (by show ¬ s.line.phase = _; rw [e]; decide), composeLine_types h]
  · rw [if_pos (by exact e)]
    have hheld : composeHeld p m k (takenStroke p rest s) = composeLine p m k (resumed p rest s) := by
      unfold composeHeld
      rcases h with ⟨-, hk⟩ | ⟨-, -, hk⟩ | ⟨-, -, hk⟩ <;> rw [hk] <;> rfl
    rw [hheld, composeLine_types h]

theorem composing_resumed {p : Port} {m : PetalMap} {rest : List Stroke} {s : State} (hh : s.line.holder = some p)
    (hl : s.line.mode = .line) (hm : s.engine.petalMap = some m) : composing p m (resumed p rest s) := ⟨rfl, hh, hl, hm⟩

theorem editedSpelling.of_resumed {p : Port} {rest : List Stroke} {s t : State}
    (h : editedSpelling (resumed p rest s) t) : editedSpelling s t := by
  unfold editedSpelling at h ⊢; exact h

theorem extendedSpelling.of_resumed {p : Port} {c : Cell} {rest : List Stroke} {s t : State}
    (h : extendedSpelling p c (resumed p rest s) t) : extendedSpelling p c s t := by
  unfold extendedSpelling wordTried lookupsStand at h ⊢; exact h

/-- R25: the stroke of a held Line-mode line and its step. -/
theorem exec_types {p : Port} {m : PetalMap} {k : Stroke} {kind : CellKind} {code : Byte} {rest : List Stroke}
    {s : State} (hp : s.line.phase = .composing ∨ s.line.phase = .held) (hh : s.line.holder = some p)
    (hl : s.line.mode = .line) (ha : s.lift.away = false ∨ p = .console) (hr : s.composer.ring p = k :: rest)
    (hm : s.engine.petalMap = some m) (h : types k kind code) :
    exec .composeStroke s = .next (endStep (lineCell p m kind code k (resumed p rest s))) := by
  have hserve := portToServe_held hp hh ha (by rw [hr]; simp) (by rw [hm]; simp) (.inl hl)
  rw [exec_composeStroke hserve hr hm, composeTaken_types hp hl h]

/-- What such a step may change. -/
theorem typed_step_frame {p : Port} {m : PetalMap} {rest : List Stroke} {s : State} (h : composing p m (resumed p rest s))
    (kind : CellKind) (code : Byte) (k : Stroke) :
    changesOnly [.composer, .line, .spelling, .store, .display, .tones, .holdTimer] s
      (endStep (lineCell p m kind code k (resumed p rest s))) := by
  have h0 : changesOnly [.composer, .line] s (resumed p rest s) :=
    fun q hq => by cases q <;> first | exact absurd hq (by decide) | rfl
  exact ((h0.mono (by decide)).trans ((lineCell_frame p m kind code k _).mono (by decide))).trans
    ((endStep_unheld (h.lineCell_phase kind code k)).mono (by decide))

/-- R24, R31, R35: a refused stroke leaves the line in Composing as it was. -/
theorem refused_step {p : Port} {rest : List Stroke} {st : Status} {s : State} :
    (endStep (refuseStroke p st (resumed p rest s))).line = { s.line with phase := .composing }
      ∧ (endStep (refuseStroke p st (resumed p rest s))).tones = s.tones.request .refuse
      ∧ (endStep (refuseStroke p st (resumed p rest s))).composer.ring p = rest
      ∧ (endStep (refuseStroke p st (resumed p rest s))).composer.refusals p
        = { code := some st, count := min 255 ((s.composer.refusals p).count + 1) } := by
  obtain ⟨h1, h2, h3, -⟩ := endStep_refused (p := p) (code := st) (s := resumed p rest s) (by show Phase.composing ≠ _; decide)
  refine ⟨h3, h2, ?_, ?_⟩
  · rw [h1]; cases p <;> rfl
  · rw [h1, refuseStroke_composer]; cases p <;> rfl

/-- R36: when this stroke rings the bell. -/
theorem rings_iff {kind : CellKind} {e : Prop} {bell : Bool} {f : FormatRecord} {edge : Nat} :
    ((kind = .character ∧ e) ∧ bell = false ∧ inZone f edge = true)
      ↔ kind = .character ∧ e ∧ bell = false ∧ f.right - f.zone ≤ edge ∧ edge < f.right := by
  simp [inZone, and_assoc]

/-- Settles O47: a cell of a Line-mode line is taken, refused with Full or refused with Margin, and what it leaves. -/
theorem lineCharacterIsInserted : Obligations.LineCharacterIsInserted := by
  unfold Obligations.LineCharacterIsInserted
  refine ⟨fun p code k rest m s hp hh hl ha hr hk hm hroom hc hext => ?_,
    fun p kind code k rest m s hp hh hl ha hr hm hc htypes => ?_⟩
  · have htypes : types k .character code := .inl ⟨rfl, hk⟩
    have h : composing p m (resumed p rest s) := composing_resumed hh hl hm
    have htakes : takes m .character code k (resumed p rest s) := by
      unfold takes; rw [if_neg (by simp)]; exact .inl hext
    have hstep : lineCell p m .character code k (resumed p rest s) = typed m .character code k (resumed p rest s) := by
      rw [lineCell_of_takes htakes]; exact if_neg (Nat.not_le.2 hroom)
    obtain ⟨h1, h2, h3, h4, h5, h6, -⟩ := h.endStep_typed_line (kind := .character) (code := code) (k := k)
    have hcomp := h.endStep_typed.2.1.trans (h.typed_composer (kind := .character) (code := code) (k := k))
    have hframe := typed_step_frame h .character code k
    rw [hstep] at hframe
    refine ⟨_, exec_types (.inl hp) hh hl ha hr hm htypes, ?_⟩
    rw [hstep]
    refine ⟨?_, ?_, h2, h3, h4, h5, h6, ?_, ?_, ?_, hframe⟩
    · rw [h1, layFrom_length]; exact insertAt_length _ _ _
    · rw [h1, layFrom_content]; rfl
    · rw [hcomp]; cases p <;> rfl
    · rw [hcomp]; cases p <;> rfl
    · rw [hcomp]; cases p <;> rfl
  · intro cells extent atEnd' wraps' taken refused
    have h : composing p m (resumed p rest s) := composing_resumed hh hl hm
    have hframe := typed_step_frame h kind code k
    refine ⟨_, exec_types hp hh hl ha hr hm htypes, fun ht hroom => ?_, fun ht hfull => ?_, fun ht hw => ?_,
      hframe.same .engine, hframe⟩
    · have htakes : takes m kind code k (resumed p rest s) := ht
      have hstep : lineCell p m kind code k (resumed p rest s) = typed m kind code k (resumed p rest s) := by
        rw [lineCell_of_takes htakes]; exact if_neg (Nat.not_le.2 hroom)
      obtain ⟨h1, h2, h3, h4, h5, h6, h7⟩ := h.endStep_typed_line (kind := kind) (code := code) (k := k)
      have hcomp := h.endStep_typed.2.1.trans (h.typed_composer (kind := kind) (code := code) (k := k))
      rw [hstep]
      refine ⟨h1, h2, ?_, ?_, h3, h4, h5, h6, h7, fun he => ?_, fun he => ?_, ?_, ?_⟩
      · rw [hcomp]; cases p <;> rfl
      · rw [hcomp, h1, h2]; rfl
      · exact (h.endStep_edited he).of_resumed
      · exact (h.endStep_extended he).of_resumed
      · rw [h.endStep_typed.1, h.typed_line]
        show (s.line.bell || ((decide (kind = .character) && decide (s.line.cursor = s.line.cells.length))
          && inZone s.format extent)) = _
        cases hb : s.line.bell with
        | true => rfl
        | false =>
          rw [Bool.false_or, Bool.false_or, Bool.eq_iff_iff, decide_eq_true_eq, ← rings_iff]
          simp [atEnd']
      · rw [h.endStep_typed.2.2.1, h.typed_tones]
        exact if_congr rings_iff rfl rfl
    · have htakes : takes m kind code k (resumed p rest s) := ht
      rw [lineCell_of_takes htakes, show offered p m kind code k (resumed p rest s) = _ from if_pos hfull]
      exact refused_step
    · have hn : ¬ takes m kind code k (resumed p rest s) := ht
      rw [lineCell_of_margin hn hw]
      exact refused_step

end Sys2Proof.Machine

/-! SUPPORT. The claim of a Free line (R19, R20, R26) and the fragments it resolves (R144). -/

namespace Sys2Proof.Machine

/-! ### A fragment checked alone -/

theorem checkAlone_checked (q : Port) (f : Fragment) (s : State) : checkedAlone q f 8 s (checkAlone q f s) := by
  intro ho hl hu hq hx
  have hroom : s.spelling.room = true := decide_eq_true hq
  unfold checkAlone
  rw [if_pos (by simp [ho, hl, hu, hroom, hx])]
  exact ⟨_, List.mem_append_right _ (List.mem_singleton.2 rfl), rfl, rfl, rfl, rfl, rfl⟩

theorem checkedAlone.stands {q : Port} {f : Fragment} {n : Nat} {s t u : State} (h : checkedAlone q f n s t)
    (r : lookupsStand t u) : checkedAlone q f n s u := by
  intro ho hl hu hq hx
  obtain ⟨e, he, k⟩ := h ho hl hu hq hx
  rcases r.mem_or_marked he with he | he
  · exact ⟨e, he, k⟩
  · exact ⟨_, he, k⟩

/-- What a fragment is checked by depends on these parts alone; the room may have shrunk by a lookup or two. -/
theorem checkedAlone.of_before {q : Port} {f : Fragment} {n n' : Nat} {s s' t : State} (h : checkedAlone q f n s' t)
    (ho : s'.options = s.options) (hu : s'.spelling.userWords = s.spelling.userWords) (hst : s'.store = s.store)
    (hq : s.spelling.queue.length < n' → s'.spelling.queue.length < n) : checkedAlone q f n' s t := by
  unfold checkedAlone at *
  rw [ho, hu, hst] at h
  exact fun a b c d e => h a b c (hq d) e

/-! ### The fragments at a claim (R144) -/

/-- R144: the other port's fragment is checked alone. -/
def otherResolved (p : Port) (s : State) : State :=
  match s.spelling.fragment (Port.other p) with
  | some f => checkAlone (Port.other p) f (setFragment (Port.other p) none s)
  | none => s

theorem setFragment_fragment (p : Port) (f : Option Fragment) (s : State) :
    (setFragment p f s).spelling.fragment p = f ∧
      (setFragment p f s).spelling.fragment (Port.other p) = s.spelling.fragment (Port.other p) := by
  cases p <;> exact ⟨rfl, rfl⟩

theorem setFragment_spelling (p : Port) (f : Option Fragment) (s : State) :
    (setFragment p f s).spelling.queue = s.spelling.queue ∧ (setFragment p f s).spelling.userWords = s.spelling.userWords := by
  cases p <;> exact ⟨rfl, rfl⟩

theorem checkAlone_fragment (q : Port) (f : Fragment) (s : State) (p : Port) :
    (checkAlone q f s).spelling.fragment p = s.spelling.fragment p := by
  rw [checkAlone_spelling]; cases p <;> rfl

theorem otherResolved_frame (p : Port) (s : State) : changesOnly [.spelling] s (otherResolved p s) := by
  unfold otherResolved; split
  · exact (setFragment_frame _ none s).trans (checkAlone_frame _ _ _)
  · exact .refl _ s

theorem otherResolved_fragment (p : Port) (s : State) :
    (otherResolved p s).spelling.fragment p = s.spelling.fragment p
      ∧ (otherResolved p s).spelling.fragment (Port.other p) = none := by
  unfold otherResolved; split
  · rw [checkAlone_fragment, checkAlone_fragment]
    obtain ⟨h1, h2⟩ := setFragment_fragment (Port.other p) none s
    rw [Port.other_other] at h2
    exact ⟨h2, h1⟩
  · next h => exact ⟨rfl, h⟩

theorem otherResolved_userWords (p : Port) (s : State) :
    (otherResolved p s).spelling.userWords = s.spelling.userWords := by
  unfold otherResolved; split
  · rw [checkAlone_spelling]; exact (setFragment_spelling _ _ s).2
  · rfl

theorem otherResolved_stand (p : Port) (s : State) : lookupsStand s (otherResolved p s) := by
  unfold otherResolved; split
  · exact (lookupsStand.of_eq (setFragment_spelling _ _ s).1).trans (checkAlone_lookupsStand _ _ _)
  · exact .refl s

theorem otherResolved_length (p : Port) (s : State) : (otherResolved p s).spelling.queue.length
    ≤ s.spelling.queue.length + if (s.spelling.fragment (Port.other p)).isSome then 1 else 0 := by
  unfold otherResolved
  cases hf : s.spelling.fragment (Port.other p) with
  | none => simp
  | some f =>
    have hq := (setFragment_spelling (Port.other p) none s).1
    rcases checkAlone_queue (Port.other p) f (setFragment (Port.other p) none s) with h | ⟨e, h, -⟩
    · simp [h, hq]
    · simp [h, hq]

theorem otherResolved_checked {p : Port} {s : State} {f : Fragment} (h : s.spelling.fragment (Port.other p) = some f) :
    checkedAlone (Port.other p) f 8 s (otherResolved p s) := by
  unfold otherResolved; rw [h]
  have hf := setFragment_frame (Port.other p) none s
  obtain ⟨hq, hu⟩ := setFragment_spelling (Port.other p) none s
  exact (checkAlone_checked _ f _).of_before (hf.same .options) hu (hf.same .store) (fun k => hq ▸ k)

/-- R144: the port's own fragment is joined to the line. -/
theorem resolveFragments_eq (p : Port) (s : State) : resolveFragments p s =
    match s.spelling.fragment p with
    | some f => setFragment p none
        { otherResolved p s with line := { (otherResolved p s).line with joined := some f } }
    | none => otherResolved p s := by
  have h := (otherResolved_fragment p s).1
  have e : resolveFragments p s = match (otherResolved p s).spelling.fragment p with
    | some f => setFragment p none
        { otherResolved p s with line := { (otherResolved p s).line with joined := some f } }
    | none => otherResolved p s := rfl
  rw [e, h]

/-- The Spelling Unit and the line after the fragments are resolved. -/
theorem resolveFragments_spec (p : Port) {s : State} (hj : s.line.joined = none) :
    (resolveFragments p s).line = { s.line with joined := s.spelling.fragment p }
      ∧ (∀ q, (resolveFragments p s).spelling.fragment q = none)
      ∧ (resolveFragments p s).spelling.queue = (otherResolved p s).spelling.queue
      ∧ (resolveFragments p s).spelling.userWords = s.spelling.userWords := by
  have hl : (otherResolved p s).line = s.line := (otherResolved_frame p s).same .line
  obtain ⟨h1, h2⟩ := otherResolved_fragment p s
  have hboth {u : State} (ha : u.spelling.fragment p = none) (hb : u.spelling.fragment (Port.other p) = none) (q : Port) :
      u.spelling.fragment q = none := by
    rcases Port.eq_or_eq_other q p with rfl | rfl
    · exact ha
    · exact hb
  rw [resolveFragments_eq]
  cases hf : s.spelling.fragment p with
  | none => exact ⟨hl.trans (by rw [← hj]), hboth (h1.trans hf) h2, rfl, otherResolved_userWords p s⟩
  | some f =>
    dsimp only
    set u : State := { otherResolved p s with line := { (otherResolved p s).line with joined := some f } } with hu
    obtain ⟨k1, k2⟩ := setFragment_fragment p none u
    refine ⟨?_, hboth k1 (k2.trans h2), (setFragment_spelling p none u).1,
      (setFragment_spelling p none u).2.trans (otherResolved_userWords p s)⟩
    rw [show (setFragment p none u).line = u.line from (setFragment_frame p none u).same .line, hu, ← hl]

/-! ### The claim -/

theorem relayLine_line_nil {s : State} (h : s.line.cells = []) : (relayLine s).line = s.line := by
  have hlen : (relayLine s).line.cells = [] := by
    unfold relayLine; split
    · exact h
    · split
      · show layFrom _ _ _ s.line.cells = []
        rw [h]; rfl
      · split
        · exact h
        · exact h
  rw [relayLine_line, hlen, ← h]

theorem relayLine_composer (s : State) : ∃ x d, (relayLine s).composer = { s.composer with position := x, leftDue := d } := by
  unfold relayLine; split
  · exact ⟨_, _, rfl⟩
  · split
    · exact ⟨_, _, rfl⟩
    · split
      · exact ⟨_, _, rfl⟩
      · exact ⟨_, _, rfl⟩

/-- R19, R20: the line of a claim before its fragments. -/
def claiming (p : Port) (s : State) : State := { s with
  line := claimedLine p s.composer.nextSerial (claimMode p s)
  composer := { s.composer with nextSerial := serialAfter s.composer.nextSerial } }

theorem claim_eq (p : Port) (s : State) : claim p s = relayLine (resolveFragments p (claiming p s)) := rfl

/-- R19, R20, R26, R144: what a claim leaves. -/
structure claimed (p : Port) (s c : State) : Prop where
  line : c.line = { claimedLine p s.composer.nextSerial (claimMode p s) with joined := s.spelling.fragment p }
  composer : ∃ x d, c.composer =
    { s.composer with nextSerial := serialAfter s.composer.nextSerial, position := x, leftDue := d }
  fragments : ∀ q, c.spelling.fragment q = none
  queue : c.spelling.queue = (otherResolved p (claiming p s)).spelling.queue
  userWords : c.spelling.userWords = s.spelling.userWords
  frame : changesOnly [.line, .composer, .spelling] s c

theorem claim_claimed (p : Port) (s : State) : claimed p s (claim p s) := by
  obtain ⟨h1, h2, h3, h4⟩ := resolveFragments_spec p (s := claiming p s) rfl
  have hsp : (relayLine (resolveFragments p (claiming p s))).spelling = (resolveFragments p (claiming p s)).spelling :=
    (relayLine_frame _).same .spelling
  have hcells : (resolveFragments p (claiming p s)).line.cells = [] := by rw [h1]; rfl
  rw [claim_eq]
  refine ⟨?_, ?_, fun q => ?_, ?_, ?_, ?_⟩
  · rw [relayLine_line_nil hcells, h1]; rfl
  · obtain ⟨x, d, h⟩ := relayLine_composer (resolveFragments p (claiming p s))
    refine ⟨x, d, ?_⟩
    rw [h, show (resolveFragments p (claiming p s)).composer = (claiming p s).composer from
      (resolveFragments_frame p _).same .composer]
    rfl
  · rw [hsp]; exact h2 q
  · rw [hsp, h3]
  · rw [hsp, h4]; rfl
  · have h0 : changesOnly [.line, .composer] s (claiming p s) :=
      fun q hq => by cases q <;> first | exact absurd hq (by decide) | rfl
    exact ((h0.mono (by decide)).trans ((resolveFragments_frame p _).mono (by decide))).trans
      ((relayLine_frame _).mono (by decide))

end Sys2Proof.Machine

/-! SUPPORT. The first stroke of a claimed line (R26): what it leaves of the claim and of the fragments (R144). -/

namespace Sys2Proof.Machine

/-! ### The end of a step and the fragments -/

theorem attemptWords_joined (firsts : List Nat) (s : State) : (attemptWords firsts s).line.joined = s.line.joined := by
  induction firsts generalizing s with
  | nil => rfl
  | cons f firsts ih =>
    refine (ih _).trans ?_
    show (attemptWord f s).line.joined = s.line.joined
    rcases attemptWord_inv f s with ⟨e, -⟩ | ⟨_, _, _, _, ht⟩
    · rw [e]
    · rw [ht.line]; rfl

theorem holdTest_line (s : State) : ∃ phase, (holdTest s).line = { s.line with phase := phase } := by
  unfold holdTest
  split
  · split <;> exact ⟨_, rfl⟩
  · exact ⟨_, rfl⟩

/-- The end of a step leaves the cells and the joined fragment. -/
theorem endStep_cells_joined (s : State) : (endStep s).line.cells = s.line.cells ∧ (endStep s).line.joined = s.line.joined := by
  have h1 : (fillFromChecking s).line.cells = s.line.cells ∧ (fillFromChecking s).line.joined = s.line.joined := by
    refine ⟨(fillFromChecking_respelled s).cells, ?_⟩
    unfold fillFromChecking; split
    · exact attemptWords_joined _ s
    · rfl
  have h2 : (fillFromQueries (fillFromChecking s)).line = (fillFromChecking s).line := (fillQueries_frame _ _ _).same .line
  obtain ⟨phase, h3⟩ := holdTest_line (fillFromQueries (fillFromChecking s))
  have h4 : (endStep s).line = (holdTest (fillFromQueries (fillFromChecking s))).line :=
    ((finish_frame _).same .line).trans ((arbitrate_frame _).same .line)
  rw [h4, h3, h2]; exact h1

/-- The end of a step leaves the pending fragments. -/
theorem endStep_fragment (s : State) (q : Port) : (endStep s).spelling.fragment q = s.spelling.fragment q := by
  have heq {a b : State} (h1 : b.spelling.consoleFragment = a.spelling.consoleFragment)
      (h2 : b.spelling.linkFragment = a.spelling.linkFragment) : b.spelling.fragment q = a.spelling.fragment q := by
    cases q
    · exact h1
    · exact h2
  have h1 : (fillFromChecking s).spelling.fragment q = s.spelling.fragment q := by
    unfold fillFromChecking; split
    · rw [attemptWords_spelling]; cases q <;> rfl
    · rfl
  have r2 := fillQueries_rests [] (fillFromChecking s).spelling.queries (fillFromChecking s)
  have r3 : spellingRests (fillFromQueries (fillFromChecking s)) (settleSpelling s) :=
    .of_eq ((holdTest_frame _).same .spelling)
  have r4 := (r3.trans (arbitrate_rests (settleSpelling s))).trans
    (.of_eq ((finish_frame (arbitrate (settleSpelling s))).same .spelling))
  exact (heq r4.consoleFragment r4.linkFragment).trans ((heq r2.consoleFragment r2.linkFragment).trans h1)

/-! ### The fragment of the port's own (R144) -/

/-- A stroke that begins a word. -/
def begins (k : Stroke) : Prop := ∃ code, k.kind = .character code ∧ isLetter code = true

/-- R144: what the first stroke makes of the fragments: the joined one stays, or is checked alone where the stroke's cell
begins no word. -/
structure resolvedIn (p : Port) (k : Stroke) (c r : State) : Prop where
  fragments : ∀ q, r.spelling.fragment q = c.spelling.fragment q
  stand : lookupsStand c r
  kept : r.line.phase ≠ .free → (r.line.cells = [] ∨ begins k ∨ c.options.spellingOf p = false) →
    r.line.joined = c.line.joined
  alone : ∀ f, c.line.joined = some f → r.line.cells ≠ [] → ¬ begins k → c.options.spellingOf p = true →
    r.line.joined = none ∧ checkedAlone p f 8 c r

namespace resolvedIn
variable {p : Port} {k : Stroke} {c r : State}

/-- A stroke that puts no cell on the line leaves the fragments. -/
theorem of_quiet (hs : ∀ q, r.spelling.fragment q = c.spelling.fragment q) (hq : r.spelling.queue = c.spelling.queue)
    (hc : r.line.cells = []) (hj : r.line.phase ≠ .free → r.line.joined = c.line.joined) : resolvedIn p k c r :=
  ⟨hs, .of_eq hq, fun h _ => hj h, fun _ _ h => absurd hc h⟩

/-- The end of the step changes none of it. -/
theorem ended (h : resolvedIn p k c r) : resolvedIn p k c (endStep r) := by
  obtain ⟨h1, h2⟩ := endStep_cells_joined r
  refine ⟨fun q => (endStep_fragment r q).trans (h.fragments q), h.stand.trans (endStep_lookupsStand r), fun hp hk => ?_,
    fun f hf hc hl ho => ?_⟩
  · rw [h2]
    refine h.kept (fun hfree => hp ?_) (h1 ▸ hk)
    rw [endStep_line (by rw [hfree]; decide), hfree]
  · rw [h1] at hc
    obtain ⟨hn, ha⟩ := h.alone f hf hc hl ho
    exact ⟨h2.trans hn, ha.stands (endStep_lookupsStand r)⟩

end resolvedIn

/-! ### A line of one cell -/

theorem wordAtCells_single (d : Cell) : wordAtCells [d] 0 1 = (!d.boundary && d.letter) := by
  unfold wordAtCells Cell.boundary
  simp [hyphen]

theorem boundary_of_letter {d : Cell} (h : d.letter = true) : d.boundary = false := by
  unfold Cell.letter at h
  rw [Bool.and_eq_true] at h
  unfold Cell.boundary
  have hc : (d.code == hyphen) = false := by
    by_contra hn
    rw [Bool.not_eq_false, beq_iff_eq] at hn
    rw [hn] at h
    exact absurd h.2 (by decide)
  rw [hc, bne, h.1]; rfl

theorem wordsOf_single (d : Cell) :
    (d.letter = true → ∃ x ∈ wordsOf [d], x.first = 0) ∧ (d.letter = false → wordsOf [d] = []) := by
  constructor
  · intro h
    have hw : wordAtCells [d] 0 1 = true := by rw [wordAtCells_single, h, boundary_of_letter h]; rfl
    obtain ⟨k, hk, -⟩ := mem_of_wordAtCells hw
    exact ⟨_, hk, rfl⟩
  · intro h
    rw [List.eq_nil_iff_forall_not_mem]
    intro x hx
    have hw := wordAtCells_of_mem hx
    obtain ⟨h1, h2, -⟩ := count_pos_of_wordAtCells hw
    have hf : x.first = 0 := by simp only [List.length_singleton] at h2; omega
    have hc : x.count = 1 := by simp only [List.length_singleton] at h2; omega
    rw [hf, hc, wordAtCells_single, h] at hw
    simp at hw

section
variable {p : Port} {k : Stroke} {c u r : State} {d : Cell}

/-- R129, R144: the first cell of a claimed line and the fragment joined to it. -/
theorem resolvedIn.of_extended (hd : u.line.cells = [d]) (hl : d.letter = true ↔ begins k) (hh : u.line.holder = some p)
    (hj : u.line.joined = c.line.joined) (hsp : u.spelling = c.spelling) (ho : u.options = c.options)
    (ha : u.lift.away = false) (hst : u.store = c.store) (hr : r.line.joined = (extendSpelling u).line.joined)
    (hcells : r.line.cells ≠ []) (hrs : r.spelling = (extendSpelling u).spelling) : resolvedIn p k c r := by
  have hkept : wordListKept u = c.options.spellingOf p := by unfold wordListKept; rw [hh, ho, ha]; simp
  have hjoined : (extendSpelling u).line.joined = (checkJoined false (grownList u)).line.joined := by
    rw [extendSpelling_eq]; exact attemptWords_joined _ _
  have hstand : lookupsStand c r := by
    have := extendSpelling_lookupsStand u
    unfold lookupsStand at this ⊢
    rw [hrs, ← hsp]; exact this
  refine ⟨fun q => ?_, hstand, fun _ hk => ?_, fun f hf _ hn hon => ?_⟩
  · rw [hrs, extendSpelling_spelling, hsp]; cases q <;> rfl
  · have hid : checkJoined false (grownList u) = grownList u := by
      rcases hk with hk | hk | hk
      · exact absurd hk hcells
      · cases hkk : wordListKept u with
        | true =>
          obtain ⟨x, hx, hx0⟩ := (wordsOf_single d).1 (hl.2 hk)
          have hfind := find_grownList hkk (hd ▸ hx)
          exact checkJoined_of_word (List.mem_of_find?_eq_some hfind) ((keepOld_word _ _).1.trans hx0)
        | false =>
          rcases checkJoined_cases false (grownList u) with e | ⟨_, _, -, -, -, h, -⟩
          · exact e
          · rw [show wordListKept (grownList u) = wordListKept u from rfl, hkk] at h; cases h
      · rcases checkJoined_cases false (grownList u) with e | ⟨_, _, -, -, -, h, -⟩
        · exact e
        · rw [show wordListKept (grownList u) = wordListKept u from rfl, hkept, hk] at h; cases h
    rw [hr, hjoined, hid]; exact hj
  · have hkk : wordListKept u = true := hkept.trans hon
    have hletter : d.letter = false := by
      cases h : d.letter with
      | true => exact absurd (hl.1 h) hn
      | false => rfl
    have hwords : (grownList u).line.words = [] := by
      show (freshRecords u).map _ = []
      rw [freshRecords, hkk, if_pos rfl, hd, (wordsOf_single d).2 hletter]; rfl
    have hcheck : checkJoined false (grownList u) = checkAlone p f (dropJoined (grownList u)) := by
      have hg : (grownList u).line.joined = some f := hj.trans hf
      have hgh : (grownList u).line.holder = some p := hh
      have hgc : (grownList u).line.cells = [d] := hd
      unfold checkJoined
      rw [hgh, hg]
      dsimp only
      rw [if_pos (by rw [hwords, hgc, show wordListKept (grownList u) = true from hkk]; rfl)]
      rfl
    have hchecked := checkAlone_checked p f (dropJoined (grownList u))
    rw [← hcheck] at hchecked
    have hstands := hchecked.stands (attemptWords_lookupsStand (justCompleted (checkJoined false (grownList u)).line.cells) _)
    refine ⟨?_, ?_⟩
    · rw [hr, hjoined, hcheck, checkAlone_line]; rfl
    · have hq : (dropJoined (grownList u)).spelling = c.spelling := hsp
      have := hstands.of_before (s := c) (n' := 8) ho (by rw [hq]) hst (by rw [hq]; exact id)
      unfold checkedAlone at this ⊢
      rw [hrs, extendSpelling_eq]; exact this

end

end Sys2Proof.Machine

/-! SUPPORT. What the first stroke of a claimed line leaves of the claim (R26), and the port that is served (R24, R25). -/

namespace Sys2Proof.Machine

/-! ### The first stroke -/

/-- What a stroke finds on a line just claimed by port `p`. -/
structure justClaimed (p : Port) (c : State) : Prop where
  phase : c.line.phase = .composing
  holder : c.line.holder = some p
  cells : c.line.cells = []
  cursor : c.line.cursor = 0
  words : c.line.words = []
  fragments : ∀ q, c.spelling.fragment q = none
  away : c.lift.away = false

/-- What the first stroke keeps of a claim. -/
structure firstStroke (p : Port) (k : Stroke) (c r : State) : Prop where
  line : r.line.holder = c.line.holder ∧ r.line.serial = c.line.serial ∧ r.line.mode = c.line.mode
    ∧ r.line.phase = c.line.phase
  composer : r.composer.consoleRing = c.composer.consoleRing ∧ r.composer.linkRing = c.composer.linkRing
    ∧ r.composer.nextSerial = c.composer.nextSerial ∧ r.composer.lastHolder = c.composer.lastHolder
  resolved : resolvedIn p k c r

namespace firstStroke
variable {p : Port} {k : Stroke} {c r u : State}

/-- What follows and touches neither cells nor fragments is nothing to the claim. -/
theorem next (h : firstStroke p k c r) (hl : u.line.holder = r.line.holder ∧ u.line.serial = r.line.serial
      ∧ u.line.mode = r.line.mode ∧ u.line.phase = r.line.phase) (hcells : u.line.cells = r.line.cells)
    (hj : u.line.joined = r.line.joined)
    (hc : u.composer.consoleRing = r.composer.consoleRing ∧ u.composer.linkRing = r.composer.linkRing
      ∧ u.composer.nextSerial = r.composer.nextSerial ∧ u.composer.lastHolder = r.composer.lastHolder)
    (hs : u.spelling = r.spelling) : firstStroke p k c u := by
  obtain ⟨a1, a2, a3, a4⟩ := h.line
  obtain ⟨b1, b2, b3, b4⟩ := h.composer
  obtain ⟨e1, e2, e3, e4⟩ := hl
  obtain ⟨d1, d2, d3, d4⟩ := hc
  refine ⟨⟨e1.trans a1, e2.trans a2, e3.trans a3, e4.trans a4⟩, ⟨d1.trans b1, d2.trans b2, d3.trans b3, d4.trans b4⟩, ?_⟩
  refine ⟨fun q => by rw [hs]; exact h.resolved.fragments q, ?_, fun x y => ?_, fun f x y z w => ?_⟩
  · exact h.resolved.stand.trans (.of_eq (by rw [hs]))
  · rw [hj]; exact h.resolved.kept (e4 ▸ x) (hcells ▸ y)
  · rw [hj]
    obtain ⟨g1, g2⟩ := h.resolved.alone f x (hcells ▸ y) z w
    exact ⟨g1, g2.stands (.of_eq (by rw [hs]))⟩

theorem refl (h : justClaimed p c) : firstStroke p k c c :=
  ⟨⟨rfl, rfl, rfl, rfl⟩, ⟨rfl, rfl, rfl, rfl⟩, .of_quiet (fun _ => rfl) rfl h.cells fun _ => rfl⟩

theorem refused (h : justClaimed p c) (q : Port) (st : Status) : firstStroke p k c (refuseStroke q st c) :=
  (refl h).next ⟨rfl, rfl, rfl, rfl⟩ rfl rfl (by cases q <;> exact ⟨rfl, rfl, rfl, rfl⟩) rfl

/-- The Stroke Job of a Direct-mode stroke, and the compose position it leaves. -/
theorem positioned (h : firstStroke p k c r) (j : Job) (x : Nat) : firstStroke p k c (appendJob j (setPosition x r)) := by
  have hl : ∃ n, (appendJob j (setPosition x r)).line = { r.line with cursor := n } := by
    rw [appendJob_line]
    unfold setPosition; dsimp only
    split
    · exact ⟨_, rfl⟩
    · exact ⟨_, rfl⟩
  obtain ⟨n, hl⟩ := hl
  have hc : (appendJob j (setPosition x r)).composer = { r.composer with position := x } := appendJob_composer _ _
  refine h.next ?_ ?_ ?_ ?_ (appendJob_spelling _ _)
  · rw [hl]; exact ⟨rfl, rfl, rfl, rfl⟩
  · rw [hl]
  · rw [hl]
  · rw [hc]; exact ⟨rfl, rfl, rfl, rfl⟩

end firstStroke

/-! ### A first cell -/

theorem letter_of_types {k : Stroke} {kind : CellKind} {code : Byte} {d : Cell} (h : types k kind code)
    (hk : d.kind = kind) (hc : d.code = code) : d.letter = true ↔ begins k := by
  unfold Cell.letter begins
  rw [hk, hc]
  rcases h with ⟨rfl, h⟩ | ⟨rfl, rfl, h⟩ | ⟨rfl, rfl, h⟩ <;> rw [h] <;> simp [isLetter]

theorem wrapLine_nil (p : Port) (m : PetalMap) (c : Cell) {s : State} (h : s.line.cells = []) :
    wrapLine p m c s = refuseStroke p .margin s := by
  unfold wrapLine; rw [h]; rfl

section
variable {p : Port} {m : PetalMap} {k : Stroke} {kind : CellKind} {code : Byte} {c : State}

/-- R31: the first cell of a Line-mode line. -/
theorem typed_first (h : justClaimed p c) (hm : composing p m c) (ht : types k kind code) :
    firstStroke p k c (typed m kind code k c) := by
  have hend : atEnd c := by show c.line.cursor = c.line.cells.length; rw [h.cursor, h.cells]; rfl
  have hr := hm.lineInsert_respelled (typedCell kind code k c)
  have hl := hm.typed_line (kind := kind) (code := code) (k := k)
  have hins := hm.lineInsert (typedCell kind code k c)
  rw [if_pos hend] at hins
  have hcells : (inserted m (typedCell kind code k c) c).line.cells
      = layFrom c.format m c.format.left [typedCell kind code k c] := by
    show layFrom _ _ _ (insertAt c.line.cells c.line.cursor _) = _
    rw [h.cells, h.cursor]; rfl
  refine ⟨?_, ?_, resolvedIn.of_extended (u := inserted m (typedCell kind code k c) c) hcells
    (letter_of_types ht rfl rfl) h.holder rfl rfl rfl h.away rfl ?_ ?_ ?_⟩
  · rw [hl]; exact ⟨hr.holder, hr.serial, hr.mode, hr.phase⟩
  · rw [hm.typed_composer]; exact ⟨rfl, rfl, rfl, rfl⟩
  · rw [hl, hins]
  · rw [hl]
    show (lineInsert (typedCell kind code k c) c).line.cells ≠ []
    rw [hr.cells, hcells]
    exact List.cons_ne_nil _ _
  · rw [typed_spelling, hins]

theorem lineCell_first (h : justClaimed p c) (hm : composing p m c) (ht : types k kind code) :
    firstStroke p k c (lineCell p m kind code k c) := by
  have hr : firstStroke p k c (refuseStroke p .margin c) := .refused h p _
  have ho : firstStroke p k c (offered p m kind code k c) := by
    unfold offered
    rw [if_neg (by rw [h.cells]; decide)]
    exact typed_first h hm ht
  rw [lineCell_eq]
  split
  · split
    · exact hr
    · exact ho
  · split
    · exact ho
    · split
      · split
        · exact hr
        · exact ho
      · split
        · rw [wrapLine_nil p m _ h.cells]; exact hr
        · exact hr

/-- R30: the first cell of a Direct-mode line. -/
theorem directInsert_first {u : State} {d : Cell} (h : justClaimed p c) (hu : changesOnly [.line, .tones] c u)
    (hl : ∃ b, u.line = { c.line with bell := b }) (hd : d.letter = true ↔ begins k) :
    firstStroke p k c (directInsert 0 d u) := by
  obtain ⟨b, hl⟩ := hl
  have hcells : u.line.cells = [] := by rw [hl]; exact h.cells
  have he : directInsert 0 d u = extendSpelling { u with line := { u.line with cells := [d] } } := by
    unfold directInsert; dsimp only; rw [hcells]; rfl
  have hr := extendSpelling_respelled { u with line := { u.line with cells := [d] } }
  have hc : (extendSpelling { u with line := { u.line with cells := [d] } }).composer = c.composer :=
    ((extendSpelling_frame _).same .composer).trans (hu.same .composer)
  rw [he]
  refine ⟨?_, ?_, resolvedIn.of_extended (u := { u with line := { u.line with cells := [d] } }) rfl hd
    (by rw [hl]; exact h.holder) (by rw [hl]) (hu.same .spelling) (hu.same .options)
    (by rw [show ({ u with line := { u.line with cells := [d] } } : State).lift = c.lift from hu.same .lift]; exact h.away)
    (hu.same .store) rfl ?_ rfl⟩
  · refine ⟨hr.holder.trans ?_, hr.serial.trans ?_, hr.mode.trans ?_, hr.phase.trans ?_⟩ <;> dsimp only <;> rw [hl]
  · rw [hc]; exact ⟨rfl, rfl, rfl, rfl⟩
  · rw [hr.cells]; exact List.cons_ne_nil _ _

theorem directCharacter_first (h : justClaimed .console c) (hk : k.kind = .character code) :
    firstStroke .console k c (directCharacter m code k c) := by
  have hnone : cellAt c.line.cells c.composer.position = none := by rw [h.cells]; rfl
  have hindex : struckIndex c = 0 := by rw [struckIndex_inserted hnone, h.cells]; rfl
  have hline : firstStroke .console k c (struckLine m code k c) := by
    unfold struckLine placeCell
    rw [hnone, hindex, if_neg (by simp)]
    exact directInsert_first h (ringBell_frame _ c) ⟨_, ringBell_line _ c⟩ (letter_of_types (.inl ⟨rfl, hk⟩) rfl rfl)
  have hreport : firstStroke .console k c (reportMissing m code (struckLine m code k c)) := by
    have hf := reportMissing_frame m code (struckLine m code k c)
    have hl : (reportMissing m code (struckLine m code k c)).line = (struckLine m code k c).line := hf.same .line
    have hc : (reportMissing m code (struckLine m code k c)).composer = (struckLine m code k c).composer := hf.same .composer
    refine hline.next ?_ ?_ ?_ ?_ (hf.same .spelling)
    · rw [hl]; exact ⟨rfl, rfl, rfl, rfl⟩
    · rw [hl]
    · rw [hl]
    · rw [hc]; exact ⟨rfl, rfl, rfl, rfl⟩
  rw [directCharacter_eq]
  split
  · exact .refused h _ _
  · split
    · exact .refused h _ _
    · exact hreport.positioned _ _

theorem directSpace_first (h : justClaimed .console c) (hk : k.kind = .space) :
    firstStroke .console k c (directSpace m k c) := by
  have hnone : cellAt c.line.cells c.composer.position = none := by rw [h.cells]; rfl
  have hcursor : directCursor c.line.cells c.composer.position = 0 := by rw [h.cells]; rfl
  unfold directSpace
  dsimp only
  split
  · exact .refused h _ _
  · split
    · exact .refused h _ _
    · refine firstStroke.positioned ?_ _ _
      rw [hnone, if_neg (by simp), Option.getD_none, hcursor]
      exact directInsert_first h (.refl _ c) ⟨c.line.bell, rfl⟩ (letter_of_types (.inr (.inl ⟨rfl, rfl, hk⟩)) rfl rfl)

theorem directIndex_first (h : justClaimed .console c) (rise feed : Int) :
    firstStroke .console k c (directIndex rise feed c) := by
  unfold directIndex
  split
  · exact .refused h _ _
  · dsimp only
    have hr : firstStroke .console k c { c with line := { c.line with rise := rise } } :=
      (firstStroke.refl h).next ⟨rfl, rfl, rfl, rfl⟩ rfl rfl ⟨rfl, rfl, rfl, rfl⟩ rfl
    refine hr.next ?_ ?_ ?_ ?_ (appendJob_spelling _ _)
    · rw [appendJob_line]; exact ⟨rfl, rfl, rfl, rfl⟩
    · rw [appendJob_line]
    · rw [appendJob_line]
    · rw [appendJob_composer]; exact ⟨rfl, rfl, rfl, rfl⟩

/-- R26, R31: the first stroke of a Line-mode line, but a Return. -/
theorem composeLine_first (h : justClaimed p c) (hm : composing p m c) (he : k.edits = false)
    (hn : k.kind ≠ .function .carriageReturn) : firstStroke p k c (composeLine p m k c) := by
  have hflag {l : WorkingLine} (hl : l.holder = c.line.holder ∧ l.serial = c.line.serial ∧ l.mode = c.line.mode
      ∧ l.phase = c.line.phase) (hc : l.cells = c.line.cells) (hj : l.joined = c.line.joined) :
      firstStroke p k c { c with line := l } :=
    (firstStroke.refl h).next hl hc hj ⟨rfl, rfl, rfl, rfl⟩ rfl
  unfold composeLine
  split
  · next code hk => exact lineCell_first h hm (.inl ⟨rfl, hk⟩)
  · next hk => exact lineCell_first h hm (.inr (.inl ⟨rfl, rfl, hk⟩))
  · next hk => exact lineCell_first h hm (.inr (.inr ⟨rfl, rfl, hk⟩))
  · next hk => simp [Stroke.edits, hk] at he
  · next hk => simp [Stroke.edits, hk] at he
  · next hk => simp [Stroke.edits, hk] at he
  · exact hflag ⟨rfl, rfl, rfl, rfl⟩ rfl rfl
  · exact hflag ⟨rfl, rfl, rfl, rfl⟩ rfl rfl
  · next hk => exact absurd hk hn
  · exact .refused h p _
  · exact .refused h p _
  · exact .refused h p _

/-- R26, R29: the first stroke of a Direct-mode line, but a Return. -/
theorem composeDirect_first (h : justClaimed .console c) (hn : k.kind ≠ .function .carriageReturn) :
    firstStroke .console k c (composeDirect m k c) := by
  unfold composeDirect
  split
  · next code hk => exact directCharacter_first h hk
  · next hk => exact directSpace_first h hk
  · exact (firstStroke.refl h).positioned _ _
  · split
    · exact (firstStroke.refl h).positioned _ _
    · exact .refused h _ _
  · exact directIndex_first h _ _
  · exact directIndex_first h _ _
  · exact (firstStroke.refl h).next ⟨rfl, rfl, rfl, rfl⟩ rfl rfl ⟨rfl, rfl, rfl, rfl⟩ rfl
  · next hk => exact absurd hk hn
  · exact .refused h _ _
  · exact .refused h _ _
  · exact .refused h _ _
  · exact .refused h _ _

end

end Sys2Proof.Machine

/-! SUPPORT. The port that is served on a Free line (R24, R25), the Return that ends a claim, and the claim's step. -/

namespace Sys2Proof.Machine

/-! ### The Return of an empty line -/

section
variable {p : Port} {c : State}

/-- R130, R143: the end of an empty line leaves no fragment and tries no word. -/
theorem lineEndSpelling_empty (hh : c.line.holder = some p) (hf : c.spelling.fragment p = none) (hc : c.line.cells = [])
    (hw : c.line.words = []) (byReturn : Bool) : lineEndSpelling byReturn c = c := by
  have hd : dropOwnFragment p c = c := by unfold dropOwnFragment; rw [hf]
  have hn : (if byReturn then closingFragment c.line else none) = none := by
    cases byReturn
    · rfl
    · unfold closingFragment; rw [hc]; rfl
  unfold lineEndSpelling
  rw [hh]; dsimp only
  rw [hd]
  split
  · rw [hn, hw]; rfl
  · rfl

/-- R37: the Return of a Line-mode line just claimed. -/
theorem endByReturn_first (h : justClaimed p c) : endByReturn c = { c with
    line := { c.line with
      endCause := some .carriageReturn
      phase := if spellHoldApplies c then .checking else .waiting }
    holdTimer := none } := by
  have he := lineEndSpelling_empty (c := { c with line := { c.line with endCause := some .carriageReturn }, holdTimer := none })
    h.holder (h.fragments p) h.cells h.words true
  unfold endByReturn
  dsimp only
  rw [he]; rfl

/-- R29: the Return of a Direct-mode line just claimed. -/
theorem composeDirect_return {m : PetalMap} {k : Stroke} (h : justClaimed .console c) (hk : k.kind = .function .carriageReturn) :
    composeDirect m k c = releaseDirect c := by
  unfold composeDirect; rw [hk]; dsimp only
  rw [if_neg (by rw [h.away]; decide), lineEndSpelling_empty h.holder (h.fragments _) h.cells h.words]

theorem releaseDirect_line (s : State) : (releaseDirect s).line = .free := rfl

theorem releaseDirect_composer (s : State) :
    (releaseDirect s).composer = { s.composer with lastHolder := some .console, position := s.format.left } := by
  unfold releaseDirect
  rw [setPosition_composer, freeLine_composer, (startPrinting_frame _ _).same .composer, appendJob_composer]

/-- R140: the release queues nothing and leaves the fragments. -/
theorem releaseDirect_spelling (s : State) : (releaseDirect s).spelling.queue = s.spelling.queue
    ∧ ∀ q, (releaseDirect s).spelling.fragment q = s.spelling.fragment q := by
  have h : (releaseDirect s).spelling = (startPrinting s.line.serial s).spelling := by
    unfold releaseDirect
    rw [setPosition_spelling]
    show (startPrinting s.line.serial (appendJob (returnJob s) s)).spelling = _
    unfold startPrinting; dsimp only; rw [appendJob_spelling]
  rw [h]
  exact ⟨rfl, fun q => by cases q <;> rfl⟩

/-- R144: a Return leaves the fragments of the claim. -/
theorem return_resolved {m : PetalMap} {k : Stroke} (h : justClaimed p c) (hk : k.kind = .function .carriageReturn) :
    resolvedIn p k c (composeLine p m k c) ∧ (p = .console → resolvedIn p k c (composeDirect m k c)) := by
  constructor
  · have he : composeLine p m k c = endByReturn c := by unfold composeLine; rw [hk]
    rw [he, endByReturn_first h]
    exact .of_quiet (fun _ => rfl) rfl h.cells fun _ => rfl
  · rintro rfl
    rw [composeDirect_return h hk]
    obtain ⟨h1, h2⟩ := releaseDirect_spelling c
    exact .of_quiet h2 h1 rfl fun hn => absurd rfl hn

end

/-! ### The claim and the stroke that makes it -/

theorem claimed.justClaimed {p : Port} {s c : State} (h : claimed p s c) (ha : s.lift.away = false) :
    Machine.justClaimed p c :=
  ⟨by rw [h.line]; rfl, by rw [h.line]; rfl, by rw [h.line]; rfl, by rw [h.line]; rfl, by rw [h.line]; rfl, h.fragments,
    by rw [show c.lift = s.lift from h.frame.same .lift]; exact ha⟩

/-- R144: the fragments when a claim's step ends. -/
theorem fragmentsResolved_of {p : Port} {k : Stroke} {rest : List Stroke} {s c r : State}
    (h : claimed p (takenStroke p rest s) c) (hr : resolvedIn p k c r) : fragmentsResolved p k s (endStep r) := by
  have he := hr.ended
  have hnone (q : Port) : (endStep r).spelling.fragment q = none := (he.fragments q).trans (h.fragments q)
  have hj : c.line.joined = s.spelling.fragment p := by rw [h.line]; rfl
  have ho : c.options = s.options := h.frame.same .options
  have hst : c.store = s.store := h.frame.same .store
  refine ⟨hnone .console, hnone .link, fun f hf => ?_, fun hp hk => ?_, fun f hf hc hk hon => ?_⟩
  · have h1 := (otherResolved_checked (p := p) (s := claiming p (takenStroke p rest s)) hf).stands (.of_eq h.queue)
    exact (h1.stands he.stand).of_before rfl rfl rfl id
  · rw [he.kept hp (ho ▸ hk), hj]
  · obtain ⟨h1, h2⟩ := he.alone f (hj.trans hf) hc hk (ho ▸ hon)
    refine ⟨h1, h2.of_before ho h.userWords hst fun hq => ?_⟩
    have hlen := otherResolved_length p (claiming p (takenStroke p rest s))
    rw [← h.queue] at hlen
    have hlen' : c.spelling.queue.length
        ≤ s.spelling.queue.length + if (s.spelling.fragment (Port.other p)).isSome = true then 1 else 0 := hlen
    split at hq <;> rename_i hsome
    · rw [if_pos hsome] at hlen'; omega
    · rw [if_neg hsome] at hlen'; omega

/-- R26: a stroke that claims a Free line is composed on the claimed line. -/
theorem composeTaken_claims {p : Port} {m : PetalMap} {k : Stroke} {s : State} (hp : s.line.phase = .free)
    (he : k.edits = false) : composeTaken p m k s =
      if claimMode p s = .direct then composeDirect m k (claim p s) else composeLine p m k (claim p s) := by
  have hmode : (claim p s).line.mode = claimMode p s := by rw [(claim_claimed p s).line]; rfl
  unfold composeTaken
  rw [if_neg (by simp [he])]
  dsimp only
  rw [if_pos hp, hmode]
  split
  · rfl
  · rw [if_neg (by rw [claim_phase]; decide)]

/-- R26: a stroke that claims none is refused. -/
theorem composeTaken_noLine {p : Port} {m : PetalMap} {k : Stroke} {s : State} (hp : s.line.phase = .free)
    (he : k.edits = true) : composeTaken p m k s = refuseStroke p .noLine s := by
  unfold composeTaken; rw [if_pos (by simp [hp, he])]

/-! ### The port that is served (R24, R25) -/

theorem portToServe_link {s : State} (h : canTake .link s = true)
    (hc : canTake .console s = false ∨ s.composer.lastHolder = some .console) : portToServe s = some .link := by
  unfold portToServe
  rw [h]
  rcases hc with hc | hc
  · rw [hc]
  · cases canTake .console s
    · rfl
    · dsimp only; rw [if_pos hc]

theorem portToServe_console {s : State} (h : canTake .console s = true)
    (hc : canTake .link s = false ∨ s.composer.lastHolder ≠ some .console) : portToServe s = some .console := by
  unfold portToServe
  rw [h]
  rcases hc with hc | hc
  · rw [hc]
  · cases canTake .link s
    · rfl
    · dsimp only; rw [if_neg hc]

theorem portToServe_none {s : State} (hc : canTake .console s = false) (hl : canTake .link s = false) :
    portToServe s = none := by unfold portToServe; rw [hc, hl]

/-- R25: a head stroke that can be taken on a Free line. -/
theorem canTake_free {p : Port} {s : State} (hp : s.line.phase = .free) (ha : s.lift.away = false)
    (hr : s.composer.ring p ≠ []) (hm : s.engine.petalMap ≠ none)
    (hd : claimMode p s = .line ∨ (s.engine.queue.length < 4 ∧ s.engine.state ≠ .fault)) : canTake p s = true := by
  by_contra hno
  rw [Bool.not_eq_true, ← headWaits_iff] at hno
  rcases hno with h | h | h | h | ⟨h, -⟩ | ⟨h, -⟩ | ⟨h, h2⟩
  · exact hr h
  · exact hm h
  · rw [hp] at h; cases h
  · rw [hp] at h; cases h
  · rw [hp] at h; rcases h with h | h <;> cases h
  · rw [ha] at h; cases h
  · rw [if_pos hp] at h
    obtain ⟨rfl, hmode⟩ := h
    rcases hd with hd | ⟨hq, hf⟩
    · rw [show claimMode .console s = s.options.entryMode from rfl, hmode] at hd; cases hd
    · rcases h2 with h2 | h2
      · omega
      · exact hf h2

theorem composeStep_waits {s : State} (h : portToServe s = none) : exec .composeStroke s = .next s := by
  show Host.Outcome.next (composeStep s) = _
  unfold composeStep; rw [h]

/-! ### The step of a claim -/

section
variable {p : Port} {m : PetalMap} {k : Stroke} {c : State}

/-- What a stroke keeps of the rings and the serial. -/
theorem composeLine_claimed_composer (h : justClaimed p c) (hm : composing p m c) (he : k.edits = false) :
    (composeLine p m k c).composer.consoleRing = c.composer.consoleRing
      ∧ (composeLine p m k c).composer.linkRing = c.composer.linkRing
      ∧ (composeLine p m k c).composer.nextSerial = c.composer.nextSerial
      ∧ (composeLine p m k c).composer.lastHolder = c.composer.lastHolder := by
  by_cases hk : k.kind = .function .carriageReturn
  · have hr : composeLine p m k c = endByReturn c := by unfold composeLine; rw [hk]
    rw [hr, endByReturn_first h]
    exact ⟨rfl, rfl, rfl, rfl⟩
  · exact (composeLine_first h hm he hk).composer

theorem composeLine_claimed_resolved (h : justClaimed p c) (hm : composing p m c) (he : k.edits = false) :
    resolvedIn p k c (composeLine p m k c) := by
  by_cases hk : k.kind = .function .carriageReturn
  · exact (return_resolved h hk).1
  · exact (composeLine_first h hm he hk).resolved

/-- R26, R37: the line that the link's first stroke leaves at the end of its step. -/
theorem link_claimed_line (h : justClaimed .link c) (hm : composing .link m c) (he : k.edits = false) :
    (endStep (composeLine .link m k c)).line.holder = some .link
      ∧ (endStep (composeLine .link m k c)).line.serial = c.line.serial
      ∧ (endStep (composeLine .link m k c)).line.mode = .line ∧ (endStep (composeLine .link m k c)).line.phase ≠ .free := by
  by_cases hk : k.kind = .function .carriageReturn
  · have hr : composeLine .link m k c = endByReturn c := by unfold composeLine; rw [hk]
    have hs : spellHoldApplies c = false := by unfold spellHoldApplies; rw [h.holder]; rfl
    have hl : (composeLine .link m k c).line = { c.line with endCause := some .carriageReturn, phase := .waiting } := by
      rw [hr, endByReturn_first h, hs]; rfl
    have hw : (composeLine .link m k c).line.phase = .waiting := by rw [hl]
    rw [endStep_line (by rw [hw]; decide)]
    refine ⟨?_, ?_, ?_, by rw [hw]; decide⟩ <;> rw [hl]
    · exact h.holder
    · exact hm.mode
  · obtain ⟨h1, h2, h3, h4⟩ := (composeLine_first h hm he hk).line
    rw [endStep_line (by rw [h4, h.phase]; decide), h1, h2, h3, h4, h.phase]
    exact ⟨h.holder, rfl, hm.mode, by decide⟩

theorem composeDirect_claimed_composer (h : justClaimed .console c) :
    (composeDirect m k c).composer.consoleRing = c.composer.consoleRing
      ∧ (composeDirect m k c).composer.linkRing = c.composer.linkRing
      ∧ (composeDirect m k c).composer.nextSerial = c.composer.nextSerial := by
  by_cases hk : k.kind = .function .carriageReturn
  · rw [composeDirect_return h hk, releaseDirect_composer]
    exact ⟨rfl, rfl, rfl⟩
  · obtain ⟨h1, h2, h3, -⟩ := (composeDirect_first (m := m) h hk).composer
    exact ⟨h1, h2, h3⟩

theorem composeDirect_claimed_resolved (h : justClaimed .console c) : resolvedIn .console k c (composeDirect m k c) := by
  by_cases hk : k.kind = .function .carriageReturn
  · exact (return_resolved h hk).2 rfl
  · exact (composeDirect_first h hk).resolved

end

/-- R24, R26: a stroke that claims no line is refused with NoLine, and all but its ring, the refusal and the tone stands. -/
theorem noLine_step {p : Port} {rest : List Stroke} {s : State} (hp : s.line.phase = .free) :
    (endStep (refuseStroke p .noLine (takenStroke p rest s))).line = s.line
      ∧ (endStep (refuseStroke p .noLine (takenStroke p rest s))).engine = s.engine
      ∧ (∀ q, (endStep (refuseStroke p .noLine (takenStroke p rest s))).spelling.fragment q = s.spelling.fragment q)
      ∧ (endStep (refuseStroke p .noLine (takenStroke p rest s))).composer
        = (refuseStroke p .noLine (takenStroke p rest s)).composer
      ∧ (endStep (refuseStroke p .noLine (takenStroke p rest s))).tones = s.tones.request .refuse := by
  have hf : (takenStroke p rest s).line.phase ≠ .checking := by show s.line.phase ≠ _; rw [hp]; decide
  obtain ⟨h1, h2, h3, h4⟩ := endStep_refused (p := p) (code := .noLine) hf
  exact ⟨h3, h4, fun q => endStep_fragment _ q, h1, h2⟩

/-- R20, R26: what a claim by the console comes to, and what stands of it after any stroke but a Return. -/
def claimedByConsole (k : Stroke) (rest : List Stroke) (s t : State) : Prop :=
  (t.composer.nextSerial = (if 65535 ≤ s.composer.nextSerial then 1 else s.composer.nextSerial + 1)
    ∧ t.composer.consoleRing = rest ∧ t.composer.linkRing = s.composer.linkRing ∧ fragmentsResolved .console k s t)
  ∧ (k.kind ≠ .function .carriageReturn →
    t.line.holder = some .console ∧ t.line.serial = s.composer.nextSerial ∧ t.line.mode = s.options.entryMode
      ∧ t.line.phase = .composing ∧ t.composer.lastHolder = s.composer.lastHolder)

/-- Settles O48: the port served on a Free line, the refusal there, the claim with its fragments, and the strokes that
wait. -/
theorem claimOrRefusalOnAFreeLine : Obligations.ClaimOrRefusalOnAFreeLine := by
  unfold Obligations.ClaimOrRefusalOnAFreeLine
  refine ⟨fun k rest m s hp ha hr hm hother => ?link, fun k rest m s hp ha hr hm hother hd => ?console,
    fun s hc hl => composeStep_waits (portToServe_none ((headWaits_iff _ s).1 hc) ((headWaits_iff _ s).1 hl))⟩
  case link =>
    have htake := canTake_free (p := .link) hp ha (by rw [show s.composer.ring .link = _ from hr]; simp) (by rw [hm]; simp)
      (.inl rfl)
    have hserve := portToServe_link htake (hother.imp_left (headWaits_iff _ s).1)
    set u := takenStroke .link rest s with hu
    have hup : u.line.phase = .free := hp
    refine ⟨_, exec_composeStroke hserve hr hm, ?_⟩
    rw [← hu]
    cases he : k.edits with
    | true =>
      rw [composeTaken_noLine hup he]
      obtain ⟨h1, h2, h3, h4, h5⟩ := noLine_step (p := .link) (rest := rest) hp
      refine ⟨fun _ => ⟨h1, h2, h3, h4.trans rfl, h5⟩, (fun h => nomatch h), ?_⟩
      exact ((takenStroke_frame .link rest s).then (refuseStroke_frame .link .noLine u) (by decide)
        (c := [.composer, .tones]) (by decide)).then (endStep_frame _) (by decide) (by decide)
    | false =>
      rw [composeTaken_claims hup he, if_neg (by show EntryMode.line ≠ _; decide)]
      have hc := claim_claimed .link u
      have hj := hc.justClaimed ha
      have hcm : composing .link m (claim .link u) :=
        ⟨hj.phase, hj.holder, by rw [hc.line]; rfl, (congrArg Engine.petalMap (hc.frame.same .engine)).trans hm⟩
      obtain ⟨x, d, hcomp⟩ := hc.composer
      obtain ⟨h1, h2, h3, h4⟩ := link_claimed_line hj hcm he
      obtain ⟨r1, r2, r3, r4⟩ := composeLine_claimed_composer hj hcm he
      have hframe : changesOnly [.composer, .line, .spelling, .tones, .holdTimer] s (composeLine .link m k (claim .link u)) :=
        ((takenStroke_frame .link rest s).then hc.frame (by decide)
          (c := [.composer, .line, .spelling, .tones, .holdTimer]) (by decide)).trans
          ((composeLine_frame .link m k _).mono (by decide))
      have hend := endStep_frame (composeLine .link m k (claim .link u))
      have htc : (endStep (composeLine .link m k (claim .link u))).composer
          = (composeLine .link m k (claim .link u)).composer := hend.same .composer
      refine ⟨(fun h => nomatch h), fun _ => ⟨h1, ?_, h3, h4, ?_, ?_, ?_, ?_, ?_, ?_⟩, ?_⟩
      · rw [h2, hc.line]; rfl
      · rw [htc, r3, hcomp]; rfl
      · rw [htc, r2, hcomp]; rfl
      · rw [htc, r1, hcomp]; rfl
      · rw [htc, r4, hcomp]; rfl
      · exact (hend.same .engine).trans (hframe.same .engine)
      · exact fragmentsResolved_of hc (composeLine_claimed_resolved hj hcm he)
      · exact hframe.then hend (by decide) (by decide)
  case console =>
    have htake := canTake_free (p := .console) hp ha (by rw [show s.composer.ring .console = _ from hr]; simp)
      (by rw [hm]; simp) hd
    have hserve := portToServe_console htake (hother.imp_left fun h => (headWaits_iff _ s).1 (.inl h))
    set u := takenStroke .console rest s with hu
    have hup : u.line.phase = .free := hp
    have hframe : changesOnly composeParts s (composeTaken .console m k u) :=
      (takenStroke_frame .console rest s).then (composeTaken_frame _ _ _ _) (by decide) (by decide)
    refine ⟨_, exec_composeStroke hserve hr hm, ?_⟩
    rw [← hu]
    have hend := hframe.then (endStep_frame _) (c := [.composer, .engine, .line, .spelling, .store, .console, .display,
      .tones, .holdTimer, .restTimer]) (by decide) (by decide)
    cases he : k.edits with
    | true =>
      rw [composeTaken_noLine hup he] at hend ⊢
      obtain ⟨h1, h2, h3, h4, h5⟩ := noLine_step (p := .console) (rest := rest) hp
      exact ⟨fun _ => ⟨h1, h2, h3, h4.trans rfl, h5⟩, (fun h => nomatch h), (fun h => nomatch h), hend⟩
    | false =>
      have hc := claim_claimed .console u
      have hj := hc.justClaimed ha
      obtain ⟨x, d, hcomp⟩ := hc.composer
      have hmode : (claim .console u).line.mode = s.options.entryMode := by rw [hc.line]; rfl
      have hresult (r : State) (hr : composeTaken .console m k u = r)
          (hrings : r.composer.consoleRing = (claim .console u).composer.consoleRing
            ∧ r.composer.linkRing = (claim .console u).composer.linkRing
            ∧ r.composer.nextSerial = (claim .console u).composer.nextSerial)
          (hres : resolvedIn .console k (claim .console u) r)
          (hfirst : k.kind ≠ .function .carriageReturn → firstStroke .console k (claim .console u) r) :
          claimedByConsole k rest s (endStep r) := by
        have htc : (endStep r).composer = r.composer := (endStep_frame r).same .composer
        obtain ⟨r1, r2, r3⟩ := hrings
        refine ⟨⟨?_, ?_, ?_, fragmentsResolved_of hc hres⟩, fun hk => ?_⟩
        · rw [htc, r3, hcomp]; rfl
        · rw [htc, r1, hcomp]; rfl
        · rw [htc, r2, hcomp]; rfl
        · obtain ⟨l1, l2, l3, l4⟩ := (hfirst hk).line
          rw [endStep_line (by rw [l4, hj.phase]; decide), l1, l2, l3, l4, htc, (hfirst hk).composer.2.2.2, hcomp]
          exact ⟨hj.holder, by rw [hc.line]; rfl, hmode, hj.phase, rfl⟩
      have hclaimed : claimedByConsole k rest s (endStep (composeTaken .console m k u)) := by
        cases hem : s.options.entryMode with
        | direct =>
          refine hresult _ rfl ?_ ?_ fun hk => ?_ <;>
            rw [composeTaken_claims hup he, if_pos (show claimMode .console u = .direct from hem)]
          · exact composeDirect_claimed_composer hj
          · exact composeDirect_claimed_resolved hj
          · exact composeDirect_first hj hk
        | line =>
          have hcm : composing .console m (claim .console u) :=
            ⟨hj.phase, hj.holder, hmode.trans hem, (congrArg Engine.petalMap (hc.frame.same .engine)).trans hm⟩
          have hn : claimMode .console u ≠ .direct := by show s.options.entryMode ≠ _; rw [hem]; decide
          refine hresult _ rfl ?_ ?_ fun hk => ?_ <;> rw [composeTaken_claims hup he, if_neg hn]
          · obtain ⟨r1, r2, r3, -⟩ := composeLine_claimed_composer hj hcm he
            exact ⟨r1, r2, r3⟩
          · exact composeLine_claimed_resolved hj hcm he
          · exact composeLine_first hj hcm he hk
      exact ⟨(fun h => nomatch h), fun _ => hclaimed.1, fun _ => hclaimed.2, hend⟩

end Sys2Proof.Machine

/-! SUPPORT. Justification (R57, R58): the gaps of a line, the additions that stand at them, and what they do to the
layout. -/

namespace Sys2Proof.Machine

/-! ### The gaps (R57) -/

/-- R57: the justified segment starts at or before `j` exactly when no Tab stands from `j` on. -/
theorem afterLastTab_le (cells : List Cell) (j : Nat) :
    afterLastTab cells ≤ j ↔ ∀ c ∈ cells.drop j, c.kind ≠ .tab := by
  set front := (cells.reverse.dropWhile (·.kind != .tab)).reverse with hfront
  set back := (cells.reverse.takeWhile (·.kind != .tab)).reverse with hback
  have hcells : cells = front ++ back := by
    rw [hfront, hback, ← List.reverse_append, List.takeWhile_append_dropWhile, List.reverse_reverse]
  have hlen : afterLastTab cells = front.length := by
    have h1 : (cells.reverse.takeWhile (·.kind != .tab)).length = back.length := by rw [hback, List.length_reverse]
    have h2 := congrArg List.length hcells
    rw [List.length_append] at h2
    unfold afterLastTab
    rw [h1]; omega
  have hplain : ∀ c ∈ back, c.kind ≠ .tab := fun c hc => by
    have := List.mem_takeWhile_imp (List.mem_reverse.1 hc)
    simpa using this
  rw [hlen]
  constructor
  · intro h c hc
    rw [hcells, List.drop_append, List.drop_eq_nil_of_le h, List.nil_append] at hc
    exact hplain c (List.mem_of_mem_drop hc)
  · intro h
    by_contra hlt
    rw [Nat.not_le] at hlt
    have hne : front ≠ [] := by rintro e; rw [e] at hlt; simp at hlt
    have hlast : front.getLast hne ∈ front.drop j := by
      have : front.getLast hne = (front.drop j).getLast (by simp; omega) := by rw [List.getLast_drop]
      rw [this]; exact List.getLast_mem _
    have htab : (front.getLast hne).kind = .tab := by
      have hd : (cells.reverse.dropWhile (·.kind != .tab)).head? = some (front.getLast hne) := by
        rw [← List.getLast?_reverse, ← hfront, List.getLast?_eq_some_getLast hne]
      have := dropWhile_head hd
      simpa using this
    refine h (front.getLast hne) ?_ htab
    rw [hcells, List.drop_append]
    exact List.mem_append_left _ hlast

/-- R57: the first Space of a run with a Character before it and one after it, behind the last Tab. -/
theorem mem_gapStarts {cells : List Cell} {i : Nat} (hi : i < cells.length) : i ∈ gapStarts cells ↔
    0 < i ∧ (cells[i]?.map (·.kind)) = some .space ∧ (cells[i - 1]?.map (·.kind)) = some .character
      ∧ (∀ c ∈ cells.drop i, c.kind ≠ .tab) ∧ ∃ c ∈ cells.drop i, c.kind = .character := by
  have hkind (j : Nat) (k : CellKind) : ((cells[j]?).map (·.kind == k)).getD false = true ↔ (cells[j]?.map (·.kind)) = some k := by
    cases cells[j]? <;> simp
  have hdropI : cells.drop i = cells[i] :: cells.drop (i + 1) := List.drop_eq_getElem_cons hi
  unfold gapStarts
  dsimp only
  rw [List.mem_filter, List.mem_range]
  simp only [Bool.and_eq_true, decide_eq_true_eq, hkind, List.any_eq_true, beq_iff_eq]
  constructor
  · rintro ⟨-, ⟨⟨h0, h1⟩, h2⟩, c, hc, h3⟩
    refine ⟨by omega, h1, h2, (afterLastTab_le cells i).1 (by omega), c, ?_, h3⟩
    rw [hdropI]; exact List.mem_cons_of_mem _ hc
  · rintro ⟨h0, h1, h2, h3, c, hc, h4⟩
    refine ⟨hi, ⟨⟨?_, h1⟩, h2⟩, c, ?_, h4⟩
    · have hprev : i - 1 < cells.length := by omega
      have hdrop : cells.drop (i - 1) = cells[i - 1] :: cells.drop i := by
        rw [List.drop_eq_getElem_cons hprev, show i - 1 + 1 = i by omega]
      have : afterLastTab cells ≤ i - 1 := by
        rw [afterLastTab_le, hdrop]
        intro d hd
        rcases List.mem_cons.1 hd with rfl | hd
        · rw [List.getElem?_eq_getElem hprev] at h2
          have hk : cells[i - 1].kind = .character := Option.some.inj h2
          rw [hk]; decide
        · exact h3 d hd
      omega
    · rw [hdropI] at hc
      rcases List.mem_cons.1 hc with rfl | hc
      · rw [List.getElem?_eq_getElem hi] at h1
        have hk : cells[i].kind = .space := Option.some.inj h1
        rw [hk] at h4; cases h4
      · exact hc

theorem gapStarts_lt {cells : List Cell} {i : Nat} (h : i ∈ gapStarts cells) : i < cells.length :=
  List.mem_range.1 (List.mem_filter.1 h).1

theorem gapStarts_ordered (cells : List Cell) : (gapStarts cells).Pairwise (· < ·) :=
  (List.pairwise_lt_range).filter _

/-- R57: the gaps depend on the kinds of the cells alone. -/
theorem gapStarts_congr {l l' : List Cell} (h : l.map (·.kind) = l'.map (·.kind)) : gapStarts l = gapStarts l' := by
  have hlen : l.length = l'.length := by simpa using congrArg List.length h
  have hget (j : Nat) : l[j]?.map (·.kind) = l'[j]?.map (·.kind) := by
    rw [← List.getElem?_map, ← List.getElem?_map, h]
  have hdrop (j : Nat) (P : CellKind → Prop) : (∀ c ∈ l.drop j, P c.kind) ↔ ∀ c ∈ l'.drop j, P c.kind := by
    have hd : (l.drop j).map (·.kind) = (l'.drop j).map (·.kind) := by rw [List.map_drop, List.map_drop, h]
    rw [← List.forall_mem_map (f := fun c : Cell => c.kind) (P := P), hd, List.forall_mem_map]
  have hex (j : Nat) : (∃ c ∈ l.drop j, c.kind = .character) ↔ ∃ c ∈ l'.drop j, c.kind = .character := by
    have := hdrop j (· ≠ .character)
    constructor <;> rintro ⟨c, hc, hk⟩ <;> by_contra hno <;> push Not at hno
    · exact this.2 hno c hc hk
    · exact this.1 hno c hc hk
  have hmem (i : Nat) : i ∈ gapStarts l ↔ i ∈ gapStarts l' := by
    by_cases hi : i < l.length
    · rw [mem_gapStarts hi, mem_gapStarts (hlen ▸ hi), hget, hget, hdrop i (· ≠ .tab), hex]
    · exact ⟨fun h => absurd (gapStarts_lt h) hi, fun h => absurd (hlen ▸ gapStarts_lt h) hi⟩
  refine List.Perm.eq_of_pairwise (le := (· < ·)) (fun a b _ _ h1 h2 => absurd h1 (Nat.lt_asymm h2)) (gapStarts_ordered l) (gapStarts_ordered l') ?_
  exact (List.perm_ext_iff_of_nodup ((gapStarts_ordered l).imp Nat.ne_of_lt) ((gapStarts_ordered l').imp Nat.ne_of_lt)).2 hmem

theorem kinds_of_content {l l' : List Cell} (h : l.map (·.content) = l'.map (·.content)) : l.map (·.kind) = l'.map (·.kind) := by
  have := congrArg (List.map Prod.fst) h
  rwa [List.map_map, List.map_map] at this

/-- R57: laying a line out moves none of its gaps. -/
theorem gapStarts_layFrom (f : FormatRecord) (m : PetalMap) (x : Nat) (cells : List Cell) :
    gapStarts (layFrom f m x cells) = gapStarts cells :=
  gapStarts_congr (kinds_of_content (layFrom_content f m x cells))

/-! ### The additions (R58) -/

/-- R58: the addition of the `j`th gap. -/
def gapAddition (g a r j : Nat) : Nat := if g - r ≤ j then a + 1 else a

theorem gapAddition_mono (g a r : Nat) {i j : Nat} (h : i ≤ j) :
    gapAddition g a r i ≤ gapAddition g a r j ∧ gapAddition g a r j ≤ gapAddition g a r i + 1 := by
  unfold gapAddition; split <;> split <;> omega

theorem sum_gapAddition (g a r k : Nat) :
    ((List.range k).map (gapAddition g a r)).sum = k * a + (k - (g - r)) := by
  induction k with
  | zero => simp
  | succ k ih =>
    rw [List.range_succ, List.map_append, List.sum_append, ih, Nat.succ_mul, List.map_singleton, List.sum_singleton]
    unfold gapAddition; split <;> omega

section
variable {n : Nat} {gaps : List Nat} {a r : Nat}

theorem additions_length : (additions n gaps a r).length = n := by unfold additions; simp

theorem idxOf?_mem {i : Nat} (h : i ∈ gaps) : gaps.idxOf? i = some (gaps.idxOf i) := by
  obtain ⟨j, hj⟩ := Option.isSome_iff_exists.1 (List.isSome_idxOf?.2 h)
  rw [List.idxOf_eq_getD_idxOf?, hj]; rfl

theorem additions_at {i : Nat} (hi : i < n) : (additions n gaps a r)[i]? =
    some (if i ∈ gaps then gapAddition gaps.length a r (gaps.idxOf i) else 0) := by
  unfold additions
  rw [List.getElem?_map, List.getElem?_range hi]
  by_cases h : i ∈ gaps
  · simp [idxOf?_mem h, if_pos h, gapAddition]
  · simp [List.idxOf?_eq_none_iff.2 h, if_neg h]

theorem additions_getD {i : Nat} (hi : i < n) (h : i ∈ gaps) :
    (additions n gaps a r).getD i 0 = gapAddition gaps.length a r (gaps.idxOf i) := by
  rw [List.getD_eq_getElem?_getD, additions_at hi, if_pos h]; rfl

/-- R58: off the gaps nothing is added. -/
theorem additions_off {i : Nat} (hi : i < n) (h : i ∉ gaps) : (additions n gaps a r)[i]? = some 0 := by
  rw [additions_at hi, if_neg h]

variable (hord : gaps.Pairwise (· < ·)) (hlt : ∀ i ∈ gaps, i < n)
include hord

/-- The gaps are counted from the left. -/
theorem idxOf_mono {i j : Nat} (hi : i ∈ gaps) (hj : j ∈ gaps) (h : i < j) : gaps.idxOf i ≤ gaps.idxOf j := by
  by_contra hgt
  rw [Nat.not_le] at hgt
  have hlen := List.idxOf_lt_length_of_mem hi
  have := List.pairwise_iff_getElem.1 hord _ _ (List.idxOf_lt_length_of_mem hj) hlen hgt
  rw [List.getElem_idxOf, List.getElem_idxOf] at this
  omega

include hlt

/-- R58: the additions differ by at most one, the larger ones rightmost. -/
theorem additions_mono {i j : Nat} (hi : i ∈ gaps) (hj : j ∈ gaps) (h : i < j) :
    (additions n gaps a r).getD i 0 ≤ (additions n gaps a r).getD j 0
      ∧ (additions n gaps a r).getD j 0 ≤ (additions n gaps a r).getD i 0 + 1 := by
  rw [additions_getD (hlt i hi) hi, additions_getD (hlt j hj) hj]
  exact gapAddition_mono _ _ _ (idxOf_mono hord hi hj h)

theorem gaps_of_range : (List.range n).filter (· ∈ gaps) = gaps := by
  refine List.Perm.eq_of_pairwise (le := (· < ·)) (fun x y _ _ h1 h2 => absurd h1 (Nat.lt_asymm h2))
    (List.pairwise_lt_range.filter _) hord ?_
  refine (List.perm_ext_iff_of_nodup (List.nodup_range.filter _) (hord.imp Nat.ne_of_lt)).2 fun i => ?_
  rw [List.mem_filter, List.mem_range, decide_eq_true_eq]
  exact ⟨And.right, fun h => ⟨hlt i h, h⟩⟩

theorem sum_additions : (additions n gaps a r).sum = ((List.range gaps.length).map (gapAddition gaps.length a r)).sum := by
  have hoff (l : List Nat) (v : Nat → Nat) :
      (l.map fun i => if i ∈ gaps then v i else 0).sum = ((l.filter (· ∈ gaps)).map v).sum := by
    induction l with
    | nil => rfl
    | cons i rest ih => by_cases h : i ∈ gaps <;> simp [h, ih]
  have hext : additions n gaps a r
      = (List.range n).map fun i => if i ∈ gaps then gapAddition gaps.length a r (gaps.idxOf i) else 0 := by
    refine List.ext_getElem? fun i => ?_
    by_cases hi : i < n
    · rw [additions_at hi, List.getElem?_map, List.getElem?_range hi]; rfl
    · rw [List.getElem?_eq_none (by rw [additions_length]; omega), List.getElem?_eq_none (by simp; omega)]
  have hidx : gaps.map (fun i => gapAddition gaps.length a r (gaps.idxOf i))
      = (List.range gaps.length).map (gapAddition gaps.length a r) := by
    refine List.ext_getElem (by simp) fun j h1 h2 => ?_
    simp only [List.getElem_map, List.getElem_range]
    rw [List.Nodup.idxOf_getElem (hord.imp Nat.ne_of_lt)]
  rw [hext, hoff, gaps_of_range hord hlt, hidx]

/-- R58: the additions sum to the shortfall. -/
theorem sum_additions_divided (hne : gaps ≠ []) (short : Nat) :
    (additions n gaps (short / gaps.length) (short % gaps.length)).sum = short := by
  have hpos : 0 < gaps.length := List.length_pos_of_ne_nil hne
  have hmod := Nat.mod_lt short hpos
  rw [sum_additions hord hlt, sum_gapAddition, Nat.sub_sub_self hmod.le]
  exact Nat.div_add_mod short gaps.length

end

/-! ### What additions do to a layout (R54, R58) -/

/-- Additions stand only at Spaces with no Tab and a Character behind them. -/
def spreads : List (Cell × Nat) → Prop
  | [] => True
  | (c, e) :: rest => (0 < e → c.kind = .space ∧ (∀ d ∈ rest.map (·.1), d.kind ≠ .tab) ∧ ∃ d ∈ rest.map (·.1), d.kind = .character)
      ∧ spreads rest

theorem spreads_of {l : List (Cell × Nat)} (h : ∀ i (hi : i < l.length), 0 < l[i].2 → l[i].1.kind = .space
    ∧ (∀ d ∈ (l.map (·.1)).drop (i + 1), d.kind ≠ .tab) ∧ ∃ d ∈ (l.map (·.1)).drop (i + 1), d.kind = .character) :
    spreads l := by
  induction l with
  | nil => trivial
  | cons c rest ih =>
    refine ⟨h 0 (Nat.zero_lt_succ _), ih fun i hi he => ?_⟩
    exact h (i + 1) (Nat.succ_lt_succ hi) he

/-- R57, R58: the additions of a line stand at its gaps. -/
theorem spreads_additions (cells : List Cell) (a r : Nat) :
    spreads (cells.zip (additions cells.length (gapStarts cells) a r)) := by
  have hmap : (cells.zip (additions cells.length (gapStarts cells) a r)).map (·.1) = cells :=
    List.map_fst_zip (by rw [additions_length])
  refine spreads_of fun i hi he => ?_
  rw [hmap]
  rw [List.length_zip, additions_length, Nat.min_self] at hi
  have hgap : i ∈ gapStarts cells := by
    by_contra hoff
    have := additions_off (a := a) (r := r) hi hoff
    rw [List.getElem?_eq_getElem (by rwa [additions_length])] at this
    rw [List.getElem_zip] at he
    rw [Option.some.inj this] at he
    exact absurd he (Nat.lt_irrefl 0)
  obtain ⟨-, hspace, -, htab, hchar⟩ := (mem_gapStarts hi).1 hgap
  rw [List.drop_eq_getElem_cons hi] at htab hchar
  have hk : cells[i].kind = .space := by
    rw [List.getElem?_eq_getElem hi] at hspace; exact Option.some.inj hspace
  rw [List.getElem_zip]
  refine ⟨hk, fun d hd => htab d (List.mem_cons_of_mem _ hd), ?_⟩
  obtain ⟨d, hd, hchar⟩ := hchar
  rcases List.mem_cons.1 hd with rfl | hd
  · rw [hk] at hchar; cases hchar
  · exact ⟨d, hd, hchar⟩

/-- The same cells without additions. -/
def unspread (l : List (Cell × Nat)) : List (Cell × Nat) := l.map fun c => (c.1, 0)

theorem layFrom_eq (f : FormatRecord) (m : PetalMap) (x : Nat) (l : List (Cell × Nat)) :
    layFrom f m x (l.map (·.1)) = layWith f m x (unspread l) := by
  unfold layFrom unspread; rw [List.map_map]; rfl

theorem layWith_kinds (f : FormatRecord) (m : PetalMap) (x : Nat) (l : List (Cell × Nat)) :
    (layWith f m x l).map (·.kind) = l.map (·.1.kind) := by
  have := congrArg (List.map Prod.fst) (layWith_content f m x l)
  rwa [List.map_map, List.map_map] at this

/-- R57: the right edge of the last Character, cell by cell. -/
theorem lastCharacterEdge_cons (c : Cell) (rest : List Cell) : lastCharacterEdge (c :: rest) =
    if ∃ d ∈ rest, d.kind = .character then lastCharacterEdge rest else if c.kind = .character then c.rightEdge else 0 := by
  unfold lastCharacterEdge
  rw [List.reverse_cons, List.find?_append]
  cases hf : rest.reverse.find? (·.kind == .character) with
  | some d =>
    have hd := List.find?_some hf
    have hmem := List.mem_reverse.1 (List.mem_of_find?_eq_some hf)
    rw [if_pos ⟨d, hmem, beq_iff_eq.1 hd⟩]; rfl
  | none =>
    have hno : ¬ ∃ d ∈ rest, d.kind = .character := fun ⟨d, hd, hk⟩ => by
      have := List.find?_eq_none.1 hf d (List.mem_reverse.2 hd)
      rw [hk] at this; exact this rfl
    rw [if_neg hno]
    by_cases hk : c.kind = .character <;> simp [hk]

theorem exists_kind_map {α : Type} {l : List α} {k : CellKind} (g : α → CellKind) :
    (∃ d ∈ l, g d = k) ↔ k ∈ l.map g := by rw [List.mem_map]

theorem exists_kind_layWith (f : FormatRecord) (m : PetalMap) (x : Nat) (l : List (Cell × Nat)) (k : CellKind) :
    (∃ d ∈ layWith f m x l, d.kind = k) ↔ ∃ d ∈ l.map (·.1), d.kind = k := by
  rw [exists_kind_map, exists_kind_map, layWith_kinds, List.map_map]; rfl

theorem unspread_fst (l : List (Cell × Nat)) : (unspread l).map (·.1) = l.map (·.1) := by
  unfold unspread; rw [List.map_map]; rfl

/-- A cell is as wide at one place as at another, with its addition, when it is no Tab. -/
theorem cellWidth_moved {f : FormatRecord} {m : PetalMap} {x x' : Nat} {c : Cell} {e : Nat} (he : 0 < e → c.kind = .space)
    (hx : x = x' ∨ c.kind ≠ .tab) : cellWidth f m x' c e = cellWidth f m x c 0 + e := by
  unfold cellWidth
  cases hk : c.kind with
  | space => simp only; omega
  | character =>
    have : e = 0 := by
      by_contra h0; have := he (Nat.pos_of_ne_zero h0); rw [hk] at this; cases this
    simp only; omega
  | tab =>
    have : e = 0 := by
      by_contra h0; have := he (Nat.pos_of_ne_zero h0); rw [hk] at this; cases this
    have hxx : x = x' := hx.resolve_right fun h => h hk
    subst hxx
    simp only; omega

/-- R58: a line with additions ends where it ended without them, and their sum further right. -/
theorem spread_layout {f : FormatRecord} {m : PetalMap} {l : List (Cell × Nat)} (h : spreads l) {x x' : Nat} (hle : x ≤ x')
    (hx : x = x' ∨ ∀ d ∈ l.map (·.1), d.kind ≠ .tab) :
    (layWith f m x' l).map (·.width) = List.zipWith (· + ·) ((layWith f m x (unspread l)).map (·.width)) (l.map (·.2))
      ∧ ((∃ d ∈ l.map (·.1), d.kind = .character) →
          lastCharacterEdge (layWith f m x' l) = lastCharacterEdge (layWith f m x (unspread l)) + (x' - x) + (l.map (·.2)).sum)
      ∧ ((¬ ∃ d ∈ l.map (·.1), d.kind = .character) → (l.map (·.2)).sum = 0) := by
  induction l generalizing x x' with
  | nil => exact ⟨rfl, fun ⟨_, hd, _⟩ => absurd hd List.not_mem_nil, fun _ => rfl⟩
  | cons ce rest ih =>
    obtain ⟨c, e⟩ := ce
    obtain ⟨hhead, hrest⟩ := h
    have hw : cellWidth f m x' c e = cellWidth f m x c 0 + e :=
      cellWidth_moved (fun he => (hhead he).1) (hx.imp_right fun h => h c List.mem_cons_self)
    have hx' : x + cellWidth f m x c 0 = x' + cellWidth f m x' c e ∨ ∀ d ∈ rest.map (·.1), d.kind ≠ .tab := by
      rcases Nat.eq_zero_or_pos e with h0 | hpos
      · exact hx.imp (fun h => by omega) fun h d hd => h d (List.mem_cons_of_mem _ hd)
      · exact .inr (hhead hpos).2.1
    obtain ⟨ih1, ih2, ih3⟩ := ih hrest (x := x + cellWidth f m x c 0) (x' := x' + cellWidth f m x' c e) (by omega) hx'
    have hlay : layWith f m x' ((c, e) :: rest) = { c with position := x', width := cellWidth f m x' c e }
        :: layWith f m (x' + cellWidth f m x' c e) rest := rfl
    have hplain : layWith f m x (unspread ((c, e) :: rest)) = { c with position := x, width := cellWidth f m x c 0 }
        :: layWith f m (x + cellWidth f m x c 0) (unspread rest) := rfl
    refine ⟨?_, fun hchar => ?_, fun hno => ?_⟩
    · rw [hlay, hplain]
      simp only [List.map_cons, List.zipWith_cons_cons]
      rw [ih1, hw]
    · rw [hlay, hplain, lastCharacterEdge_cons, lastCharacterEdge_cons]
      simp only [exists_kind_layWith, unspread_fst, List.map_cons, List.sum_cons]
      by_cases hr : ∃ d ∈ rest.map (·.1), d.kind = .character
      · rw [if_pos hr, if_pos hr, ih2 hr, hw]; omega
      · have hk : c.kind = .character := by
          obtain ⟨d, hd, hk⟩ := hchar
          rcases List.mem_cons.1 hd with rfl | hd
          · exact hk
          · exact absurd ⟨d, hd, hk⟩ hr
        have he : e = 0 := by
          by_contra h0; exact hr (hhead (Nat.pos_of_ne_zero h0)).2.2
        rw [if_neg hr, if_neg hr, if_pos hk, if_pos hk, ih3 hr, hw]
        unfold Cell.rightEdge; dsimp only; omega
    · have hr : ¬ ∃ d ∈ rest.map (·.1), d.kind = .character := fun ⟨d, hd, hk⟩ => hno ⟨d, List.mem_cons_of_mem _ hd, hk⟩
      have he : e = 0 := by
        by_contra h0; exact hr (hhead (Nat.pos_of_ne_zero h0)).2.2
      rw [List.map_cons, List.sum_cons, ih3 hr, he]

/-! ### The justified line (R57, R58) -/

section
variable (f : FormatRecord) (m : PetalMap) (cells : List Cell)

/-- R58: the additions of a line that lacks `short` units. -/
def lineAdditions (short : Nat) : List Nat :=
  additions cells.length (gapStarts cells) (short / (gapStarts cells).length) (short % (gapStarts cells).length)

theorem lineAdditions_length (short : Nat) : (lineAdditions cells short).length = cells.length := additions_length

theorem sum_lineAdditions (hne : gapStarts cells ≠ []) (short : Nat) : (lineAdditions cells short).sum = short :=
  sum_additions_divided (gapStarts_ordered cells) (fun _ => gapStarts_lt) hne short

variable {f m cells}

/-- R57: a line with a gap has a Character. -/
theorem exists_character_of_gap (hne : gapStarts cells ≠ []) : ∃ d ∈ cells, d.kind = .character := by
  obtain ⟨i, hi⟩ := List.exists_mem_of_ne_nil _ hne
  obtain ⟨-, -, -, -, d, hd, hk⟩ := (mem_gapStarts (gapStarts_lt hi)).1 hi
  exact ⟨d, List.mem_of_mem_drop hd, hk⟩

/-- R58: a justified line against the line laid out flush left. -/
theorem lineAdditions_layout (short : Nat) :
    (layWith f m f.left (cells.zip (lineAdditions cells short))).map (·.width)
        = List.zipWith (· + ·) ((layFrom f m f.left cells).map (·.width)) (lineAdditions cells short)
      ∧ (gapStarts cells ≠ [] → lastCharacterEdge (layWith f m f.left (cells.zip (lineAdditions cells short)))
          = lastCharacterEdge (layFrom f m f.left cells) + short) := by
  have hlen := lineAdditions_length cells short
  have hfst : (cells.zip (lineAdditions cells short)).map (·.1) = cells := List.map_fst_zip hlen.ge
  have hsnd : (cells.zip (lineAdditions cells short)).map (·.2) = lineAdditions cells short := List.map_snd_zip hlen.le
  have hplain : layWith f m f.left (unspread (cells.zip (lineAdditions cells short))) = layFrom f m f.left cells := by
    rw [← layFrom_eq, hfst]
  have hspread : spreads (cells.zip (lineAdditions cells short)) := spreads_additions cells _ _
  obtain ⟨hwidth, hedge, -⟩ := spread_layout (f := f) (m := m) hspread (Nat.le_refl f.left) (.inl rfl)
  rw [hplain, hsnd] at hwidth hedge
  rw [hfst] at hedge
  refine ⟨hwidth, fun hne => ?_⟩
  rw [hedge (exists_character_of_gap hne), sum_lineAdditions cells hne, Nat.sub_self, Nat.add_zero]

/-- Widths that differ by the additions differ so cell by cell. -/
theorem widths_all {l l' : List Cell} {extra : List Nat} (hlen : extra.length = l.length)
    (h : l'.map (·.width) = List.zipWith (· + ·) (l.map (·.width)) extra) :
    (l'.zip l).zipIdx.all (fun c => c.1.1.width == c.1.2.width + extra.getD c.2 0) = true := by
  refine List.all_eq_true.2 fun c hc => beq_iff_eq.2 ?_
  obtain ⟨⟨d', d⟩, i⟩ := c
  have hi := List.mem_zipIdx_iff_getElem?.1 hc
  obtain ⟨h1, h2⟩ := List.getElem?_zip_eq_some.1 hi
  have hat := congrArg (·[i]?) h
  have hlt : i < extra.length := by rw [hlen]; exact (List.getElem?_eq_some_iff.1 h2).1
  simp only [List.getElem?_map, h1, List.getElem?_zipWith, h2, List.getElem?_eq_getElem hlt, Option.map_some] at hat
  rw [List.getD_eq_getElem?_getD, List.getElem?_eq_getElem hlt]
  exact Option.some.inj hat

end

/-! ### The layout at conversion (R54, R56, R57) -/

/-- R56: where a centered line starts, from its layout. -/
theorem layoutAtConversion_centered {l : WorkingLine} (hc : l.center = true) (ht : ∀ c ∈ l.cells, c.kind ≠ .tab) (f : FormatRecord)
    (m : PetalMap) (on : Bool) :
    layoutAtConversion f m l on = ⟨layFrom f m (centeredStart f (layFrom f m f.left l.cells)) l.cells, false⟩ := by
  have hno : ¬ l.cells.any (·.kind == .tab) = true := by
    rw [List.any_eq_true]; rintro ⟨c, h, hk⟩; exact ht c h (beq_iff_eq.1 hk)
  unfold layoutAtConversion; rw [if_pos hc, if_neg hno]

theorem layoutAtConversion_tabbed {l : WorkingLine} (hc : l.center = true) (ht : ∃ c ∈ l.cells, c.kind = .tab) (f : FormatRecord)
    (m : PetalMap) (on : Bool) : layoutAtConversion f m l on = ⟨layFrom f m f.left l.cells, false⟩ := by
  obtain ⟨c, hmem, hk⟩ := ht
  have hany : l.cells.any (·.kind == .tab) = true := List.any_eq_true.2 ⟨c, hmem, beq_iff_eq.2 hk⟩
  unfold layoutAtConversion; rw [if_pos hc, if_pos hany]

theorem layoutAtConversion_flush {l : WorkingLine} {on : Bool} (hc : l.center = false) (h : l.endCause ≠ some .wrap ∨ on = false)
    (f : FormatRecord) (m : PetalMap) : layoutAtConversion f m l on = ⟨layFrom f m f.left l.cells, false⟩ := by
  have hno : ¬ (decide (l.endCause = some .wrap) && on) = true := by
    rcases h with h | h <;> simp [h]
  unfold layoutAtConversion; rw [hc, if_neg Bool.false_ne_true, if_neg hno]

theorem layoutAtConversion_justify {l : WorkingLine} (hc : l.center = false) (h : l.endCause = some .wrap) (f : FormatRecord)
    (m : PetalMap) : layoutAtConversion f m l true = justify f m l.cells := by
  unfold layoutAtConversion; rw [hc, if_neg Bool.false_ne_true, h]; rfl

section
variable {f : FormatRecord} {m : PetalMap} {cells : List Cell}

/-- R57: a line with no gap or no shortfall is flush left. -/
theorem justify_none (h : gapStarts (layFrom f m f.left cells) = [] ∨ f.right ≤ lastCharacterEdge (layFrom f m f.left cells)) :
    justify f m cells = ⟨layFrom f m f.left cells, false⟩ := by
  have hc : ((decide ((gapStarts (layFrom f m f.left cells)).length = 0))
      || decide (f.right ≤ lastCharacterEdge (layFrom f m f.left cells))) = true := by
    rcases h with h | h <;> simp [h]
  unfold justify; dsimp only; rw [if_pos hc]

/-- R58: the largest addition of a line that lacks `short` units in `g` gaps. -/
def largestAddition (short g : Nat) : Nat := if short % g = 0 then short / g else short / g + 1

/-- R58: a line with a gap and a shortfall is justified, unless an addition would be too large. -/
theorem justify_some (hg : gapStarts (layFrom f m f.left cells) ≠ []) (he : lastCharacterEdge (layFrom f m f.left cells) < f.right) :
    justify f m cells =
      if 3 * spaceWidth f m < largestAddition (f.right - lastCharacterEdge (layFrom f m f.left cells))
          (gapStarts (layFrom f m f.left cells)).length
      then ⟨layFrom f m f.left cells, true⟩
      else ⟨layWith f m f.left (cells.zip (additions cells.length (gapStarts (layFrom f m f.left cells))
        ((f.right - lastCharacterEdge (layFrom f m f.left cells)) / (gapStarts (layFrom f m f.left cells)).length)
        ((f.right - lastCharacterEdge (layFrom f m f.left cells)) % (gapStarts (layFrom f m f.left cells)).length))), false⟩ := by
  have hc : ¬ ((decide ((gapStarts (layFrom f m f.left cells)).length = 0))
      || decide (f.right ≤ lastCharacterEdge (layFrom f m f.left cells))) = true := by
    simp [hg, he]
  unfold justify; dsimp only; rw [if_neg hc]; rfl

end

/-! ### The strikes of a line (R61, R62) -/

/-- R61, R62: the strikes of the cells in their order, those on the platen. -/
theorem lineStrikes_from (f : FormatRecord) (m : PetalMap) (i : Nat) (laid : List Cell) :
    (lineStrikes f m i laid).1 = (laid.zipIdx i).flatMap fun c =>
      (cellStrikes f m 0 c.2 c.1).filter fun z => z.position + z.width ≤ 1560 := by
  induction laid generalizing i with
  | nil => rfl
  | cons c rest ih =>
    rw [List.zipIdx_cons, List.flatMap_cons, ← ih]
    rfl

end Sys2Proof.Machine

/-! SUPPORT. The conversion of a waiting line (R38): the job, the notices, what follows the line, and the settling of its
statement. -/

namespace Sys2Proof.Machine

/-! ### What the end of a step leaves of the printing set (R140) -/

theorem fillQueries_printing (done l : List Query) (s : State) : (fillQueries done l s).spelling.printing = s.spelling.printing := by
  induction l generalizing done s with
  | nil => rfl
  | cons q l ih => unfold fillQueries; split <;> rw [ih]; rfl

theorem arbitrate_printing (s : State) : (arbitrate s).spelling.printing = s.spelling.printing := by
  unfold arbitrate; split
  · split <;> rfl
  · rfl

theorem endStep_printing {s : State} (h : s.line.phase ≠ .checking) : (endStep s).spelling.printing = s.spelling.printing := by
  have hs : (endStep s).spelling = (settle s).spelling := (finish_frame _).same .spelling
  rw [hs]; unfold settle
  rw [settleSpelling_unheld h, arbitrate_printing]
  exact fillQueries_printing _ _ s

theorem rebuildWords_printing (edited : Bool) (s : State) :
    (rebuildWords edited s).spelling.printing = s.spelling.printing := by
  unfold rebuildWords; dsimp only
  rw [attemptWords_spelling, checkJoined_spelling]

theorem startPrinting_printing (serial : Nat) (s : State) : serial ∈ (startPrinting serial s).spelling.printing :=
  List.mem_append_right _ (List.mem_singleton.2 rfl)

/-- R33: laying a line out anew leaves what its cells hold. -/
theorem relayLine_content (s : State) : (relayLine s).line.cells.map (·.content) = s.line.cells.map (·.content) := by
  unfold relayLine; split
  · rfl
  · split
    · exact layFrom_content _ _ _ _
    · split <;> rfl

/-! ### The conversion of a Line-mode line -/

section
variable (p : Port) (m : PetalMap) (s : State)

/-- R54, R56, R57: the layout of the line at its conversion. -/
def conversionLayout : Layout := layoutAtConversion s.format m s.line (s.format.justifyOf p)

/-- R38: the state with the notices sent, the Line Job appended and the serial printing, the line not yet released. -/
def printed : State := startPrinting s.line.serial
  (appendJob (lineJob p m (conversionLayout p m s).cells s) (conversionNotices p m (conversionLayout p m s) s))

theorem convertLine_eq : convertLine p m s = afterConversion p (printed p m s) := rfl

theorem conversionNotices_frame (layout : Layout) : changesOnly [.ofPort p] s (conversionNotices p m layout s) := by
  have h : changesOnly [.ofPort p] s ((missingCodes m layout.cells).foldl
      (fun t c => t.notice p (Notice.missingCharacter c s.line.serial)) s) :=
    .foldl _ (fun t _ => State.notice_frame t p _) _ s
  unfold conversionNotices; dsimp only; split
  · exact h.trans (State.notice_frame _ _ _)
  · exact h

theorem notices_port (serial : Nat) (codes : List Byte) (s : State) :
    (codes.foldl (fun t c => t.notice p (Notice.missingCharacter c serial)) s).port p
      = codes.foldl (fun v c => v.notice (Notice.missingCharacter c serial)) (s.port p) := by
  induction codes generalizing s with
  | nil => rfl
  | cons c codes ih => rw [List.foldl_cons, ih, State.notice_port, List.foldl_cons]

/-- R52, R58: the missing characters first, then the skipped justification. -/
theorem conversionNotices_port (layout : Layout) : (conversionNotices p m layout s).port p =
    if layout.skipped then ((missingCodes m layout.cells).foldl
        (fun v c => v.notice (Notice.missingCharacter c s.line.serial)) (s.port p)).notice (Notice.justifySkipped s.line.serial)
      else (missingCodes m layout.cells).foldl (fun v c => v.notice (Notice.missingCharacter c s.line.serial)) (s.port p) := by
  unfold conversionNotices; dsimp only
  split
  · rw [State.notice_port, notices_port]
  · rw [notices_port]

theorem changesOnly.port_eq {parts : List Part} {s t : State} (h : changesOnly parts s t) {q : Port} (hq : Part.ofPort q ∉ parts) :
    t.port q = s.port q := by
  cases q
  · exact h .console hq
  · exact h .link hq

theorem ofPort_other_ne : Part.ofPort (Port.other p) ∉ [Part.ofPort p] := by cases p <;> decide

theorem printed_frame : changesOnly [.ofPort p, .engine, .restTimer, .spelling] s (printed p m s) :=
  (((conversionNotices_frame p m s _).mono (by cases p <;> decide)).trans
    ((appendJob_frame _ _).mono (by cases p <;> decide))).trans ((startPrinting_frame _ _).mono (by cases p <;> decide))

theorem printed_line : (printed p m s).line = s.line := (printed_frame p m s) .line (by cases p <;> decide)

theorem printed_composer : (printed p m s).composer = s.composer := (printed_frame p m s) .composer (by cases p <;> decide)

theorem printed_format : (printed p m s).format = s.format := (printed_frame p m s) .format (by cases p <;> decide)

theorem printed_queue : (printed p m s).engine.queue
    = s.engine.queue ++ [lineJob p m (conversionLayout p m s).cells s] := by
  have he : (printed p m s).engine = (appendJob (lineJob p m (conversionLayout p m s).cells s)
      (conversionNotices p m (conversionLayout p m s) s)).engine := (startPrinting_frame _ _).same .engine
  have hn : (conversionNotices p m (conversionLayout p m s) s).engine = s.engine :=
    (conversionNotices_frame p m s _) .engine (by cases p <;> decide)
  rw [he, (appendJob_engine _ _).1, hn]

theorem printed_port (q : Port) : (printed p m s).port q = (conversionNotices p m (conversionLayout p m s) s).port q := by
  unfold printed
  rw [(startPrinting_frame _ _).port_eq (by cases q <;> decide), (appendJob_frame _ _).port_eq (by cases q <;> decide)]

theorem printed_printing : s.line.serial ∈ (printed p m s).spelling.printing := startPrinting_printing _ _

end

/-! ### After the conversion (R38, 4) -/

section
variable {p : Port} {u : State}

theorem afterConversion_frame (p : Port) (u : State) : changesOnly [.line, .composer, .spelling, .display] u (afterConversion p u) := by
  unfold afterConversion; split
  · refine changesOnly.trans (changesOnly.trans ?_ ((relayLine_frame _).mono (by decide))) ((rebuildWords_frame _ _).mono (by decide))
    exact .mk fun q => by cases q <;> first | exact .inl (by decide) | exact .inr rfl
  · exact ((freeLine_frame _ _).mono (by decide)).trans ((setPosition_frame _ _).mono (by decide))

/-- R38: with nothing carried the line is released. -/
theorem afterConversion_free (h : u.line.carry = none) :
    afterConversion p u = setPosition u.format.left (freeLine p u) := by
  unfold afterConversion; rw [h]

/-- R38, R20: after a Wrap the claim passes to the line that holds the carry. -/
def carriedOn (p : Port) (carry : List Cell) (u : State) : State := { u with
  line := carriedLine p u.composer.nextSerial u.line.mode carry
  composer := { u.composer with nextSerial := serialAfter u.composer.nextSerial }
  display := { u.display with window := 0 } }

theorem afterConversion_carry {carry : List Cell} (h : u.line.carry = some carry) :
    afterConversion p u = rebuildWords false (relayLine (carriedOn p carry u)) := by
  unfold afterConversion; rw [h]; rfl

/-- R38, 4: the carried line. -/
theorem afterConversion_carried {carry : List Cell} (h : u.line.carry = some carry) :
    ∃ cells words joined, (afterConversion p u).line
        = { carriedLine p u.composer.nextSerial u.line.mode carry with cells := cells, words := words, joined := joined }
      ∧ cells.map (·.content) = carry.map (·.content) := by
  have hr : respelled (relayLine (carriedOn p carry u)) (afterConversion p u) := by
    rw [afterConversion_carry h]; exact rebuildWords_respelled _ _
  have hl := relayLine_line (carriedOn p carry u)
  refine ⟨(relayLine (carriedOn p carry u)).line.cells, (afterConversion p u).line.words, (afterConversion p u).line.joined,
    Eq.trans hr ?_, relayLine_content (carriedOn p carry u)⟩
  rw [hl]
  rfl

theorem afterConversion_phase (p : Port) (u : State) : (afterConversion p u).line.phase ≠ .checking := by
  cases h : u.line.carry with
  | none => rw [afterConversion_free h]; exact nofun
  | some carry =>
    obtain ⟨cells, words, joined, hl, -⟩ := afterConversion_carried (p := p) h
    rw [hl]; exact nofun

theorem afterConversion_printing (p : Port) (u : State) : (afterConversion p u).spelling.printing = u.spelling.printing := by
  cases h : u.line.carry with
  | none => rw [afterConversion_free h]; rfl
  | some carry =>
    rw [afterConversion_carry h, rebuildWords_printing]
    exact congrArg Spelling.printing ((relayLine_frame (carriedOn p carry u)).same .spelling)

theorem afterConversion_lastHolder {carry : List Cell} (h : u.line.carry = some carry) :
    (afterConversion p u).composer.lastHolder = u.composer.lastHolder := by
  have hc : (afterConversion p u).composer = (relayLine (carriedOn p carry u)).composer := by
    rw [afterConversion_carry h]; exact (rebuildWords_frame _ _).same .composer
  obtain ⟨x, d, hx⟩ := relayLine_composer (carriedOn p carry u)
  rw [hc, hx]; rfl

end

/-! ### The step (R38) -/

theorem canConvert_iff (s : State) : canConvert s = true ↔ s.line.phase = .waiting ∧ s.engine.petalMap.isSome = true
    ∧ s.engine.queue.length < 4 ∧ s.engine.state ≠ .fault := by
  unfold canConvert Engine.room
  rw [Bool.and_eq_true, Bool.and_eq_true, Bool.and_eq_true, beq_iff_eq, bne_iff_ne, decide_eq_true_eq, and_assoc, and_assoc]
  rfl

/-- R38: a waiting line that can be converted is. -/
theorem exec_lineConversion {p : Port} {m : PetalMap} {s : State} (hw : s.line.phase = .waiting) (hh : s.line.holder = some p)
    (hm : s.engine.petalMap = some m) (hroom : s.engine.queue.length < 4) (hf : s.engine.state ≠ .fault) :
    exec .lineConversion s = .next (endStep (if s.line.mode = .direct then releaseDirect s else convertLine p m s)) := by
  have hc : canConvert s = true := (canConvert_iff s).2 ⟨hw, by rw [hm]; rfl, hroom, hf⟩
  show Host.Outcome.next (convertStep s) = _
  unfold convertStep; rw [hc, hm, hh]

/-- Log entry 3: without its conditions there is no conversion. -/
theorem exec_lineConversion_waits {s : State} (h : s.line.phase ≠ .waiting ∨ s.engine.petalMap = none
    ∨ 4 ≤ s.engine.queue.length ∨ s.engine.state = .fault) : exec .lineConversion s = .next s := by
  have hc : canConvert s = false := by
    rw [Bool.eq_false_iff, Ne, canConvert_iff]
    rintro ⟨h1, h2, h3, h4⟩
    rcases h with h | h | h | h
    · exact h h1
    · rw [h] at h2; cases h2
    · omega
    · exact h4 h
  show Host.Outcome.next (convertStep s) = _
  unfold convertStep; rw [hc]

section
variable (p : Port) (m : PetalMap) (s : State)

theorem convertLine_ended : (endStep (convertLine p m s)).line = (convertLine p m s).line
    ∧ changesOnly [.spelling, .store, .display, .holdTimer] (convertLine p m s) (endStep (convertLine p m s)) :=
  ⟨endStep_line (afterConversion_phase p _), endStep_unheld (afterConversion_phase p _)⟩

/-- From the printed line to the end of the step. -/
theorem convertLine_after : changesOnly [.line, .composer, .spelling, .display, .store, .holdTimer] (printed p m s)
    (endStep (convertLine p m s)) :=
  ((afterConversion_frame p (printed p m s)).mono (by decide)).trans ((convertLine_ended p m s).2.mono (by decide))

theorem converted_queue : (endStep (convertLine p m s)).engine.queue
    = s.engine.queue ++ [lineJob p m (conversionLayout p m s).cells s] := by
  rw [show (endStep (convertLine p m s)).engine = (printed p m s).engine from (convertLine_after p m s).same .engine, printed_queue]

theorem converted_port (q : Port) :
    (endStep (convertLine p m s)).port q = (conversionNotices p m (conversionLayout p m s) s).port q := by
  rw [(convertLine_after p m s).port_eq (by cases q <;> decide), printed_port]

theorem converted_composer : (endStep (convertLine p m s)).composer = (afterConversion p (printed p m s)).composer :=
  (convertLine_ended p m s).2.same .composer

theorem converted_printing : s.line.serial ∈ (endStep (convertLine p m s)).spelling.printing := by
  rw [endStep_printing (s := convertLine p m s) (afterConversion_phase p _), convertLine_eq, afterConversion_printing]
  exact printed_printing p m s

variable {p m s}

/-- R38, R20: with nothing carried the line is Free. -/
theorem converted_free (h : s.line.carry = none) : (endStep (convertLine p m s)).line = .free
    ∧ (endStep (convertLine p m s)).composer = { s.composer with lastHolder := some p, position := s.format.left } := by
  have hcarry : (printed p m s).line.carry = none := by rw [printed_line]; exact h
  rw [(convertLine_ended p m s).1, converted_composer, convertLine_eq, afterConversion_free hcarry]
  refine ⟨rfl, ?_⟩
  rw [setPosition_composer, freeLine_composer, printed_composer, printed_format]

/-- R38, 4: the claim passes to the line of the carry. -/
theorem converted_carry {carry : List Cell} (hl : s.line.mode = .line) (h : s.line.carry = some carry) :
    (endStep (convertLine p m s)).line.phase = .composing ∧ (endStep (convertLine p m s)).line.holder = some p
      ∧ (endStep (convertLine p m s)).line.mode = .line
      ∧ (endStep (convertLine p m s)).line.serial = s.composer.nextSerial
      ∧ (endStep (convertLine p m s)).line.cells.map (·.content) = carry.map (·.content)
      ∧ (endStep (convertLine p m s)).line.cursor = carry.length
      ∧ (endStep (convertLine p m s)).line.bell = false ∧ (endStep (convertLine p m s)).line.carry = none
      ∧ (endStep (convertLine p m s)).composer.lastHolder = s.composer.lastHolder := by
  have hcarry : (printed p m s).line.carry = some carry := by rw [printed_line]; exact h
  obtain ⟨cells, words, joined, hline, hcells⟩ := afterConversion_carried (p := p) hcarry
  rw [printed_composer, printed_line, hl] at hline
  rw [(convertLine_ended p m s).1, converted_composer, convertLine_eq, hline, afterConversion_lastHolder hcarry, printed_composer]
  exact ⟨rfl, rfl, rfl, rfl, hcells, rfl, rfl, rfl, rfl⟩

/-- R38, R29: a waiting Direct-mode line is released with its Return job. -/
theorem direct_released (s : State) : (endStep (releaseDirect s)).engine.queue = s.engine.queue ++ [returnJob s]
    ∧ (endStep (releaseDirect s)).line = .free
    ∧ (endStep (releaseDirect s)).composer = { s.composer with lastHolder := some .console, position := s.format.left }
    ∧ changesOnly [.composer, .engine, .line, .spelling, .store, .display, .holdTimer, .restTimer] s
        (endStep (releaseDirect s)) := by
  have hphase : (releaseDirect s).line.phase ≠ .checking := nofun
  have hend := endStep_unheld hphase
  have hframe : changesOnly [.composer, .engine, .line, .spelling, .display, .restTimer] s (releaseDirect s) :=
    ((((appendJob_frame (returnJob s) s).mono (by decide)).trans ((startPrinting_frame _ _).mono (by decide))).trans
      ((freeLine_frame _ _).mono (by decide))).trans ((setPosition_frame _ _).mono (by decide))
  have hengine : (releaseDirect s).engine = (appendJob (returnJob s) s).engine := rfl
  refine ⟨?_, endStep_line hphase, ?_, hframe.then hend (by decide) (by decide)⟩
  · rw [show (endStep (releaseDirect s)).engine = (releaseDirect s).engine from hend.same .engine, hengine]
    exact (appendJob_engine (returnJob s) s).1
  · rw [show (endStep (releaseDirect s)).composer = (releaseDirect s).composer from hend.same .composer]
    exact releaseDirect_composer s

end

/-! ### The statement -/

/-- The layout of R54 to R58, case by case. -/
theorem layout_cases (f : FormatRecord) (m : PetalMap) (l : WorkingLine) (on : Bool) :
    let plain := layFrom f m f.left l.cells
    let gaps := gapStarts plain
    let short := f.right - lastCharacterEdge plain
    l.center = false → l.endCause = some .wrap → on = true →
      ((gaps = [] ∨ f.right ≤ lastCharacterEdge plain) → layoutAtConversion f m l on = ⟨plain, false⟩)
      ∧ (gaps ≠ [] → lastCharacterEdge plain < f.right →
          (3 * spaceWidth f m < largestAddition short gaps.length → layoutAtConversion f m l on = ⟨plain, true⟩)
          ∧ (largestAddition short gaps.length ≤ 3 * spaceWidth f m → (layoutAtConversion f m l on).skipped = false
              ∧ (layoutAtConversion f m l on).cells = layWith f m f.left (l.cells.zip
                  (additions l.cells.length gaps (short / gaps.length) (short % gaps.length))))) := by
  intro plain gaps short hc hw hon
  rw [hon, layoutAtConversion_justify hc hw]
  refine ⟨justify_none, fun hg he => ⟨fun hbig => ?_, fun hfits => ?_⟩⟩
  · rw [justify_some hg he, if_pos hbig]
  · rw [justify_some hg he, if_neg (Nat.not_lt.2 hfits)]
    exact ⟨rfl, rfl⟩

/-- Settles O49: the step by its parts (the printed line, what follows it, the end of the step), the layout by its cases, and
the justified line by the gaps and their additions. -/
theorem lineConversionMakesALineJob : Obligations.LineConversionMakesALineJob := by
  unfold Obligations.LineConversionMakesALineJob
  refine ⟨fun p m s hw hh hl hm hroom hf => ?_, fun s hw hh hl hm hroom hf => ?_, fun s => exec_lineConversion_waits,
    fun f m l on => ?_, fun f m laid => lineStrikes_from f m 0 laid, fun f m cells => ?_⟩
  · intro layout strikes missing
    refine ⟨endStep (convertLine p m s), ?_, converted_queue p m s, ?_, ?_, converted_printing p m s, converted_free,
      fun carry => converted_carry hl, ?_⟩
    · rw [exec_lineConversion hw hh hm hroom hf, if_neg (by rw [hl]; decide)]
    · rw [converted_port]; exact conversionNotices_port p m s _
    · rw [converted_port]; exact (conversionNotices_frame p m s _).port_eq (ofPort_other_ne p)
    · exact (convertLine_frame p m s).then (endStep_frame _) (by decide) (by decide)
  · obtain ⟨m, hm⟩ := Option.isSome_iff_exists.1 hm
    obtain ⟨hqueue, hline, hcomposer, hframe⟩ := direct_released s
    refine ⟨endStep (releaseDirect s), ?_, hqueue, hline, hcomposer, hframe⟩
    rw [exec_lineConversion hw hh hm hroom hf, if_pos hl]
  · intro plain total gaps short layout
    refine ⟨fun hc ht => ?_, fun hc ht => layoutAtConversion_tabbed hc ht f m on,
      fun hc h => layoutAtConversion_flush hc h f m, layout_cases f m l on⟩
    have h := layoutAtConversion_centered hc ht f m on
    exact ⟨congrArg Layout.skipped h, congrArg Layout.cells h⟩
  · intro plain gaps short extra justified
    have hgaps : gaps = gapStarts cells := gapStarts_layFrom f m f.left cells
    have hextra : extra = lineAdditions cells short := by
      show additions cells.length gaps (short / gaps.length) (short % gaps.length) = _
      rw [hgaps]; rfl
    have hjust : justified = layWith f m f.left (cells.zip (lineAdditions cells short)) := by
      show layWith f m f.left (cells.zip extra) = _
      rw [hextra]
    obtain ⟨hwidth, hedge⟩ := lineAdditions_layout (f := f) (m := m) (cells := cells) short
    rw [hjust, hextra, hgaps]
    refine ⟨fun i hi => mem_gapStarts hi, gapStarts_ordered cells, fun i => gapStarts_lt, lineAdditions_length cells short,
      fun i hi hoff => additions_off hi hoff, fun hne hlt => ⟨sum_lineAdditions cells hne short, fun i hi j hj hij => ?_, ?_, ?_, ?_⟩⟩
    · exact additions_mono (gapStarts_ordered cells) (fun _ => gapStarts_lt) hi hj hij
    · rw [hedge hne]; exact Nat.add_sub_cancel' hlt.le
    · have hfst : (cells.zip (lineAdditions cells short)).map (·.1) = cells :=
        List.map_fst_zip (lineAdditions_length cells short).ge
      rw [layWith_content]
      conv_rhs => rw [← hfst]
      rw [List.map_map]; rfl
    · refine widths_all ?_ hwidth
      have hlen := congrArg List.length (layFrom_content f m f.left cells)
      rw [List.length_map, List.length_map] at hlen
      rw [lineAdditions_length, hlen]

end Sys2Proof.Machine

/-! SUPPORT. The Format Record and the partition (R47, R190): what leaves them as they are, what the commands that set them
store, and with both the step. -/

namespace Sys2Proof.Machine

/-! ### The settings that stand -/

/-- R47, R190: the Format Record and the partition are as they were. -/
def settingsStand (s t : State) : Prop := t.format = s.format ∧ t.partition = s.partition

namespace settingsStand
variable {s t u : State}

theorem refl (s : State) : settingsStand s s := ⟨rfl, rfl⟩

theorem trans (h : settingsStand s t) (k : settingsStand t u) : settingsStand s u :=
  ⟨k.1.trans h.1, k.2.trans h.2⟩

theorem ite {c : Prop} [Decidable c] (ht : settingsStand s t) (hu : settingsStand s u) :
    settingsStand s (if c then t else u) := by split <;> assumption

theorem of_frame {parts : List Part} (h : changesOnly parts s t) (hp : .format ∉ parts ∧ .partition ∉ parts) :
    settingsStand s t := ⟨h .format hp.1, h .partition hp.2⟩

theorem foldl {α : Type} (f : State → α → State) (hf : ∀ t x, settingsStand t (f t x)) (l : List α) (s : State) :
    settingsStand s (l.foldl f s) := by
  induction l generalizing s with
  | nil => exact refl s
  | cons x l ih => exact (hf s x).trans (ih _)

theorem engine (s : State) (e : Engine) : settingsStand s { s with engine := e } := ⟨rfl, rfl⟩

theorem store (s : State) (u : Store) : settingsStand s { s with store := u } := ⟨rfl, rfl⟩

theorem setPort (s : State) (p : Port) (v : PortState) : settingsStand s (s.setPort p v) :=
  ⟨s.setPort_format p v, s.setPort_partition p v⟩

theorem notice (h : settingsStand s t) (p : Port) (b : Block) : settingsStand s (t.notice p b) := h.trans (setPort t p _)

theorem settle (h : settingsStand s t) : settingsStand s (settle t) := h.trans (of_frame (settle_frame t) (by decide))

theorem finish (h : settingsStand s t) : settingsStand s (finish t) := h.trans (of_frame (finish_frame t) (by decide))

theorem endStep (h : settingsStand s t) : settingsStand s (endStep t) := h.trans (of_frame (endStep_frame t) (by decide))

/-- R174, R175: a block that is taken and answered. -/
theorem answered (p : Port) (code : Byte) (r : Reply) : settingsStand s (Machine.finish (s.reply p code r)) :=
  finish ⟨s.reply_format p code r, s.reply_partition p code r⟩

end settingsStand

theorem taken_settings (p : Port) (s : State) : settingsStand s (taken p s) := ⟨taken_format p s, taken_partition p s⟩

theorem refusedBlock_settings (p : Port) (code : Byte) (st : Status) (s : State) :
    settingsStand s (finish (refuseBlock p code st s)) :=
  .finish ⟨refuseBlock_format p code st s, refuseBlock_partition p code st s⟩

/-! ### Commands that leave the settings -/

theorem cancelAwaits_settings (s : State) : settingsStand s (cancelAwaits s) := by
  unfold cancelAwaits; rw [foldl_keysNotice]; exact ⟨rfl, rfl⟩

theorem restartRest_settings (s : State) : settingsStand s (restartRest s) := .of_frame (restartRest_frame s) (by decide)

theorem appendJob_settings (j : Job) (s : State) : settingsStand s (appendJob j s) := .of_frame (appendJob_frame j s) (by decide)

theorem cmdReadStatus_settings (p : Port) (s : State) : settingsStand s (cmdReadStatus p s).1 :=
  settingsStand.trans ⟨rfl, rfl⟩ (.setPort _ p _)

theorem cmdSetNotices_settings (p : Port) (b0 b1 b2 : Byte) (s : State) :
    settingsStand s (cmdSetNotices p b0 b1 b2 s).1 := by
  unfold cmdSetNotices; split
  · exact .refl s
  · exact .setPort s p _

/-- R91, R195: Restart keeps the Format Record and the partition. -/
theorem cmdRestart_settings (s : State) : settingsStand s (cmdRestart s).1 := by
  have hreport (u : State) (j : Job) : settingsStand u (restartReport u j) :=
    .ite (.refl u) ((settingsStand.refl u).notice j.source _)
  have hqueue (u : State) : settingsStand u (restartQueue u) :=
    (settingsStand.foldl restartReport hreport u.engine.queue u).trans ⟨rfl, rfl⟩
  have hcomposer (u : State) : settingsStand u (restartComposer u) := (cancelAwaits_settings u).trans ⟨rfl, rfl⟩
  have hmemory (u : State) : settingsStand u (restartRest2 u) :=
    (settingsStand.of_frame (emptyMemory_frame u) (by decide)).trans ⟨rfl, rfl⟩
  have hports : settingsStand s (restartPorts s) := ⟨rfl, rfl⟩
  exact (((hports.trans (hqueue _)).trans (hcomposer _)).trans ⟨rfl, rfl⟩).trans (hmemory (startFullHoming _))

theorem cmdKeyStroke_settings (b0 b1 : Byte) (s : State) : settingsStand s (cmdKeyStroke b0 b1 s).1 := by
  unfold cmdKeyStroke; split
  · exact .refl s
  · split
    · exact .of_frame (routeStroke_frame _ _ _ s) (by decide)
    · split
      · exact .of_frame (joinRing_frame _ _ s) (by decide)
      · exact .of_frame (s.tone_frame _) (by decide)

theorem cmdTypeText_settings (text : List Byte) (s : State) : settingsStand s (cmdTypeText text s).1 := by
  unfold cmdTypeText; dsimp only; split
  · exact (settingsStand.of_frame (joinRing_frame _ _ s) (by decide)).trans ⟨rfl, rfl⟩
  · exact .refl s

theorem cmdReleaseLine_settings (p : Port) (s : State) : settingsStand s (cmdReleaseLine p s).1 := by
  unfold cmdReleaseLine; split
  · exact .refl s
  · split
    · exact .refl s
    · split
      · exact .refl s
      · exact (settingsStand.of_frame (discardLine_frame s) (by decide)).settle

theorem cmdAwaitKeys_settings (wanted : Byte) (timeout : Half) (echo : Byte) (s : State) :
    settingsStand s (cmdAwaitKeys wanted timeout echo s).1 := by
  unfold cmdAwaitKeys; split
  · exact .refl s
  · split
    · exact .refl s
    · split
      · exact .refl s
      · exact ⟨rfl, rfl⟩

theorem cmdFeed_settings (p : Port) (n : Byte) (s : State) : settingsStand s (cmdFeed p n s).1 := by
  unfold cmdFeed; split
  · exact .refl s
  · dsimp only; split
    · exact .refl s
    · exact appendJob_settings _ s

theorem cmdFormFeed_settings (p : Port) (s : State) : settingsStand s (cmdFormFeed p s).1 := by
  unfold cmdFormFeed; split
  · exact .refl s
  · exact appendJob_settings _ s

theorem cmdRehome_settings (s : State) : settingsStand s (cmdRehome s).1 := by
  unfold cmdRehome; split
  · exact .refl s
  · split
    · exact ⟨rfl, rfl⟩
    · exact .refl s

theorem cmdWheelChange_settings (s : State) : settingsStand s (cmdWheelChange s).1 := by
  unfold cmdWheelChange; split
  · exact .refl s
  · split
    · exact ⟨rfl, rfl⟩
    · exact .refl s

theorem cmdWheelMounted_settings (s : State) : settingsStand s (cmdWheelMounted s).1 := by
  have h : settingsStand s (startWheelHoming false s) := ⟨rfl, rfl⟩
  unfold cmdWheelMounted; split
  · split
    · exact .refl s
    · exact h
  · split
    · exact h
    · exact .refl s

theorem leaveSupplyOut_settings (s : State) : settingsStand s (leaveSupplyOut s) := by
  have hworking (e : Engine) : settingsStand s { s with engine := e, restTimer := none } := ⟨rfl, rfl⟩
  unfold leaveSupplyOut; split
  · exact .ite ((hworking _).trans (.of_frame (goOn_frame _) (by decide))) ⟨rfl, rfl⟩
  · exact ⟨rfl, rfl⟩

theorem cmdLoadSupply_settings (kind : Byte) (ribbon tape : Half) (s : State) :
    settingsStand s (cmdLoadSupply kind ribbon tape s).1 := by
  have hset (k : RibbonKind) : settingsStand s (setSupply k ribbon.toNat tape.toNat s) := .ite ⟨rfl, rfl⟩ ⟨rfl, rfl⟩
  unfold cmdLoadSupply; split
  · exact .refl s
  · exact .ite ((hset _).trans (leaveSupplyOut_settings _)).settle (hset _)

theorem takeLift_settings (p : Port) (command : LiftCommand) (reference : Option Nat) (s : State) :
    settingsStand s (takeLift p command reference s).1 := by
  unfold takeLift; split
  · exact .refl s
  · exact appendJob_settings _ s

theorem cmdLiftBack_settings (p : Port) (n : Byte) (x : Half) (s : State) : settingsStand s (cmdLiftBack p n x s).1 := by
  unfold cmdLiftBack
  split
  · exact .refl s
  split
  · exact .refl s
  split
  · exact .refl s
  split
  · exact .refl s
  split
  · exact .refl s
  · exact appendJob_settings _ s

theorem cmdRelocate_settings (s : State) : settingsStand s (cmdRelocate s).1 := by
  unfold cmdRelocate
  split
  · exact .refl s
  split
  · exact .refl s
  split
  · exact .refl s
  · exact appendJob_settings _ s

theorem cmdReadSuspect_settings (i : Byte) (s : State) : settingsStand s (cmdReadSuspect i s).1 := by
  unfold cmdReadSuspect; split <;> exact .refl s

theorem cmdIgnoreSuspect_settings (i : Byte) (s : State) : settingsStand s (cmdIgnoreSuspect i s).1 := by
  unfold cmdIgnoreSuspect; split
  · exact .ite ⟨rfl, rfl⟩ ⟨rfl, rfl⟩
  · exact .refl s

theorem addLetters_settings (letters : List Byte) (s : State) : settingsStand s (addLetters letters s).1 := by
  unfold addLetters
  split
  · exact .refl s
  split
  · exact ⟨rfl, rfl⟩
  split
  · exact .refl s
  · exact ⟨rfl, rfl⟩

theorem cmdAddWordByIndex_settings (i : Byte) (s : State) : settingsStand s (cmdAddWordByIndex i s).1 := by
  unfold cmdAddWordByIndex; split
  · exact .refl s
  · split
    · exact addLetters_settings _ s
    · exact .refl s

theorem cmdAddWord_settings (letters : List Byte) (s : State) : settingsStand s (cmdAddWord letters s).1 := by
  unfold cmdAddWord; split
  · exact .refl s
  · exact addLetters_settings letters s

theorem cmdRemoveWord_settings (letters : List Byte) (s : State) : settingsStand s (cmdRemoveWord letters s).1 := by
  unfold cmdRemoveWord
  split
  · exact .refl s
  split
  · exact .refl s
  split
  · exact ⟨rfl, rfl⟩
  · exact .refl s

theorem cmdSaveUserWords_settings (p : Port) (s : State) : settingsStand s (cmdSaveUserWords p s).1 := by
  unfold cmdSaveUserWords
  split
  · exact .refl s
  · exact .refl s
  · exact .refl s
  split
  · exact .refl s
  split
  · exact .refl s
  split
  · exact .refl s
  · exact (settingsStand.store s _).trans (.of_frame (arbitrate_frame _) (by decide))

theorem cmdCheckWord_settings (letters : List Byte) (s : State) : settingsStand s (cmdCheckWord letters s).1 := by
  unfold cmdCheckWord; dsimp only
  split
  · exact .refl s
  split
  · exact .refl s
  split
  · exact ⟨rfl, rfl⟩
  · exact settingsStand.settle ⟨rfl, rfl⟩

theorem cmdShowMessage_settings (p : Port) (d : Byte) (text : List Byte) (s : State) :
    settingsStand s (cmdShowMessage p d text s).1 := by
  have hwithdraw : settingsStand s (if linkOverlay s then s.notice .link Notice.messageWithdrawn else s) :=
    .ite ⟨rfl, rfl⟩ (.refl s)
  unfold cmdShowMessage
  split
  · exact .refl s
  split
  · exact .refl s
  split
  · exact hwithdraw.trans ⟨rfl, rfl⟩
  split
  · exact .refl s
  · exact ⟨rfl, rfl⟩

theorem cmdClearMessage_settings (p : Port) (s : State) : settingsStand s (cmdClearMessage p s).1 := by
  unfold cmdClearMessage; split
  · exact ⟨rfl, rfl⟩
  · exact .refl s

theorem cmdSetTones_settings (tone divider duty : Byte) (s : State) :
    settingsStand s (cmdSetTones tone divider duty s).1 := by
  unfold cmdSetTones; split
  · exact ⟨rfl, rfl⟩
  · exact .refl s

/-! ### Events that leave the settings -/

theorem gapExpiry_settings (p : Port) (s : State) : settingsStand s (gapExpiry p s) :=
  .of_frame (gapExpiry_frame p s) (by cases p <;> decide)

theorem resetHeldLine_settings (p : Port) (s : State) : settingsStand s (resetHeldLine p s) := by
  have hfragment : settingsStand s (setFragment p none s) := .of_frame (setFragment_frame p none s) (by decide)
  have hrelocate (u : State) : settingsStand u (performRelocate u) :=
    .ite (.refl u) (.ite (appendJob_settings _ u) ⟨rfl, rfl⟩)
  have hdiscard (u : State) : settingsStand u (discardLine u) := .of_frame (discardLine_frame u) (by decide)
  exact .ite (.ite (hfragment.trans (hrelocate { setFragment p none s with display := _ }))
    (hfragment.trans (hdiscard { setFragment p none s with line := _ }))) hfragment

theorem resetPort_settings (p : Port) (s : State) : settingsStand s (resetPort p s) := by
  have hport : settingsStand s (restartRest (s.setPort p (s.port p).resetInput)) :=
    (settingsStand.setPort s p _).trans (restartRest_settings _)
  have hstrokes (u : State) : settingsStand u (resetStrokes p u) := by cases p <;> exact ⟨rfl, rfl⟩
  have hqueries (u : State) : settingsStand u (if p = .link then dropQueries u else u) := .ite ⟨rfl, rfl⟩ (.refl u)
  have hoverlay (u : State) : settingsStand u (if ownsOverlay p u then dropOverlay u else u) := .ite ⟨rfl, rfl⟩ (.refl u)
  exact ((((hport.trans (resetHeldLine_settings p _)).trans (hstrokes _)).trans (hqueries _)).trans (hoverlay _)).endStep

theorem composeStep_settings (s : State) : settingsStand s (composeStep s) := by
  have hring (p : Port) (rest : List Stroke) :
      settingsStand s { s with composer := s.composer.setRing p rest } := ⟨rfl, rfl⟩
  unfold composeStep; split
  · split
    · exact ((hring _ _).trans (.of_frame (composeTaken_frame _ _ _ _) (by decide))).endStep
    · exact .refl s
  · exact .refl s

theorem convertStep_settings (s : State) : settingsStand s (convertStep s) := by
  unfold convertStep; split
  · exact (settingsStand.ite (.of_frame (releaseDirect_frame s) (by decide))
      (.of_frame (convertLine_frame _ _ s) (by decide))).endStep
  · exact .refl s

theorem motionEnded_settings (s : State) : settingsStand s (motionEnded s) := by
  unfold motionEnded; split
  · split
    · exact .of_frame (orderDone_frame s) (by decide)
    · exact ⟨rfl, rfl⟩
    · exact .refl s
  · exact .refl s

theorem wheelSettled_settings (s : State) : settingsStand s (wheelSettled s) := by
  unfold wheelSettled; split
  · exact ((settingsStand.engine s _).trans (motionEnded_settings _)).endStep
  · exact .refl s

theorem carrierArrived_settings (s : State) : settingsStand s (carrierArrived s) := by
  unfold carrierArrived; split
  · exact ((settingsStand.engine s _).trans (motionEnded_settings _)).endStep
  · exact .refl s

theorem hammerPulseEnd_settings (s : State) : settingsStand s (hammerPulseEnd s) := by
  unfold hammerPulseEnd; split <;> exact ⟨rfl, rfl⟩

theorem completeBlow_settings (s : State) : settingsStand s (completeBlow s) := by
  have hdone (u : State) : settingsStand u (orderDone u) := .of_frame (orderDone_frame u) (by decide)
  unfold completeBlow; split
  · exact (settingsStand.of_frame (completeStrike_frame _ s) (by decide)).trans (hdone _)
  · exact (settingsStand.of_frame (completeLift_frame _ _ s) (by decide)).trans (hdone _)
  · exact .refl s

theorem hammerReturned_settings (s : State) : settingsStand s (hammerReturned s) := by
  unfold hammerReturned; split
  · exact ((settingsStand.engine s _).trans (completeBlow_settings _)).endStep
  · exact .refl s
  · exact .refl s

theorem tapeRaised_settings (s : State) : settingsStand s (tapeRaised s) := by
  unfold tapeRaised; split <;> exact ⟨rfl, rfl⟩

theorem platenStopped_settings (s : State) : settingsStand s (platenStopped s) := by
  have hdone (u : State) (h : settingsStand s u) : settingsStand s (endStep (orderDone u)) :=
    (h.trans (.of_frame (orderDone_frame u) (by decide))).endStep
  unfold platenStopped; split
  · exact hdone _ ((settingsStand.engine s _).trans (.of_frame (completeFeed_frame _ _) (by decide)))
  · exact hdone _ ((settingsStand.engine s _).trans (.of_frame (completeEject_frame _) (by decide)))
  · exact .refl s

theorem homeReached_settings (s : State) : settingsStand s (homeReached s) := by
  unfold homeReached; split
  · split <;> exact ⟨rfl, rfl⟩
  · exact .refl s

theorem askTable_settings (hub : Nat) (s : State) : settingsStand s (askTable hub s) :=
  .ite (.of_frame (homingRefused_frame 0 2 s) (by decide)) (.of_frame (requestTable_frame hub s) (by decide))

theorem wakeFound_settings (hub : Nat) (s : State) : settingsStand s (wakeFound hub s) := by
  have hcancel : settingsStand s (cancelJobs .console s).1 := .of_frame (cancelJobs_frame .console s) (by decide)
  unfold wakeFound; split
  · exact .ite (.of_frame (homingLoaded_frame _ false s) (by decide))
      ((hcancel.trans ⟨rfl, rfl⟩).trans (askTable_settings hub _))
  · exact askTable_settings hub s

theorem hubRead_settings (h : Homing) (hub : Nat) (s : State) : settingsStand s (hubRead h hub s) := by
  have hengine := settingsStand.engine s
  exact .ite (((hengine _).trans (.of_frame (newPage_frame _) (by decide))).trans (askTable_settings hub _))
    (.ite ((hengine _).trans (wakeFound_settings hub _)) ((hengine _).trans (askTable_settings hub _)))

theorem indexFound_settings (hub : BitVec 6) (s : State) : settingsStand s (indexFound hub s) := by
  unfold indexFound; split
  · exact .ite (hubRead_settings _ _ s).endStep (.refl s)
  · exact .refl s

theorem faultWhen_settings (running : Bool) (cause : FaultCause) (s : State) :
    settingsStand s (faultWhen running cause s) :=
  .ite (settingsStand.of_frame (enterFault_frame cause s) (by decide)).endStep (.refl s)

theorem restExpiry_settings (s : State) : settingsStand s (restExpiry s) :=
  .ite (settingsStand.finish ⟨rfl, rfl⟩) (.refl s)

theorem holdExpiry_settings (s : State) : settingsStand s (holdExpiry s) := by
  have hstopped : settingsStand s { s with holdTimer := none } := ⟨rfl, rfl⟩
  have hforced (p : Port) (u : State) : settingsStand u (forceEnd p u) :=
    .of_frame (forceEnd_frame p u) (by cases p <;> decide)
  unfold holdExpiry; split
  · exact (hstopped.trans (hforced _ _)).endStep
  · exact .refl s

theorem awaitExpiry_settings (place : Nat) (s : State) : settingsStand s (awaitExpiry place s) := by
  unfold awaitExpiry; split
  · exact .ite (settingsStand.of_frame (completeAwait_frame place _ 1 s) (by decide)).finish (.refl s)
  · exact .refl s

theorem storeOpDone_settings (bytes : List Byte) (s : State) : settingsStand s (storeOpDone bytes s) := by
  have hstore := settingsStand.store s
  unfold storeOpDone; split
  · exact .refl s
  split
  · refine settingsStand.endStep ?_
    dsimp only; split
    · exact (hstore _).trans (.of_frame (startUpStep_frame bytes _) (by decide))
    · exact (hstore _).trans (.of_frame (wheelRead_frame bytes _) (by decide))
    · exact (hstore _).trans (.of_frame (saveStepDone_frame _) (by decide))
    · exact (hstore _).trans (.of_frame (lookupRead_frame bytes _) (by decide))
  · exact .refl s

theorem overlayEnd_settings (s : State) : settingsStand s (overlayEnd s) := by
  unfold overlayEnd; split
  · exact .ite (settingsStand.finish ⟨rfl, rfl⟩) (.refl s)
  · exact .refl s

/-- R47, R190: power-on, the reset line and a byte written apart, no event touches the Format Record or the partition. -/
theorem eventOf_settings {c : Instr} (hpower : c ≠ .powerOn) (hline : c ≠ .resetLine)
    (hbyte : ∀ p b, c ≠ .dataWrite p b) (s : State) : settingsStand s (eventOf c s) := by
  cases c
  case powerOn => exact absurd rfl hpower
  case resetLine => exact absurd rfl hline
  case dataWrite p b => exact absurd rfl (hbyte p b)
  case portReset p => exact resetPort_settings p s
  case dataRead p => exact .setPort s p _
  case statusRead p => exact .setPort s p _
  case resetInputRelease p => exact .setPort s p _
  case gapTimerExpiry p => exact gapExpiry_settings p s
  case composeStroke => exact composeStep_settings s
  case lineConversion => exact convertStep_settings s
  case jobStart => exact (settingsStand.of_frame (startJob_frame s) (by decide)).endStep
  case wheelSettled => exact wheelSettled_settings s
  case carrierArrived => exact carrierArrived_settings s
  case hammerPulseEnd => exact hammerPulseEnd_settings s
  case hammerReturned => exact hammerReturned_settings s
  case tapeRaised => exact tapeRaised_settings s
  case platenStopped => exact platenStopped_settings s
  case homeReached => exact homeReached_settings s
  case indexFound hub => exact indexFound_settings hub s
  case wheelLimitExpiry => exact faultWhen_settings _ _ s
  case carrierLimitExpiry => exact faultWhen_settings _ _ s
  case hammerLimitExpiry => exact faultWhen_settings _ _ s
  case tapeLimitExpiry => exact faultWhen_settings _ _ s
  case homingLimitExpiry => exact faultWhen_settings _ _ s
  case restTimerExpiry => exact restExpiry_settings s
  case holdLimitExpiry => exact holdExpiry_settings s
  case awaitTimeout place => exact awaitExpiry_settings place s
  case storeOpComplete bytes => exact storeOpDone_settings bytes s
  case busyLimitExpiry => exact .ite (settingsStand.of_frame (storeFault_frame s) (by decide)).endStep (.refl s)
  case overlayExpiry => exact overlayEnd_settings s
  all_goals exact ⟨rfl, rfl⟩

/-! ### The tick leaves the settings -/

theorem tickAwaits_settings (s : State) : settingsStand s (tickAwaits s) := by
  rw [tickAwaits_eq, foldl_keysNotice]; exact ⟨rfl, rfl⟩

section
variable {n : Nat} {timer : Option Nat} {more : Nat → State} {s last : State}

theorem countDown_settings (hm : ∀ k, settingsStand s (more k)) (hl : settingsStand s last) :
    settingsStand s (countDown n more last) := countDown_keeps hm hl

theorem countTimer_settings (hm : ∀ k, settingsStand s (more k)) (hl : settingsStand s last) :
    settingsStand s (countTimer timer more last s) := countTimer_keeps (.refl s) (fun _ _ => hm) hl

end

/-- Log entry 1: a tick lowers counts and runs the expiries, and leaves the settings. -/
theorem tick_settings (s : State) : settingsStand s (tick s) := by
  have blink (s) : settingsStand s (tickBlink s) := countDown_settings (fun _ => ⟨rfl, rfl⟩) ⟨rfl, rfl⟩
  have tone (s) : settingsStand s (tickTone s) := by
    unfold tickTone; split
    · exact countDown_settings (fun _ => ⟨rfl, rfl⟩) ⟨rfl, rfl⟩
    · exact .refl s
  have overlay (s) : settingsStand s (tickOverlay s) := by
    unfold tickOverlay; split
    · exact .ite (.refl s) (countDown_settings (fun _ => ⟨rfl, rfl⟩) (overlayEnd_settings s))
    · exact .refl s
  have rest (s) : settingsStand s (tickRest s) := countTimer_settings (fun _ => ⟨rfl, rfl⟩) (restExpiry_settings s)
  have hold (s) : settingsStand s (tickHold s) := countTimer_settings (fun _ => ⟨rfl, rfl⟩) (holdExpiry_settings s)
  have gap (p s) : settingsStand s (tickGap p s) := countTimer_settings (fun _ => .setPort s p _) (gapExpiry_settings p s)
  have wheel (s) : settingsStand s (tickWheel s) := by
    unfold tickWheel; split
    · exact countDown_settings (fun _ => ⟨rfl, rfl⟩) (faultWhen_settings _ _ s)
    · exact .refl s
  have carrier (s) : settingsStand s (tickCarrier s) := by
    unfold tickCarrier; split
    · exact countDown_settings (fun _ => ⟨rfl, rfl⟩) (faultWhen_settings _ _ s)
    · exact .refl s
  have hammer (s) : settingsStand s (tickHammer s) := by
    unfold tickHammer; split
    · exact countDown_settings (fun _ => ⟨rfl, rfl⟩) (faultWhen_settings _ _ s)
    · exact .refl s
    · exact .refl s
  have tape (s) : settingsStand s (tickTape s) := by
    unfold tickTape; split
    · exact countDown_settings (fun _ => ⟨rfl, rfl⟩) (faultWhen_settings _ _ s)
    · exact .refl s
    · exact .refl s
  have homing (s) : settingsStand s (tickHoming s) :=
    countTimer_settings (fun _ => ⟨rfl, rfl⟩) (faultWhen_settings _ _ s)
  have busy (s) : settingsStand s (tickBusy s) := by
    unfold tickBusy; split
    · exact countTimer_settings (fun _ => ⟨rfl, rfl⟩)
        (.ite (settingsStand.of_frame (storeFault_frame s) (by decide)).endStep (.refl s))
    · exact .refl s
  exact (((((((((((((blink s).trans (tone _)).trans (overlay _)).trans (rest _)).trans (hold _)).trans
    (tickAwaits_settings _)).trans (gap _ _)).trans (gap _ _)).trans (wheel _)).trans (carrier _)).trans (hammer _)).trans
    (tape _)).trans (homing _)).trans (busy _)

end Sys2Proof.Machine

/-! SUPPORT. What is stored in the Format Record and as the partition is in range (R47 to R49, R190), and with what stands
otherwise, every step keeps both (O7); the invariants at reset (O15). -/

namespace Sys2Proof.Machine

/-! ### Tab stops (R48) -/

theorem strictlyRising_iff (tabs : List Nat) : strictlyRising tabs = true ↔ tabs.Pairwise (· < ·) := by
  rw [← List.isChain_iff_pairwise]
  induction tabs with
  | nil => simp [strictlyRising]
  | cons a rest ih =>
    cases rest with
    | nil => simp [strictlyRising]
    | cons b rest => rw [strictlyRising, Bool.and_eq_true, decide_eq_true_eq, ih, List.isChain_cons_cons]

/-- R48: a new stop takes its place in ascending order. -/
theorem strictlyRising_insertStop {x : Nat} {tabs : List Nat} (hx : x ∉ tabs) (h : strictlyRising tabs = true) :
    strictlyRising (insertStop x tabs) = true := by
  rw [strictlyRising_iff] at h ⊢
  induction tabs with
  | nil => exact List.pairwise_singleton _ x
  | cons y rest ih =>
    obtain ⟨hy, hrest⟩ := List.pairwise_cons.1 h
    obtain ⟨hxy, hx⟩ := not_or.1 (mt List.mem_cons.2 hx)
    unfold insertStop; split
    · rename_i hlt
      exact List.pairwise_cons.2 ⟨List.forall_mem_cons.2 ⟨hlt, fun z hz => hlt.trans (hy z hz)⟩, h⟩
    · refine List.pairwise_cons.2 ⟨fun z hz => ?_, ih hx hrest⟩
      rcases (mem_insertStop x z rest).1 hz with rfl | hz
      · omega
      · exact hy z hz

theorem strictlyRising_filter {tabs : List Nat} (keep : Nat → Bool) (h : strictlyRising tabs = true) :
    strictlyRising (tabs.filter keep) = true := by
  rw [strictlyRising_iff] at h ⊢; exact h.filter keep

/-- R47: at most 16 tab stops of 0 to 1559, in ascending order. -/
def tabsFit (tabs : List Nat) : Prop := tabs.length ≤ 16 ∧ (∀ x ∈ tabs, x ≤ 1559) ∧ strictlyRising tabs = true

theorem tabsFit_nil : tabsFit [] := ⟨Nat.zero_le _, nofun, rfl⟩

theorem tabsFit.insertStop {x : Nat} {tabs : List Nat} (h : tabsFit tabs) (hx : x ≤ 1559) (hnew : x ∉ tabs)
    (hroom : tabs.length < 16) : tabsFit (insertStop x tabs) := by
  obtain ⟨-, hle, hrise⟩ := h
  refine ⟨by rw [insertStop_length]; exact hroom, fun y hy => ?_, strictlyRising_insertStop hnew hrise⟩
  rcases (mem_insertStop x y tabs).1 hy with rfl | hy
  · exact hx
  · exact hle y hy

theorem tabsFit.filter {tabs : List Nat} (h : tabsFit tabs) (keep : Nat → Bool) : tabsFit (tabs.filter keep) := by
  obtain ⟨hlen, hle, hrise⟩ := h
  exact ⟨(List.length_filter_le _ _).trans hlen, fun y hy => hle y (List.mem_of_mem_filter hy),
    strictlyRising_filter keep hrise⟩

/-! ### The Format Record (R47) -/

theorem clamp_mem {least most : Nat} (n : Nat) (h : least ≤ most) :
    least ≤ clamp least most n ∧ clamp least most n ≤ most := by
  unfold clamp; omega

theorem marginsFit_iff {left right : Nat} : marginsFit left right = true
    ↔ left ≤ 1440 ∧ 120 ≤ right ∧ right ≤ 1560 ∧ left + 120 ≤ right := by
  simp [marginsFit, and_assoc]

namespace FormatRecord
variable {f : FormatRecord}

/-- R47: the ranges of the fields, margins and tab stops by themselves. -/
theorem inRange_iff : f.inRange = true ↔ marginsFit f.left f.right = true ∧ tabsFit f.tabs
    ∧ (2 ≤ f.lineSpacing ∧ f.lineSpacing ≤ 4) ∧ f.zone ≤ 240 ∧ 24 ≤ f.pageLength ∧ f.pageLength ≤ 204 := by
  simp [inRange, marginsFit, tabsFit, and_assoc]

theorem inRange_margins {left right : Nat} (hnew : marginsFit left right = true) (h : f.inRange = true) :
    inRange { f with left := left, right := right } = true := by
  obtain ⟨-, hrest⟩ := inRange_iff.1 h
  exact inRange_iff.2 ⟨hnew, hrest⟩

theorem inRange_tabs {tabs : List Nat} (hnew : tabsFit f.tabs → tabsFit tabs) (h : f.inRange = true) :
    inRange { f with tabs := tabs } = true := by
  obtain ⟨hmargins, htabs, hrest⟩ := inRange_iff.1 h
  exact inRange_iff.2 ⟨hmargins, hnew htabs, hrest⟩

theorem inRange_lineSpacing (n : Nat) (h : f.inRange = true) : inRange { f with lineSpacing := clamp 2 4 n } = true := by
  obtain ⟨hmargins, htabs, -, hrest⟩ := inRange_iff.1 h
  exact inRange_iff.2 ⟨hmargins, htabs, clamp_mem n (by decide), hrest⟩

theorem inRange_zone (n : Nat) (h : f.inRange = true) : inRange { f with zone := clamp 0 240 n } = true := by
  obtain ⟨hmargins, htabs, hspacing, -, hpage⟩ := inRange_iff.1 h
  exact inRange_iff.2 ⟨hmargins, htabs, hspacing, (clamp_mem n (by decide)).2, hpage⟩

theorem inRange_pageLength (n : Nat) (h : f.inRange = true) : inRange { f with pageLength := clamp 24 204 n } = true := by
  obtain ⟨hmargins, htabs, hspacing, hzone, -⟩ := inRange_iff.1 h
  exact inRange_iff.2 ⟨hmargins, htabs, hspacing, hzone, clamp_mem n (by decide)⟩

theorem inRange_setWrap (p : Port) (v : Bool) : (f.setWrap p v).inRange = f.inRange := by cases p <;> rfl

theorem inRange_setJustify (p : Port) (v : Bool) : (f.setJustify p v).inRange = f.inRange := by cases p <;> rfl

end FormatRecord

/-! ### A Format Record replaced (R42, R50) -/

@[simp] theorem relayLine_format (s : State) : (relayLine s).format = s.format := (relayLine_frame s).same .format

@[simp] theorem setFormat_format (f : FormatRecord) (s : State) : (setFormat f s).format = f := relayLine_format _

@[simp] theorem setFormat_partition (f : FormatRecord) (s : State) : (setFormat f s).partition = s.partition :=
  (relayLine_frame { s with format := f }).same .partition

@[simp] theorem marginsMoved_format (s : State) : (marginsMoved s).format = s.format := by
  unfold marginsMoved; split <;> rfl

@[simp] theorem marginsMoved_partition (s : State) : (marginsMoved s).partition = s.partition := by
  unfold marginsMoved; split <;> rfl

/-! ### What the invariants of the settings keep -/

/-- The Format Record stays in range, and the partition valid. -/
def keepsSettings (s t : State) : Prop := (formatInv s → formatInv t) ∧ (partitionInv s → partitionInv t)

theorem settingsStand.keeps {s t : State} (h : settingsStand s t) : keepsSettings s t := by
  obtain ⟨hf, hp⟩ := h
  exact ⟨fun i => by unfold formatInv; rw [hf]; exact i, fun i => by unfold partitionInv; rw [hp]; exact i⟩

theorem keepsSettings.trans {s t u : State} (h : keepsSettings s t) (k : keepsSettings t u) : keepsSettings s u :=
  ⟨fun i => k.1 (h.1 i), fun i => k.2 (h.2 i)⟩

theorem keepsSettings.refl (s : State) : keepsSettings s s := ⟨id, id⟩

/-- A Format Record replaced by one that is in range if the old one was. -/
theorem setFormat_keepsSettings {f : FormatRecord} {s u : State} (hu : u.partition = s.partition)
    (h : s.format.inRange = true → f.inRange = true) : keepsSettings s (setFormat f u) :=
  ⟨fun i => by unfold formatInv; rw [setFormat_format]; exact h i,
    fun i => by unfold partitionInv; rw [setFormat_partition, hu]; exact i⟩

/-! ### The Format commands (R48, R49) -/

theorem formatCommand_keepsSettings (p : Port) {act : State → State × Reply} {s : State} (h : keepsSettings s (act s).1) :
    keepsSettings s (formatCommand p act s).1 := by
  unfold formatCommand; split
  · exact h
  · exact .refl s

theorem cmdSetMargins_keepsSettings (p : Port) (left right : Half) (s : State) :
    keepsSettings s (cmdSetMargins p left right s).1 := by
  refine formatCommand_keepsSettings p ?_
  split
  · rename_i hfit; exact setFormat_keepsSettings (marginsMoved_partition s) (FormatRecord.inRange_margins hfit)
  · exact .refl s

theorem cmdSetTab_keepsSettings (p : Port) (x : Half) (s : State) : keepsSettings s (cmdSetTab p x s).1 := by
  refine formatCommand_keepsSettings p ?_
  dsimp only
  split
  · exact .refl s
  split
  · exact .refl s
  split
  · exact .refl s
  · rename_i hx hnew hroom
    exact setFormat_keepsSettings rfl (FormatRecord.inRange_tabs fun h =>
      h.insertStop (Nat.le_of_not_lt hx) (by simpa using hnew) (Nat.lt_of_not_le hroom))

theorem cmdClearTab_keepsSettings (p : Port) (x : Half) (s : State) : keepsSettings s (cmdClearTab p x s).1 := by
  refine formatCommand_keepsSettings p ?_
  dsimp only; split
  · exact setFormat_keepsSettings rfl (FormatRecord.inRange_tabs fun h => h.filter _)
  · exact .refl s

theorem cmdClearAllTabs_keepsSettings (p : Port) (s : State) : keepsSettings s (cmdClearAllTabs p s).1 :=
  formatCommand_keepsSettings p (setFormat_keepsSettings rfl (FormatRecord.inRange_tabs fun _ => tabsFit_nil))

theorem cmdSetSpacing_keepsSettings (p : Port) (v : Byte) (s : State) : keepsSettings s (cmdSetSpacing p v s).1 := by
  refine formatCommand_keepsSettings p ?_
  split
  · exact setFormat_keepsSettings rfl id
  · exact .refl s

theorem cmdSetLineSpacing_keepsSettings (p : Port) (v : Byte) (s : State) :
    keepsSettings s (cmdSetLineSpacing p v s).1 :=
  formatCommand_keepsSettings p (setFormat_keepsSettings rfl (FormatRecord.inRange_lineSpacing _))

theorem cmdSetImpression_keepsSettings (p : Port) (v : Byte) (s : State) :
    keepsSettings s (cmdSetImpression p v s).1 := by
  refine formatCommand_keepsSettings p ?_
  split
  · exact setFormat_keepsSettings rfl id
  · exact .refl s

theorem cmdSetMarginZone_keepsSettings (p : Port) (v : Half) (s : State) :
    keepsSettings s (cmdSetMarginZone p v s).1 :=
  formatCommand_keepsSettings p (setFormat_keepsSettings rfl (FormatRecord.inRange_zone _))

theorem cmdSetPageLength_keepsSettings (p : Port) (v : Byte) (s : State) :
    keepsSettings s (cmdSetPageLength p v s).1 :=
  formatCommand_keepsSettings p (setFormat_keepsSettings rfl (FormatRecord.inRange_pageLength _))

/-! ### Options and the partition (R188, R192) -/

theorem stopHolding_settings (s : State) : settingsStand s (stopHolding s) := .ite ⟨rfl, rfl⟩ (.refl s)

theorem spellingStored_settings (p : Port) (on : Bool) (s : State) : settingsStand s (spellingStored p on s) := by
  have hdrop : settingsStand s (dropLineSpelling s.line.serial s) := .of_frame (dropLineSpelling_frame _ s) (by decide)
  exact .ite (.ite (hdrop.trans (.of_frame (rebuildWords_frame false _) (by decide)))
    (hdrop.trans (stopHolding_settings { dropLineSpelling s.line.serial s with line := _ }))) (.refl s)

/-- R42, R188: Wrap and Justify are the only options that the Format Record holds, and they have no range. -/
theorem storeSwitch_keepsSettings (o : OptionId) (p : Port) (v : Bool) (s : State) :
    keepsSettings s (storeSwitch o p v s) := by
  have hoptions (x : Options) : settingsStand s { s with options := x } := ⟨rfl, rfl⟩
  cases o with
  | entryMode => exact (hoptions _).keeps
  | keyboardSharing => exact (settingsStand.ite (hoptions _) ((hoptions _).trans (cancelAwaits_settings _))).keeps
  | spelling => exact ((hoptions _).trans (spellingStored_settings .console v _)).settle.keeps
  | spellHold => exact (settingsStand.ite (hoptions _) ((hoptions _).trans (stopHolding_settings _))).keeps
  | doneTone => exact (hoptions _).keeps
  | linkSpelling => exact ((hoptions _).trans (spellingStored_settings .link v _)).settle.keeps
  | wrap => exact ⟨fun i => (FormatRecord.inRange_setWrap p v).trans i, id⟩
  | justify => exact ⟨fun i => (FormatRecord.inRange_setJustify p v).trans i, id⟩
  | restDelay => exact .refl s
  | holdLimit => exact .refl s

theorem storeNumber_settings (o : OptionId) (n : Nat) (s : State) : settingsStand s (storeNumber o n s) := by
  have hoptions (x : Options) : settingsStand s { s with options := x } := ⟨rfl, rfl⟩
  unfold storeNumber; split
  · exact (hoptions _).trans (restartRest_settings _)
  · exact hoptions _
  · exact .refl s

theorem cmdSetOption_keepsSettings (p : Port) (id : Byte) (value : Half) (s : State) :
    keepsSettings s (cmdSetOption p id value s).1 := by
  unfold cmdSetOption
  split
  · exact .refl s
  split
  · exact .refl s
  split
  · exact (storeNumber_settings _ _ s).keeps
  split
  · exact .refl s
  · exact storeSwitch_keepsSettings _ p _ s

/-- R192: a partition is stored only when it is valid. -/
theorem cmdPartition_keepsSettings (pool words linkRing consoleRing : Half) (s : State) :
    keepsSettings s (cmdPartition pool words linkRing consoleRing s).1 := by
  unfold cmdPartition; dsimp only
  split
  · exact .refl s
  split
  · exact .refl s
  split
  · exact .refl s
  · rename_i hvalid _
    obtain ⟨hformat, hpartition⟩ : settingsStand _ (emptyMemory { s with partition :=
      ⟨pool.toNat, words.toNat, linkRing.toNat, consoleRing.toNat⟩ }) := .of_frame (emptyMemory_frame _) (by decide)
    refine ⟨fun i => ?_, fun _ => ?_⟩
    · unfold formatInv; rw [hformat]; exact i
    · unfold partitionInv; rw [hpartition]; simpa using hvalid

/-! ### Every block and every event -/

/-- R174: whatever a command's owner does, it keeps both. -/
theorem owner_keepsSettings {c : Instr} {f : State → State × Reply} (h : ownerOf c = some f) (s : State) :
    keepsSettings s (f s).1 := by
  cases c <;> cases h
  case setOption => exact cmdSetOption_keepsSettings _ _ _ s
  case partition => exact cmdPartition_keepsSettings _ _ _ _ s
  case setMargins => exact cmdSetMargins_keepsSettings _ _ _ s
  case setTab => exact cmdSetTab_keepsSettings _ _ s
  case clearTab => exact cmdClearTab_keepsSettings _ _ s
  case clearAllTabs => exact cmdClearAllTabs_keepsSettings _ s
  case setSpacing => exact cmdSetSpacing_keepsSettings _ _ s
  case setLineSpacing => exact cmdSetLineSpacing_keepsSettings _ _ s
  case setImpression => exact cmdSetImpression_keepsSettings _ _ s
  case setMarginZone => exact cmdSetMarginZone_keepsSettings _ _ s
  case setPageLength => exact cmdSetPageLength_keepsSettings _ _ s
  all_goals refine settingsStand.keeps ?_
  case readStatus => exact cmdReadStatus_settings _ s
  case setNotices => exact cmdSetNotices_settings _ _ _ _ s
  case restart => exact cmdRestart_settings s
  case keyStroke => exact cmdKeyStroke_settings _ _ s
  case typeText => exact cmdTypeText_settings _ s
  case releaseLine => exact cmdReleaseLine_settings _ s
  case awaitKeys => exact cmdAwaitKeys_settings _ _ _ s
  case cancelAwait => exact cancelAwaits_settings s
  case readFormat => exact .refl s
  case feed => exact cmdFeed_settings _ _ s
  case formFeed => exact cmdFormFeed_settings _ s
  case cancelPrinting p => exact (settingsStand.of_frame (cancelJobs_frame p s) (by decide)).settle
  case rehome => exact cmdRehome_settings s
  case wheelChange => exact cmdWheelChange_settings s
  case wheelMounted => exact cmdWheelMounted_settings s
  case loadSupply => exact cmdLoadSupply_settings _ _ _ s
  case liftLast => exact takeLift_settings _ _ _ s
  case liftWord => exact takeLift_settings _ _ _ s
  case liftLine => exact takeLift_settings _ _ _ s
  case liftBack => exact cmdLiftBack_settings _ _ _ s
  case retractLine => exact takeLift_settings _ _ _ s
  case relocate => exact cmdRelocate_settings s
  case readSuspect => exact cmdReadSuspect_settings _ s
  case ignoreSuspect => exact cmdIgnoreSuspect_settings _ s
  case addWordByIndex => exact cmdAddWordByIndex_settings _ s
  case addWord => exact cmdAddWord_settings _ s
  case removeWord => exact cmdRemoveWord_settings _ s
  case saveUserWords => exact cmdSaveUserWords_settings _ s
  case checkWord => exact cmdCheckWord_settings _ s
  case showMessage => exact cmdShowMessage_settings _ _ _ s
  case clearMessage => exact cmdClearMessage_settings _ s
  case setTones => exact cmdSetTones_settings _ _ _ s

section
variable (p : Port) (code : Byte) (count : Nat) {f : State → State × Reply} (s : State)

theorem owned_keepsSettings (hf : ∀ u, keepsSettings u (f u).1) :
    keepsSettings s (finish ((f (taken p s)).1.reply p code (f (taken p s)).2)) :=
  ((taken_settings p s).keeps.trans (hf _)).trans (settingsStand.answered p code _).keeps

theorem checked_settings (st : Status) : settingsStand s (finish ((taken p s).reply p code (.plain st))) :=
  (taken_settings p s).trans (.answered p code _)

theorem takeBlock_keepsSettings (hf : ∀ u, keepsSettings u (f u).1) : keepsSettings s (takeBlock p code count f s) := by
  unfold takeBlock; dsimp only; split
  · exact (checked_settings p code s _).keeps
  · exact owned_keepsSettings p code s hf

theorem offer_keepsSettings (hf : ∀ u, keepsSettings u (f u).1) : keepsSettings s (offer p code count f s) :=
  offer_keeps (P := keepsSettings s) (.refl s) (settingsStand.setPort s p _).keeps
    (fun st => (refusedBlock_settings p code st s).keeps) (fun st => (checked_settings p code s st).keeps)
    (owned_keepsSettings p code s hf)

theorem blockOwner_keepsSettings (data : List Byte) : keepsSettings s (blockOwner p code data s).1 := by
  cases h : (decodeBlock p code data).bind ownerOf with
  | none =>
    have e : blockOwner p code data = refuse .length := by rw [blockOwner, h]
    rw [e]; exact .refl s
  | some f =>
    have e : blockOwner p code data = f := by rw [blockOwner, h]
    obtain ⟨c, -, hc⟩ := Option.bind_eq_some_iff.1 h
    rw [e]; exact owner_keepsSettings hc s

end

theorem writeByte_keepsSettings (p : Port) (b : Byte) (s : State) : keepsSettings s (writeByte p b s) := by
  have hassemble (bytes : List Byte) : keepsSettings s (assemble p bytes s) := (settingsStand.setPort s p _).keeps
  unfold writeByte takeByte
  split
  · exact .refl s
  split
  · exact (settingsStand.setPort s p _).keeps
  split
  · split
    · exact (refusedBlock_settings p _ _ s).keeps
    split
    · exact hassemble _
    split
    · exact takeBlock_keepsSettings p _ _ s fun u => blockOwner_keepsSettings p _ u _
    · exact (refusedBlock_settings p _ _ s).keeps
  · exact hassemble _

/-- R47, R193: the Format Record and the partition of power-on are in range. -/
theorem reset_keepsSettings (s : State) : keepsSettings s { State.reset with pending := s.pending } :=
  ⟨fun _ => show FormatRecord.reset.inRange = true from rfl, fun _ => show Partition.reset.valid = true from rfl⟩

theorem eventOf_keepsSettings (c : Instr) (s : State) : keepsSettings s (eventOf c s) := by
  by_cases hpower : c = .powerOn
  · subst hpower; exact reset_keepsSettings s
  by_cases hline : c = .resetLine
  · subst hline; exact reset_keepsSettings s
  by_cases hbyte : ∃ p b, c = .dataWrite p b
  · obtain ⟨p, b, rfl⟩ := hbyte; exact writeByte_keepsSettings p b s
  · exact (eventOf_settings hpower hline (fun p b h => hbyte ⟨p, b, h⟩) s).keeps

/-- A step is a tick, an event or a block, each from the state without the command it takes. -/
theorem step_keepsSettings {s t : State} (h : step s = .next t) : keepsSettings s t := by
  unfold step at h
  split at h
  · rename_i c rest _
    have htaken : settingsStand s { s with pending := rest } := ⟨rfl, rfl⟩
    refine htaken.keeps.trans ?_
    cases hc : ownerOf c with
    | none => rw [exec_event hc] at h; cases h; exact eventOf_keepsSettings c _
    | some f =>
      obtain ⟨p, code, count, e⟩ := exec_block hc { s with pending := rest }
      rw [e] at h; cases h; exact offer_keepsSettings p code count _ (owner_keepsSettings hc)
  · cases h; exact (tick_settings s).keeps

/-- Settles O7: only the Format commands, Set Option, Partition and the resets store a Format Record or a partition, and
what they store is in range; everything else leaves both. -/
theorem stepKeepsFormatAndPartition : Obligations.StepKeepsFormatAndPartition := by
  unfold Obligations.StepKeepsFormatAndPartition
  exact ⟨fun _ _ i h => (step_keepsSettings h).1 i, fun _ _ i h => (step_keepsSettings h).2 i⟩

/-! ### The invariants at reset -/

theorem PortState.reset_ordered : PortState.reset.ordered :=
  ⟨Nat.zero_le _, fun _ => rfl, fun _ => rfl, fun _ _ _ => Nat.zero_le _, Nat.zero_le _⟩

/-- Settles O15: every list is empty, the line is Free, both timers rest and the display is blank until the start-up
ends. -/
theorem invariantsAtReset : Obligations.InvariantsAtReset := by
  unfold Obligations.InvariantsAtReset
  exact ⟨rfl, rfl, Nat.zero_le _, Nat.zero_le _, ⟨Nat.zero_le _, Nat.zero_le _⟩, Nat.zero_le _, ⟨rfl, Nat.zero_le _⟩,
    ⟨PortState.reset_ordered, PortState.reset_ordered⟩, Nat.zero_le _, WorkingLine.fits_free, rfl, rfl⟩

end Sys2Proof.Machine

/-! SUPPORT. The Format commands (R42, R48 to R50): who may give them, what each stores or refuses, and what a new layout
leaves of the working line. -/

namespace Sys2Proof.Machine

/-! ### A new layout (R33, R50) -/

theorem relayLine_unloaded {s : State} (hm : s.engine.petalMap = none) : relayLine s = s := by
  unfold relayLine; rw [hm]

/-- R33, R50: a Free line's compose position becomes the new left margin where that is due. -/
theorem relayLine_free {s : State} (hm : s.engine.petalMap.isSome = true) (hh : s.line.holder = none)
    (hp : s.line.phase = .free) (hd : s.composer.leftDue = true) :
    relayLine s = { s with composer := { s.composer with position := s.format.left, leftDue := false } } := by
  obtain ⟨m, hm⟩ := Option.isSome_iff_exists.1 hm
  unfold relayLine; simp [hm, hh, hp, hd]

/-- R50: a new Format Record leaves of the line and the composer all but what the layout computes; whether a left margin is
due may have changed before it. -/
theorem setFormat_relaidOnly (f : FormatRecord) {s u : State} (hl : u.line = s.line) (he : u.engine = s.engine)
    (hc : u.composer = { s.composer with leftDue := u.composer.leftDue }) : relaidOnly s (setFormat f u) := by
  refine ⟨?_, ?_, ?_, fun hm => ?_, fun m hm hh hmode => ?_⟩
  · rw [← hl]; exact relayLine_line _
  · rw [← hl]; exact relayLine_content _
  · obtain ⟨x, d, h⟩ := relayLine_composer { u with format := f }
    unfold setFormat; rw [h]; dsimp only; rw [hc]
  · unfold setFormat
    rw [relayLine_unloaded (by exact he ▸ hm)]
    exact ⟨hl, by dsimp only; rw [hc]⟩
  · unfold setFormat
    rw [relayLine_lineMode (s := { u with format := f }) (m := m) (by exact he ▸ hm)
      (by rw [hl]; exact Option.isSome_iff_ne_none.1 hh) (by rw [hl]; exact hmode)]
    exact ⟨by rw [hl], by rw [hl]⟩

/-! ### New margins (R33, R48; log entry 11) -/

theorem marginsMoved_frame (s : State) : changesOnly [.composer] s (marginsMoved s) :=
  .ite (composer_frame s _) (.refl _ _)

theorem marginsMoved_composer (s : State) :
    (marginsMoved s).composer = { s.composer with leftDue := (marginsMoved s).composer.leftDue } := by
  unfold marginsMoved; split <;> rfl

section
variable (f : FormatRecord) {s : State} (hp : s.line.phase = .free)
include hp

theorem setFormat_marginsMoved_loaded (hh : s.line.holder = none) (hm : s.engine.petalMap.isSome = true) :
    setFormat f (marginsMoved s)
      = { s with format := f, composer := { s.composer with position := f.left, leftDue := false } } := by
  unfold setFormat marginsMoved; rw [if_pos hp, relayLine_free (by exact hm) (by exact hh) (by exact hp) rfl]

theorem setFormat_marginsMoved_unloaded (hm : s.engine.petalMap = none) :
    setFormat f (marginsMoved s) = { s with format := f, composer := { s.composer with leftDue := true } } := by
  unfold setFormat marginsMoved; rw [if_pos hp, relayLine_unloaded (by exact hm)]

end

/-! ### A block that stores a Format Record -/

theorem setFormat_frame (f : FormatRecord) (s : State) : changesOnly [.format, .line, .composer] s (setFormat f s) := by
  refine changesOnly.trans ?_ ((relayLine_frame _).mono (by decide))
  intro q hq; cases q <;> first | exact absurd hq (by decide) | rfl

theorem relaidOnly.congr {s t u : State} (h : relaidOnly s t) (hf : u.format = t.format) (hl : u.line = t.line)
    (hc : u.composer = t.composer) : relaidOnly s u := by
  unfold relaidOnly at h ⊢; rw [hf, hl, hc]; exact h

/-- R42, R176: the end of a block that has stored a Format Record. -/
def formatStored (p : Port) (code : Byte) (r : Reply) (f : FormatRecord) (u : State) : State :=
  finish ((setFormat f u).reply p code r)

section
variable (p : Port) (code : Byte) (r : Reply) (f : FormatRecord) (s : State)

@[simp] theorem formatStored_format (u : State) : (formatStored p code r f u).format = f := by
  unfold formatStored; rw [finish_format, State.reply_format, setFormat_format]

theorem formatStored_line (u : State) : (formatStored p code r f u).line = (setFormat f u).line := by
  unfold formatStored; rw [finish_line, State.reply_line]

theorem formatStored_composer (u : State) : (formatStored p code r f u).composer = (setFormat f u).composer := by
  unfold formatStored; rw [finish_composer, State.reply_composer]

theorem formatStored_relaid {u : State} (h : relaidOnly s (setFormat f u)) : relaidOnly s (formatStored p code r f u) :=
  h.congr (by rw [formatStored_format, setFormat_format]) (formatStored_line p code r f u)
    (formatStored_composer p code r f u)

/-- What a block leaves whose command stores a Format Record and does no more. -/
theorem formatStored_taken : blockDone [.format, .line, .composer] p code r s (formatStored p code r f (taken p s))
    ∧ relaidOnly s (formatStored p code r f (taken p s)) :=
  ⟨blockDone_of (setFormat_frame f _) (by cases p <;> decide) (by decide),
    formatStored_relaid p code r f s (setFormat_relaidOnly f (taken_line p s) (taken_engine p s) (by rw [taken_composer]))⟩

/-- R48: what a block leaves whose command stores margins. -/
theorem formatStored_margins :
    blockDone [.format, .line, .composer] p code r s (formatStored p code r f (marginsMoved (taken p s)))
      ∧ relaidOnly s (formatStored p code r f (marginsMoved (taken p s))) := by
  have hm := marginsMoved_frame (taken p s)
  refine ⟨blockDone_of ((hm.mono (by decide)).trans (setFormat_frame f _)) (by cases p <;> decide) (by decide),
    formatStored_relaid p code r f s (setFormat_relaidOnly f ?_ ?_ ?_)⟩
  · exact (hm.same .line).trans (taken_line p s)
  · exact (hm.same .engine).trans (taken_engine p s)
  · rw [marginsMoved_composer, taken_composer]

end

/-! ### The command's owner (R42) -/

@[simp] theorem ownsFormat_taken (p q : Port) (s : State) : ownsFormat p (taken q s) = ownsFormat p s := by
  unfold ownsFormat; rw [taken_line]

/-- R42: Busy for the port that does not hold a claimed line. -/
theorem formatCommand_busy {p : Port} {code : Byte} {count : Nat} {act : State → State × Reply} {s : State}
    (hf : portFree p s) (hn : count ≤ 30) (hc : checkBlock p code count = none) (ho : ownsFormat p s = false) :
    ∃ t, runBlock p code count (formatCommand p act) s = .next t ∧ blockOnly p code (.plain .busy) s t := by
  have hcmd : formatCommand p act (taken p s) = refuse .busy (taken p s) :=
    if_neg (by rw [ownsFormat_taken, ho]; decide)
  exact ⟨_, runBlock_taken hf hn hc, by rw [hcmd]; exact blockOnly_refused p code _ s⟩

/-- R42: for its owner a Format command does what its row says. -/
theorem formatCommand_owned {p : Port} {code : Byte} {count : Nat} {act : State → State × Reply} {s : State}
    (hf : portFree p s) (hn : count ≤ 30) (hc : checkBlock p code count = none) (ho : ownsFormat p s = true) :
    runBlock p code count (formatCommand p act) s
      = .next (finish ((act (taken p s)).1.reply p code (act (taken p s)).2)) := by
  have hcmd : formatCommand p act (taken p s) = act (taken p s) := if_pos (by rw [ownsFormat_taken]; exact ho)
  rw [runBlock_taken hf hn hc, hcmd]

/-! ### Margins and tab stops (R48) -/

theorem exec_setMargins_owned {p : Port} {l r : Half} {s : State} (hf : portFree p s) (ho : ownsFormat p s = true) :
    exec (.setMargins p l r) s = .next (if marginsFit l.toNat r.toNat
      then formatStored p 0x20 (.plain .done) { s.format with left := l.toNat, right := r.toNat } (marginsMoved (taken p s))
      else finish ((taken p s).reply p 0x20 (.plain .range))) := by
  refine (formatCommand_owned hf (by decide) (by cases p <;> rfl) ho).trans (congrArg Host.Outcome.next ?_)
  rw [taken_format]; split <;> rfl

theorem exec_setTab_owned {p : Port} {x : Half} {s : State} (hf : portFree p s) (ho : ownsFormat p s = true) :
    exec (.setTab p x) s = .next (
      if 1559 < x.toNat then finish ((taken p s).reply p 0x21 (.plain .range))
      else if x.toNat ∈ s.format.tabs then finish ((taken p s).reply p 0x21 (.plain .done))
      else if 16 ≤ s.format.tabs.length then finish ((taken p s).reply p 0x21 (.plain .full))
      else formatStored p 0x21 (.plain .done) { s.format with tabs := insertStop x.toNat s.format.tabs } (taken p s)) := by
  refine (formatCommand_owned hf (by decide) (by cases p <;> rfl) ho).trans (congrArg Host.Outcome.next ?_)
  simp only [taken_format, List.contains_iff_mem]
  split
  · rfl
  split
  · rfl
  split <;> rfl

theorem exec_clearTab_owned {p : Port} {x : Half} {s : State} (hf : portFree p s) (ho : ownsFormat p s = true) :
    exec (.clearTab p x) s = .next (if x.toNat ∈ s.format.tabs
      then formatStored p 0x22 (.plain .done) { s.format with tabs := s.format.tabs.filter (· != x.toNat) } (taken p s)
      else finish ((taken p s).reply p 0x22 (.plain .noTarget))) := by
  refine (formatCommand_owned hf (by decide) (by cases p <;> rfl) ho).trans (congrArg Host.Outcome.next ?_)
  simp only [taken_format, List.contains_iff_mem]
  split <;> rfl

theorem exec_clearAllTabs_owned {p : Port} {s : State} (hf : portFree p s) (ho : ownsFormat p s = true) :
    exec (.clearAllTabs p) s = .next (formatStored p 0x23 (.plain .done) { s.format with tabs := [] } (taken p s)) := by
  refine (formatCommand_owned hf (by decide) (by cases p <;> rfl) ho).trans (congrArg Host.Outcome.next ?_)
  rw [taken_format]; rfl

/-- Settles O32: each premise picks a branch of the command, which refuses the block or stores a Format Record; margins on a
Free line make the left one due. -/
theorem marginAndTabCommands : Obligations.MarginAndTabCommands := by
  unfold Obligations.MarginAndTabCommands
  refine ⟨fun p l r x s hf ho => ?busy, fun p l r s hf hline ho => ?margins, fun p x s hf ho => ?setTab,
    fun p x s hf ho => ⟨?clearTab, ?clearAll⟩⟩
  case busy =>
    exact ⟨formatCommand_busy hf (by decide) (by cases p <;> rfl) ho, formatCommand_busy hf (by decide) (by cases p <;> rfl) ho,
      formatCommand_busy hf (by decide) (by cases p <;> rfl) ho, formatCommand_busy hf (by decide) (by cases p <;> rfl) ho⟩
  case margins =>
    refine ⟨_, exec_setMargins_owned hf ho, fun hout => ?_, fun h1 h2 h3 h4 => ?_⟩
    · rw [if_neg (mt marginsFit_iff.1 hout)]; exact blockOnly_refused _ _ _ s
    · rw [if_pos (marginsFit_iff.2 ⟨h1, h2, h3, h4⟩), formatStored_line, formatStored_composer, formatStored_format]
      obtain ⟨hdone, hrelaid⟩ := formatStored_margins p 0x20 (.plain .done)
        { s.format with left := l.toNat, right := r.toNat } s
      have hfree (hphase : s.line.phase = .free) : (taken p s).line.phase = .free := by rw [taken_line]; exact hphase
      refine ⟨hdone, rfl, hrelaid, fun hphase hm => ?_, fun hphase hm => ?_⟩
      · have hholder : (taken p s).line.holder = none := by rw [taken_line]; exact hline.1.1 hphase
        rw [setFormat_marginsMoved_loaded _ (hfree hphase) hholder (by rw [taken_engine]; exact hm), taken_composer]
        exact ⟨taken_line p s, rfl⟩
      · rw [setFormat_marginsMoved_unloaded _ (hfree hphase) (by rw [taken_engine]; exact hm), taken_composer]
        exact ⟨taken_line p s, rfl⟩
  case setTab =>
    refine ⟨_, exec_setTab_owned hf ho, fun hx => ?_, fun hx hmem => ?_, fun hx hnew hfull => ?_, fun hx hnew hroom => ?_⟩
    · rw [if_pos hx]; exact blockOnly_refused _ _ _ s
    · rw [if_neg (Nat.not_lt.2 hx), if_pos hmem]; exact blockOnly_refused _ _ _ s
    · rw [if_neg (Nat.not_lt.2 hx), if_neg hnew, if_pos hfull]; exact blockOnly_refused _ _ _ s
    · rw [if_neg (Nat.not_lt.2 hx), if_neg hnew, if_neg (Nat.not_le.2 hroom), formatStored_format]
      obtain ⟨hdone, hrelaid⟩ := formatStored_taken p 0x21 (.plain .done)
        { s.format with tabs := insertStop x.toNat s.format.tabs } s
      exact ⟨hdone, hrelaid, rfl, fun y => mem_insertStop _ y _, insertStop_length _ _, strictlyRising_insertStop hnew⟩
  case clearTab =>
    refine ⟨_, exec_clearTab_owned hf ho, fun hnone => ?_, fun hmem => ?_⟩
    · rw [if_neg hnone]; exact blockOnly_refused _ _ _ s
    · rw [if_pos hmem, formatStored_format]
      obtain ⟨hdone, hrelaid⟩ := formatStored_taken p 0x22 (.plain .done)
        { s.format with tabs := s.format.tabs.filter (· != x.toNat) } s
      exact ⟨hdone, hrelaid, rfl⟩
  case clearAll =>
    obtain ⟨hdone, hrelaid⟩ := formatStored_taken p 0x23 (.plain .done) { s.format with tabs := [] } s
    exact ⟨_, exec_clearAllTabs_owned hf ho, hdone, hrelaid, formatStored_format _ _ _ _ _⟩

/-! ### Named values and clamped ones (R49) -/

theorem spacingOf_none {v : Byte} (h : 3 < v.toNat) : spacingOf v = none := by
  unfold spacingOf; split <;> first | omega | rfl

theorem spacingOf_code {v : Byte} {m : Spacing} (h : spacingOf v = some m) : m.code = v.toNat := by
  unfold spacingOf at h; split at h <;> cases h <;> exact Eq.symm ‹_›

theorem impressionOf_none {v : Byte} (h : 2 < v.toNat) : impressionOf v = none := by
  unfold impressionOf; split <;> first | omega | rfl

theorem impressionOf_code {v : Byte} {i : Impression} (h : impressionOf v = some i) : i.code = v.toNat := by
  unfold impressionOf at h; split at h <;> cases h <;> exact Eq.symm ‹_›

theorem clamp_eq_self_iff {least most n : Nat} (h : least ≤ most) : clamp least most n = n ↔ least ≤ n ∧ n ≤ most := by
  unfold clamp; omega

/-- R49: Clamped exactly when the value sent is out of its range. -/
theorem clampedReply_clamp {least most : Nat} (n : Nat) (data : List Byte) (h : least ≤ most) :
    clampedReply n (clamp least most n) data
      = if least ≤ n ∧ n ≤ most then .plain .done else { status := .clamped, data := data } := by
  unfold clampedReply; simp only [clamp_eq_self_iff h]

theorem clampedReply_lineSpacing (n : Nat) (data : List Byte) : clampedReply n (clamp 2 4 n) data
    = if n = 2 ∨ n = 3 ∨ n = 4 then .plain .done else { status := .clamped, data := data } := by
  rw [clampedReply_clamp n data (by decide)]
  exact if_congr (by omega) rfl rfl

theorem clampedReply_zone (n : Nat) : clampedReply n (clamp 0 240 n) (two (clamp 0 240 n))
    = if n ≤ 240 then .plain .done else { status := .clamped, data := [0, 240] } := by
  rw [clampedReply_clamp n _ (by decide)]
  by_cases h : n ≤ 240
  · rw [if_pos ⟨Nat.zero_le n, h⟩, if_pos h]
  · have hmost : clamp 0 240 n = 240 := by unfold clamp; omega
    rw [if_neg (fun k => h k.2), if_neg h, hmost]; rfl

theorem clamp_lineSpacing (n : Nat) : clamp 2 4 n = if n ≤ 2 then 2 else if n = 3 then 3 else 4 := by
  unfold clamp; split
  · omega
  · split <;> omega

/-! ### The other Format commands (R49) -/

/-- R49: a command whose value names nothing is refused with Range. -/
theorem formatCommand_range {p : Port} {code : Byte} {count : Nat} {act : State → State × Reply} {s : State}
    (hf : portFree p s) (hn : count ≤ 30) (hc : checkBlock p code count = none) (ho : ownsFormat p s = true)
    (ha : act (taken p s) = refuse .range (taken p s)) :
    runBlock p code count (formatCommand p act) s = .next (finish ((taken p s).reply p code (.plain .range))) := by
  rw [formatCommand_owned hf hn hc ho, ha]; rfl

/-- R49: a command that stores a Format Record and answers Done. -/
theorem formatCommand_stored {p : Port} {code : Byte} {count : Nat} {act : State → State × Reply} {s : State}
    {f : FormatRecord} (hf : portFree p s) (hn : count ≤ 30) (hc : checkBlock p code count = none)
    (ho : ownsFormat p s = true) (ha : act (taken p s) = (setFormat f (taken p s), .plain .done)) :
    runBlock p code count (formatCommand p act) s = .next (formatStored p code (.plain .done) f (taken p s)) := by
  rw [formatCommand_owned hf hn hc ho, ha]; rfl

theorem exec_setLineSpacing_owned {p : Port} {v : Byte} {s : State} (hf : portFree p s) (ho : ownsFormat p s = true) :
    exec (.setLineSpacing p v) s = .next (formatStored p 0x25
      (clampedReply v.toNat (clamp 2 4 v.toNat) [byte (clamp 2 4 v.toNat)])
      { s.format with lineSpacing := clamp 2 4 v.toNat } (taken p s)) := by
  refine (formatCommand_owned hf (by decide) (by cases p <;> rfl) ho).trans (congrArg Host.Outcome.next ?_)
  rw [taken_format]; rfl

theorem exec_setMarginZone_owned {p : Port} {z : Half} {s : State} (hf : portFree p s) (ho : ownsFormat p s = true) :
    exec (.setMarginZone p z) s = .next (formatStored p 0x27
      (clampedReply z.toNat (clamp 0 240 z.toNat) (two (clamp 0 240 z.toNat)))
      { s.format with zone := clamp 0 240 z.toNat } (taken p s)) := by
  refine (formatCommand_owned hf (by decide) (by cases p <;> rfl) ho).trans (congrArg Host.Outcome.next ?_)
  rw [taken_format]; rfl

theorem exec_setPageLength_owned {p : Port} {v : Byte} {s : State} (hf : portFree p s) (ho : ownsFormat p s = true) :
    exec (.setPageLength p v) s = .next (formatStored p 0x28
      (clampedReply v.toNat (clamp 24 204 v.toNat) [byte (clamp 24 204 v.toNat)])
      { s.format with pageLength := clamp 24 204 v.toNat } (taken p s)) := by
  refine (formatCommand_owned hf (by decide) (by cases p <;> rfl) ho).trans (congrArg Host.Outcome.next ?_)
  rw [taken_format]; rfl

/-! ### The page end (R75) -/

theorem completeFeed_engine (n : Int) (s : State) :
    let platen := clampInt (-64) 8191 (s.engine.platen + n)
    let lines := if s.engine.pageLines < platen then platen else s.engine.pageLines
    (completeFeed n s).engine = { s.engine with
      platen := platen
      pageLines := lines
      pageEnd := s.engine.pageEnd || (decide (s.engine.pageLines < platen) && decide ((s.format.pageLength : Int) ≤ lines)
        && !s.engine.pageEnd) } := by
  have hclose (u : State) : (closeByFeed u).engine = u.engine := (closeByFeed_frame u).same .engine
  unfold completeFeed; dsimp only
  split
  · rw [State.notice_engine, hclose]
  · rw [hclose]

/-- R75: a feed that raises the page line count to the page length ends the page. -/
theorem completeFeed_pageEnd {n : Int} {s : State} (hlines : s.engine.pageLines < (completeFeed n s).engine.pageLines)
    (hlength : (s.format.pageLength : Int) ≤ (completeFeed n s).engine.pageLines) :
    (completeFeed n s).engine.pageEnd = true := by
  rw [completeFeed_engine] at hlines hlength ⊢
  dsimp only at hlines hlength ⊢
  have hraised : s.engine.pageLines < clampInt (-64) 8191 (s.engine.platen + n) := by
    by_contra h; rw [if_neg h] at hlines; exact lt_irrefl _ hlines
  rw [decide_eq_true hraised, decide_eq_true hlength]
  cases s.engine.pageEnd <;> rfl

/-- Settles O33: each command stores its value, clamped where it has a range, or refuses one that names nothing; what is
stored is the field that the strike energy, the Return feed and the page end read. -/
theorem otherFormatCommands : Obligations.OtherFormatCommands := by
  unfold Obligations.OtherFormatCommands
  refine ⟨fun p v z s hf ho => ?busy, fun p v s hf ho => ⟨?spacing, ?lineSpacing, ?impression, ?pageLength⟩,
    fun p z s hf ho => ?zone, fun m g f => ?read, fun n s _ hlines hlength => completeFeed_pageEnd hlines hlength⟩
  case busy =>
    exact ⟨formatCommand_busy hf (by decide) (by cases p <;> rfl) ho, formatCommand_busy hf (by decide) (by cases p <;> rfl) ho,
      formatCommand_busy hf (by decide) (by cases p <;> rfl) ho, formatCommand_busy hf (by decide) (by cases p <;> rfl) ho,
      formatCommand_busy hf (by decide) (by cases p <;> rfl) ho⟩
  case spacing =>
    cases hm : spacingOf v with
    | none =>
      exact ⟨_, formatCommand_range hf (by decide) (by cases p <;> rfl) ho (by dsimp only; rw [hm]),
        fun _ => blockOnly_refused _ _ _ s, nofun⟩
    | some m =>
      refine ⟨_, formatCommand_stored hf (by decide) (by cases p <;> rfl) ho (by dsimp only; rw [hm]), fun hv => ?_,
        fun _ h => ?_⟩
      · rw [spacingOf_none hv] at hm; cases hm
      · cases h
        rw [taken_format, formatStored_format]
        obtain ⟨hdone, hrelaid⟩ := formatStored_taken p 0x24 (.plain .done) { s.format with spacing := m } s
        exact ⟨hdone, hrelaid, rfl, spacingOf_code hm⟩
  case lineSpacing =>
    refine ⟨_, exec_setLineSpacing_owned hf ho, ?_⟩
    rw [formatStored_format, ← clamp_lineSpacing, clampedReply_lineSpacing]
    obtain ⟨hdone, hrelaid⟩ := formatStored_taken p 0x25 _ { s.format with lineSpacing := clamp 2 4 v.toNat } s
    exact ⟨rfl, hrelaid, hdone⟩
  case impression =>
    cases hi : impressionOf v with
    | none =>
      exact ⟨_, formatCommand_range hf (by decide) (by cases p <;> rfl) ho (by dsimp only; rw [hi]),
        fun _ => blockOnly_refused _ _ _ s, nofun⟩
    | some i =>
      refine ⟨_, formatCommand_stored hf (by decide) (by cases p <;> rfl) ho (by dsimp only; rw [hi]), fun hv => ?_,
        fun _ h => ?_⟩
      · rw [impressionOf_none hv] at hi; cases hi
      · cases h
        rw [taken_format, formatStored_format]
        obtain ⟨hdone, hrelaid⟩ := formatStored_taken p 0x26 (.plain .done) { s.format with impression := i } s
        exact ⟨hdone, hrelaid, rfl, impressionOf_code hi⟩
  case pageLength =>
    refine ⟨_, exec_setPageLength_owned hf ho, ?_⟩
    rw [formatStored_format, clampedReply_clamp _ _ (by decide)]
    obtain ⟨hdone, hrelaid⟩ := formatStored_taken p 0x28 _ { s.format with pageLength := clamp 24 204 v.toNat } s
    exact ⟨rfl, hrelaid, hdone⟩
  case zone =>
    refine ⟨_, exec_setMarginZone_owned hf ho, ?_⟩
    rw [formatStored_format, clampedReply_zone]
    obtain ⟨hdone, hrelaid⟩ := formatStored_taken p 0x27 _ { s.format with zone := clamp 0 240 z.toNat } s
    exact ⟨by unfold clamp; rw [Nat.zero_max], hrelaid, hdone⟩
  case read =>
    refine ⟨rfl, fun s hs => ?_, rfl⟩
    subst hs; rfl

end Sys2Proof.Machine

/-! SUPPORT. The bounds of the five collections (R65, R97, R136, R139, R140): what the Spelling Unit, Correction Memory and
the Strike Engine do to them. -/

namespace Sys2Proof.Machine

/-! ### The five bounds together -/

/-- R65, R97, R136, R139, R140: each of the bounded collections stays within its bound. -/
def staysBounded (s t : State) : Prop :=
  (queueInv s → queueInv t) ∧ (recordsInv s → recordsInv t) ∧ (suspectsInv s → suspectsInv t)
    ∧ (spellQueueInv s → spellQueueInv t)

namespace staysBounded
variable {s t u : State}

theorem refl (s : State) : staysBounded s s := ⟨id, id, id, id⟩

theorem trans (h : staysBounded s t) (k : staysBounded t u) : staysBounded s u :=
  ⟨fun i => k.1 (h.1 i), fun i => k.2.1 (h.2.1 i), fun i => k.2.2.1 (h.2.2.1 i), fun i => k.2.2.2 (h.2.2.2 i)⟩

theorem after (k : staysBounded t u) (h : staysBounded s t) : staysBounded s u := h.trans k

theorem ite {c : Prop} [Decidable c] (ht : staysBounded s t) (hu : staysBounded s u) :
    staysBounded s (if c then t else u) := by split <;> assumption

theorem foldl {α : Type} (f : State → α → State) (hf : ∀ t x, staysBounded t (f t x)) (l : List α) (s : State) :
    staysBounded s (l.foldl f s) := by
  induction l generalizing s with
  | nil => exact refl s
  | cons x l ih => exact (hf s x).trans (ih _)

/-- A frame without the three parts that hold the collections. -/
theorem of_frame {parts : List Part} (h : changesOnly parts s t)
    (hp : .engine ∉ parts ∧ .memory ∉ parts ∧ .spelling ∉ parts) : staysBounded s t := by
  have he : t.engine = s.engine := h .engine hp.1
  have hm : t.memory = s.memory := h .memory hp.2.1
  have hs : t.spelling = s.spelling := h .spelling hp.2.2
  simp only [staysBounded, queueInv, recordsInv, suspectsInv, spellQueueInv, he, hm, hs]
  exact ⟨id, id, id, id⟩

/-- A change of the engine that does not lengthen the Print Queue. -/
theorem engine (s : State) (e : Engine) (h : e.queue.length ≤ s.engine.queue.length) : staysBounded s { s with engine := e } :=
  ⟨h.trans, id, id, id⟩

/-- A change of Correction Memory that adds no record. -/
theorem memory (s : State) (m : CorrectionMemory) (h : m.records.length ≤ s.memory.records.length) :
    staysBounded s { s with memory := m } :=
  ⟨id, h.trans, id, id⟩

/-- A change of the Spelling Unit that lengthens none of its lists. -/
theorem spelling (s : State) (u : Spelling) (hx : u.suspects.length ≤ s.spelling.suspects.length)
    (hw : u.printWait.length ≤ s.spelling.printWait.length) (hq : u.queue.length ≤ s.spelling.queue.length) :
    staysBounded s { s with spelling := u } :=
  ⟨id, id, fun i => ⟨hx.trans i.1, hw.trans i.2⟩, hq.trans⟩

theorem finish (h : staysBounded s t) : staysBounded s (finish t) := h.trans (of_frame (finish_frame t) (by decide))

theorem notice (h : staysBounded s t) (p : Port) (b : Block) : staysBounded s (t.notice p b) :=
  h.trans (of_frame (t.notice_frame p b) (by cases p <;> decide))

theorem noticeBoth (h : staysBounded s t) (b : Block) : staysBounded s (t.noticeBoth b) :=
  h.trans (of_frame (t.noticeBoth_frame b) (by decide))

theorem reply (h : staysBounded s t) (p : Port) (code : Byte) (r : Reply) : staysBounded s (t.reply p code r) :=
  h.trans (of_frame (t.reply_frame p code r) (by cases p <;> decide))

theorem tone (h : staysBounded s t) (name : ToneName) : staysBounded s (t.tone name) := h.trans ⟨id, id, id, id⟩

end staysBounded

/-! ### The Spelling Unit (R136, R139, R140) -/

theorem Spelling.room_iff (u : Spelling) : u.room = true ↔ u.queue.length < Config.spellEntries := by simp [room]

/-- R136: an entry joins the spell queue only where there is room. -/
theorem joinSpellQueue_staysBounded (e : SpellEntry) (s : State) (h : s.spelling.room = true) :
    staysBounded s (joinSpellQueue e s) := by
  refine ⟨id, id, id, fun _ => ?_⟩
  have hlt := (Spelling.room_iff _).1 h
  unfold spellQueueInv joinSpellQueue
  rw [List.length_append]; exact hlt

theorem attemptWord_staysBounded (first : Nat) (s : State) : staysBounded s (attemptWord first s) := by
  have hset (g : WordRecord → WordRecord) (t : State) : staysBounded t (setWord first g t) := ⟨id, id, id, id⟩
  unfold attemptWord; split
  · split
    · dsimp only; split
      · exact hset _ s
      split
      · exact .refl s
      split
      · exact hset _ s
      · rename_i hroom _
        exact (joinSpellQueue_staysBounded _ s (by simpa using hroom)).trans (hset _ _)
    · exact .refl s
  · exact .refl s

theorem attemptWords_staysBounded (firsts : List Nat) (s : State) : staysBounded s (attemptWords firsts s) :=
  .foldl _ (fun t f => attemptWord_staysBounded f t) firsts s

theorem setFragment_staysBounded (p : Port) (f : Option Fragment) (s : State) : staysBounded s (setFragment p f s) := by
  cases p <;> exact ⟨id, id, id, id⟩

theorem checkAlone_staysBounded (p : Port) (f : Fragment) (s : State) : staysBounded s (checkAlone p f s) := by
  unfold checkAlone; split
  · rename_i h
    exact joinSpellQueue_staysBounded _ s (by simp only [Bool.and_eq_true] at h; exact h.1.2)
  · exact .refl s

theorem checkJoined_staysBounded (edited : Bool) (s : State) : staysBounded s (checkJoined edited s) := by
  have hfree (l : WorkingLine) : staysBounded s { s with line := l } := ⟨id, id, id, id⟩
  unfold checkJoined; split
  · exact .ite ((hfree _).trans (checkAlone_staysBounded _ _ _)) (.refl s)
  · exact .refl s

theorem releaseJoined_staysBounded (s : State) : staysBounded s (releaseJoined s) := by
  have hfree (l : WorkingLine) : staysBounded s { s with line := l } := ⟨id, id, id, id⟩
  unfold releaseJoined; split
  · exact .ite (.refl s) ((hfree _).trans (checkAlone_staysBounded _ _ _))
  · exact .refl s

theorem resolveFragments_staysBounded (p : Port) (s : State) : staysBounded s (resolveFragments p s) := by
  have hjoin (t : State) (l : WorkingLine) : staysBounded t (setFragment p none { t with line := l }) :=
    staysBounded.trans (t := { t with line := l }) ⟨id, id, id, id⟩ (setFragment_staysBounded p none _)
  have hown (t : State) (h : staysBounded s t) : staysBounded s (match t.spelling.fragment p with
      | some f => setFragment p none { t with line := { t.line with joined := some f } }
      | none => t) := by
    split
    · exact h.trans (hjoin t _)
    · exact h
  unfold resolveFragments
  refine hown _ ?_
  split
  · exact (setFragment_staysBounded _ none s).trans (checkAlone_staysBounded _ _ _)
  · exact .refl s

theorem discardLookups_length (gone : SpellEntry → Bool) (queue : List SpellEntry) :
    (discardLookups gone queue).length ≤ queue.length := List.length_filterMap_le _ _

theorem dropLineSpelling_staysBounded (serial : Nat) (s : State) : staysBounded s (dropLineSpelling serial s) :=
  .spelling s _ (List.length_filter_le _ _) le_rfl (discardLookups_length _ _)

theorem rebuildWords_staysBounded (edited : Bool) (s : State) : staysBounded s (rebuildWords edited s) := by
  have hwords (l : WorkingLine) : staysBounded s { s with line := l } := ⟨id, id, id, id⟩
  exact ((hwords _).trans (checkJoined_staysBounded edited _)).trans (attemptWords_staysBounded _ _)

theorem editSpelling_staysBounded (s : State) : staysBounded s (editSpelling s) :=
  (dropLineSpelling_staysBounded _ s).trans (rebuildWords_staysBounded true _)

theorem unmapLine_staysBounded (s : State) : staysBounded s (unmapLine s) := by
  have hline (t : State) (l : WorkingLine) : staysBounded t { t with line := l } := ⟨id, id, id, id⟩
  exact (((hline s _).trans (dropLineSpelling_staysBounded s.line.serial _)).trans (hline _ _)).trans
    (checkJoined_staysBounded true _)

theorem extendSpelling_staysBounded (s : State) : staysBounded s (extendSpelling s) := by
  have hline (l : WorkingLine) : staysBounded s { s with line := l } := ⟨id, id, id, id⟩
  exact ((hline _).trans (checkJoined_staysBounded false _)).trans (attemptWords_staysBounded _ _)

theorem lineEndSpelling_staysBounded (byReturn : Bool) (s : State) : staysBounded s (lineEndSpelling byReturn s) := by
  have hown (p : Port) : staysBounded s (dropOwnFragment p s) := by
    unfold dropOwnFragment; split
    · exact .ite (setFragment_staysBounded p none s) (.refl s)
    · exact .refl s
  unfold lineEndSpelling; split
  · exact .refl s
  · dsimp only; split
    · split
      · exact ((hown _).trans (setFragment_staysBounded _ _ _)).trans (attemptWords_staysBounded _ _)
      · exact (hown _).trans (attemptWords_staysBounded _ _)
    · exact hown _

/-- R139, R140: the oldest suspect makes way when 16 are held. -/
theorem addSuspect_bound (x : Suspect) {list : List Suspect} (h : list.length ≤ Config.suspectEntries) :
    (addSuspect x list).length ≤ Config.suspectEntries := by
  have hothers : (list.filter fun y => !x.sameWord y).length ≤ list.length := List.length_filter_le _ _
  have hroom : (Config.suspectEntries : Nat) = 16 := rfl
  unfold addSuspect; dsimp only
  rw [List.length_append, List.length_singleton]
  split
  · omega
  · rw [List.length_drop]; omega

theorem addSuspects_bound (xs : List Suspect) {list : List Suspect} (h : list.length ≤ Config.suspectEntries) :
    (xs.foldl (fun l x => addSuspect x l) list).length ≤ Config.suspectEntries := by
  induction xs generalizing list with
  | nil => exact h
  | cons x xs ih => exact ih (addSuspect_bound x h)

theorem addSuspect_staysBounded (x : Suspect) (s : State) :
    staysBounded s { s with spelling := { s.spelling with suspects := addSuspect x s.spelling.suspects } } :=
  ⟨id, id, fun i => ⟨addSuspect_bound x i.1, i.2⟩, id⟩

theorem placeOnPaper_staysBounded (x : Suspect) (s : State) : staysBounded s (placeOnPaper x s) :=
  .ite (addSuspect_staysBounded _ s) (.refl s)

theorem startPrinting_staysBounded (serial : Nat) (s : State) : staysBounded s (startPrinting serial s) :=
  ⟨id, id, fun i => ⟨(List.length_filter_le _ _).trans i.1, addSuspects_bound _ i.2⟩, id⟩

theorem examinePrinting_staysBounded (serial : Nat) (s : State) : staysBounded s (examinePrinting serial s) := by
  unfold examinePrinting; split
  · refine .trans ?_ (.foldl _ (fun t x => placeOnPaper_staysBounded x t) _ _)
    exact .spelling s _ le_rfl (List.length_filter_le _ _) le_rfl
  · exact .refl s

theorem suspectResult_staysBounded (p : Port) (e : SpellEntry) (s : State) : staysBounded s (suspectResult p e s) := by
  have hnotice (b : Block) : staysBounded s ((s.tone .suspect).notice p b) := ((staysBounded.refl s).tone _).notice p b
  unfold suspectResult; dsimp only
  split
  · exact (hnotice _).trans (addSuspect_staysBounded _ _)
  split
  · exact (hnotice _).trans ⟨id, id, fun i => ⟨i.1, addSuspect_bound _ i.2⟩, id⟩
  · exact (hnotice _).trans (placeOnPaper_staysBounded _ _)

theorem answerQuery_staysBounded (tag result : Nat) (s : State) : staysBounded s (answerQuery tag result s) :=
  staysBounded.notice (t := { s with spelling := { s.spelling with
    queries := s.spelling.queries.eraseP (·.tag == tag) } }) ⟨id, id, id, id⟩ .link _

theorem deliver_staysBounded (e : SpellEntry) (good : Bool) (s : State) : staysBounded s (deliver e good s) := by
  have hrecord : staysBounded s (recordResult e good s) := .of_frame (recordResult_frame e good s) (by decide)
  unfold deliver; split
  · exact answerQuery_staysBounded _ _ s
  · exact .ite hrecord (hrecord.trans (suspectResult_staysBounded _ e _))

theorem lookupRead_staysBounded (bytes : List Byte) (s : State) : staysBounded s (lookupRead bytes s) := by
  have hwithout : staysBounded s { s with spelling := { s.spelling with
      queue := s.spelling.queue.filter (!·.inFlight) } } := .spelling s _ le_rfl le_rfl (List.length_filter_le _ _)
  unfold lookupRead; split
  · exact .refl s
  · dsimp only; split
    · exact hwithout
    · split
      · exact hwithout.trans (deliver_staysBounded _ _ _)
      · exact hwithout.trans (deliver_staysBounded _ _ _)
      · exact .spelling s _ le_rfl le_rfl (List.length_map _).le

theorem lexiconLost_staysBounded (s : State) : staysBounded s (lexiconLost s) := by
  have hempty : staysBounded s { s with spelling := { s.spelling with queue := [] } } :=
    .spelling s _ le_rfl le_rfl (Nat.zero_le _)
  unfold lexiconLost
  refine (hempty.trans (.foldl _ (fun t e => ?_) _ _)).trans
    (.foldl _ (fun t (q : Query) => answerQuery_staysBounded q.tag 2 t) _ _)
  split
  · exact .refl t
  split
  · exact answerQuery_staysBounded _ _ t
  · exact .ite ⟨id, id, id, id⟩ (.refl t)

theorem fillQueries_staysBounded (done rest : List Query) (s : State) : staysBounded s (fillQueries done rest s) := by
  induction rest generalizing done s with
  | nil => exact ⟨id, id, id, id⟩
  | cons q rest ih =>
    unfold fillQueries; split
    · rename_i h
      simp only [Bool.and_eq_true] at h
      exact (joinSpellQueue_staysBounded _ s h.2).trans (ih _ _)
    · exact ih _ s

theorem settleSpelling_staysBounded (s : State) : staysBounded s (settleSpelling s) := by
  have hfill : staysBounded s (fillFromChecking s) := .ite (attemptWords_staysBounded _ s) (.refl s)
  exact (hfill.trans (fillQueries_staysBounded [] _ _)).trans (.of_frame (holdTest_frame _) (by decide))

theorem withdrawWord_staysBounded (letters : List Byte) (s : State) : staysBounded s (withdrawWord letters s) :=
  ⟨id, id, fun i => ⟨(List.length_filter_le _ _).trans i.1, (List.length_filter_le _ _).trans i.2⟩, id⟩

theorem withdrawLifted_staysBounded (serial cell : Nat) (s : State) : staysBounded s (withdrawLifted serial cell s) :=
  .spelling s _ (List.length_filter_le _ _) (List.length_filter_le _ _) le_rfl

/-! ### The end of a step -/

theorem markInFlight_length (queue : List SpellEntry) : (markInFlight queue).length = queue.length := by
  cases queue <;> rfl

theorem arbitrate_staysBounded (s : State) : staysBounded s (arbitrate s) := by
  have hlink (o : LinkOwner) (op : StoreOp) (t : State) : staysBounded t (putOnLink o op t) := ⟨id, id, id, id⟩
  unfold arbitrate; split
  · split
    · exact hlink _ _ s
    · exact hlink _ _ s
    · refine .trans ?_ (hlink _ _ _)
      exact .spelling s _ le_rfl le_rfl (markInFlight_length _).le
    · exact .refl s
  · exact .refl s

theorem staysBounded.settle {s t : State} (h : staysBounded s t) : staysBounded s (settle t) :=
  (h.trans (settleSpelling_staysBounded t)).trans (arbitrate_staysBounded _)

theorem staysBounded.endStep {s t : State} (h : staysBounded s t) : staysBounded s (endStep t) := h.settle.finish

/-! ### Correction Memory (R97 to R99) -/

/-- R98: a record that is dropped takes its suspects with it. -/
theorem dropRecord_staysBounded (name : Nat) (s : State) : staysBounded s (dropRecord name s) := by
  unfold dropRecord; split
  · exact .refl s
  · exact ⟨id, (List.length_filter_le _ _).trans, fun i => ⟨(List.length_filter_le _ _).trans i.1, i.2⟩, id⟩

theorem makeRoom_staysBounded (fuel : Nat) (s : State) : staysBounded s (makeRoom fuel s) := by
  induction fuel generalizing s with
  | zero => exact .refl s
  | succ n ih =>
    unfold makeRoom; split
    · exact .refl s
    · split
      · exact .refl s
      · exact (dropRecord_staysBounded _ s).trans (ih _)

theorem emptyMemory_staysBounded (s : State) : staysBounded s (emptyMemory s) := by
  refine (staysBounded.foldl _ (fun t (r : LineRecord) => dropRecord_staysBounded r.name t) s.memory.records s).trans ?_
  exact ⟨id, fun _ => Nat.zero_le _, id, id⟩

/-- R97: the oldest record that is dropped leaves one place free. -/
theorem dropRecord_head_length {r : LineRecord} {rest : List LineRecord} {s : State} (h : s.memory.records = r :: rest) :
    (dropRecord r.name s).memory.records.length ≤ rest.length := by
  have hheld : s.memory.record r.name = some r := by
    unfold CorrectionMemory.record; rw [h]; simp
  unfold dropRecord; rw [hheld, h]
  dsimp only
  rw [List.filter_cons_of_neg (by simp)]
  exact List.length_filter_le _ _

theorem openNewRecord_staysBounded (serial : Nat) (source : Port) (baseline : Int) (s : State) :
    staysBounded s (openNewRecord serial source baseline s) := by
  have hopen (t : State) (h : staysBounded s t) (hlt : recordsInv s → t.memory.records.length < Config.memoryRecords)
      (m : CorrectionMemory) (r : LineRecord) (hm : m.records = t.memory.records ++ [r]) :
      staysBounded s { t with memory := m } := by
    obtain ⟨hq, -, hx, hs⟩ := h
    refine ⟨hq, fun i => ?_, hx, hs⟩
    unfold recordsInv; rw [hm, List.length_append]; exact hlt i
  unfold openNewRecord; dsimp only
  refine hopen _ ?_ (fun i => ?_) _ _ rfl
  · refine .ite (.refl s) ?_
    split
    · exact dropRecord_staysBounded _ s
    · exact .refl s
  · unfold recordsInv at i
    split
    · assumption
    · split
      · rename_i r rest hr
        rw [hr, List.length_cons] at i
        exact (dropRecord_head_length hr).trans_lt i
      · rename_i hnil; rw [hnil]; exact (by decide : (0 : Nat) < Config.memoryRecords)

theorem placeStrike_staysBounded (serial : Nat) (source : Port) (baseline : Int) (s : State) :
    staysBounded s (placeStrike serial source baseline s) := by
  have hclose (m : CorrectionMemory) (h : m.records = s.memory.records) : staysBounded s { s with memory := m } :=
    .memory s m (by rw [h])
  unfold placeStrike; dsimp only
  split
  · exact .refl s
  split
  · exact hclose _ rfl
  · exact (hclose { s.memory with openRecord := none } rfl).trans (openNewRecord_staysBounded _ _ _ _)

theorem update_records_length (m : CorrectionMemory) (name : Nat) (g : LineRecord → LineRecord) :
    (m.update name g).records.length = m.records.length := List.length_map _

theorem recordStrike_staysBounded (serial : Nat) (source : Port) (platen : Int) (e : StrikeEntry) (s : State) :
    staysBounded s (recordStrike serial source platen e s) := by
  unfold recordStrike; dsimp only
  generalize hs : placeStrike _ _ _ s = t
  have ht : staysBounded s t := hs ▸ placeStrike_staysBounded _ _ _ s
  generalize hu : makeRoom _ t = u
  have htu : staysBounded t u := hu ▸ makeRoom_staysBounded _ t
  refine (ht.trans htu).trans ?_
  split
  · exact .refl u
  · exact .ite (.memory u _ (update_records_length _ _ _).le) (.memory u _ (update_records_length _ _ _).le)

theorem closeByFeed_staysBounded (s : State) : staysBounded s (closeByFeed s) := by
  unfold closeByFeed; split <;> exact ⟨id, id, id, id⟩

theorem reopen_staysBounded (name : Nat) (s : State) : staysBounded s (reopen name s) := by
  unfold reopen; split <;> exact ⟨id, id, id, id⟩

theorem restore_staysBounded (s : State) : staysBounded s (restore s) := ⟨id, id, id, id⟩

theorem removeEntry_staysBounded (record entry : Nat) (s : State) : staysBounded s (removeEntry record entry s) :=
  .memory s _ (update_records_length _ _ _).le

/-! ### The Print Queue (R65) -/

theorem Engine.room_iff (e : Engine) : e.room = true ↔ e.queue.length < Config.queueJobs := by simp [room]

@[simp] theorem appendJob_queue (j : Job) (s : State) : (appendJob j s).engine.queue = s.engine.queue ++ [j] := by
  unfold appendJob; dsimp only; split <;> rfl

/-- R65: a job joins the queue only where there is room. -/
theorem appendJob_staysBounded (j : Job) (s : State) (h : s.engine.room = true) : staysBounded s (appendJob j s) := by
  have hlt := (Engine.room_iff _).1 h
  have hm : (appendJob j s).memory = s.memory := (appendJob_frame j s).same .memory (by decide)
  have hs : (appendJob j s).spelling = s.spelling := (appendJob_frame j s).same .spelling (by decide)
  simp only [staysBounded, queueInv, recordsInv, suspectsInv, spellQueueInv, hm, hs, appendJob_queue]
  exact ⟨fun _ => by rw [List.length_append]; exact hlt, id, id, id⟩

theorem appendOwed_staysBounded (s : State) : staysBounded s (appendOwed s) := by
  unfold appendOwed; split
  · rename_i h
    simp only [Bool.and_eq_true] at h
    have howed (l : LiftUnit) : staysBounded s { s with lift := l } := ⟨id, id, id, id⟩
    exact (howed _).trans (appendJob_staysBounded _ _ h.2)
  · exact .refl s

theorem setHead_staysBounded (g : Job → Job) (s : State) : staysBounded s (setHead g s) := by
  unfold setHead; split
  · exact .refl s
  · rename_i h; exact .engine s _ (by rw [h]; rfl)

theorem popHead_staysBounded (s : State) : staysBounded s (popHead s) :=
  .engine s _ (by rw [List.length_drop]; exact Nat.sub_le _ _)

end Sys2Proof.Machine

/-! SUPPORT. The bounds of the five collections through the orders and jobs of the Strike Engine, the Lift Unit and the
Store Interface. -/

namespace Sys2Proof.Machine

/-! ### The working line and the Lift Unit -/

theorem setPosition_staysBounded (x : Nat) (s : State) : staysBounded s (setPosition x s) :=
  .of_frame (setPosition_frame x s) (by decide)

theorem relayLine_staysBounded (s : State) : staysBounded s (relayLine s) := .of_frame (relayLine_frame s) (by decide)

theorem freeLine_staysBounded (last : Port) (s : State) : staysBounded s (freeLine last s) := ⟨id, id, id, id⟩

theorem discardLine_staysBounded (s : State) : staysBounded s (discardLine s) := by
  unfold discardLine; split
  · exact .refl s
  · rename_i p _
    have hfreed : staysBounded s (freeLine p (releaseJoined (dropLineSpelling s.line.serial s))) :=
      ((dropLineSpelling_staysBounded _ s).trans (releaseJoined_staysBounded _)).trans (freeLine_staysBounded p _)
    exact .ite (hfreed.trans (setPosition_staysBounded _ _)) hfreed

theorem beginAway_staysBounded (t : Target) (s : State) : staysBounded s (beginAway t s) := by
  have haway (u : State) (l : LiftUnit) (w : WorkingLine) (d : Display) :
      staysBounded u { u with lift := l, line := w, display := d } := ⟨id, id, id, id⟩
  exact ((discardLine_staysBounded s).trans (haway _ _ _ _)).trans (setPosition_staysBounded _ _)

theorem endCorrection_staysBounded (source : Port) (c : Correction) (outcome : Nat) (s : State) :
    staysBounded s (endCorrection source c outcome s) := by
  have hplaced (t : State) : staysBounded t (positionAfterLift c t) := .of_frame (positionAfterLift_frame c t) (by decide)
  have hreopened (t : State) : staysBounded t (reopenAfter c t) := by
    unfold reopenAfter; split
    · exact reopen_staysBounded _ t
    · exact .refl t
  exact (((staysBounded.refl s).notice source _).trans (hplaced _)).trans (hreopened _)

theorem endAway_staysBounded (s : State) : staysBounded s (endAway s) := ⟨id, id, id, id⟩

/-! ### Reports -/

theorem lineDone_staysBounded (source : Port) (serial struck dropped : Nat) (s : State) :
    staysBounded s (lineDone source serial struck dropped s) := by
  have hdone := ((staysBounded.refl s).notice source (Notice.lineDone serial struck dropped)).trans
    (examinePrinting_staysBounded serial _)
  exact .ite (hdone.tone _) hdone

theorem lineCancelled_staysBounded (source : Port) (serial struck : Nat) (s : State) :
    staysBounded s (lineCancelled source serial struck s) :=
  ((staysBounded.refl s).notice source _).trans (examinePrinting_staysBounded serial _)

theorem reportCancelled_staysBounded (j : Job) (s : State) : staysBounded s (reportCancelled j s) := by
  unfold reportCancelled; split
  · exact endCorrection_staysBounded _ _ _ s
  · exact lineCancelled_staysBounded _ _ _ s

theorem reportFaulted_staysBounded (j : Job) (s : State) : staysBounded s (reportFaulted j s) := by
  unfold reportFaulted; split
  · exact (staysBounded.refl s).notice _ _
  · exact lineCancelled_staysBounded _ _ _ s

theorem tallyStroke_staysBounded (j : Job) (s : State) : staysBounded s (tallyStroke j s) := by
  have htally (t : Tally) : staysBounded s { s with engine := { s.engine with tally := t } } := ⟨id, id, id, id⟩
  exact .ite ((htally _).trans (lineDone_staysBounded _ _ _ _ _)) (htally _)

theorem supplyLow_staysBounded (s : State) : staysBounded s (supplyLow s) := .of_frame (supplyLow_frame s) (by decide)

/-! ### Completion of orders -/

theorem completeStrike_staysBounded (k : Strike) (s : State) : staysBounded s (completeStrike k s) := by
  have hcounted (n : Nat) (l : LiftUnit) :
      staysBounded s { s with engine := { s.engine with ribbon := n }, lift := l } := ⟨id, id, id, id⟩
  unfold completeStrike; split
  · exact .refl s
  · exact ((staysBounded.ite ((hcounted _ _).trans (supplyLow_staysBounded _)) (hcounted _ _)).trans
      (recordStrike_staysBounded _ _ _ _ _)).trans (setHead_staysBounded _ _)

theorem removeLiftedCell_staysBounded (serial : Nat) (e : StrikeEntry) (s : State) :
    staysBounded s (removeLiftedCell serial e s) := by
  have hline (l : WorkingLine) : staysBounded s { s with line := l } := ⟨id, id, id, id⟩
  unfold removeLiftedCell; split
  · split
    · exact .refl s
    · exact .ite ((hline _).trans (editSpelling_staysBounded _)) ((hline _).trans (unmapLine_staysBounded _))
  · exact .refl s

theorem completeLift_staysBounded (record : Nat) (e : StrikeEntry) (s : State) :
    staysBounded s (completeLift record e s) := by
  have htape (n : Nat) : staysBounded s { s with engine := { s.engine with tape := n, tapeGuide := .down } } :=
    ⟨id, id, id, id⟩
  unfold completeLift; dsimp only
  exact ((((staysBounded.ite ((htape _).trans (supplyLow_staysBounded _)) (htape _)).trans
    (removeEntry_staysBounded _ _ _)).trans (setHead_staysBounded _ _)).trans (withdrawLifted_staysBounded _ _ _)).trans
    (removeLiftedCell_staysBounded _ _ _)

theorem completeFeed_staysBounded (n : Int) (s : State) : staysBounded s (completeFeed n s) := by
  have hmoved (a b : Int) (c : Bool) : staysBounded s (closeByFeed { s with engine := { s.engine with
      platen := a, pageLines := b, pageEnd := c } }) :=
    .after (closeByFeed_staysBounded _) ⟨id, id, id, id⟩
  unfold completeFeed; dsimp only; split
  · exact (hmoved _ _ _).notice _ _
  · exact hmoved _ _ _

theorem newTop_staysBounded (s : State) :
    staysBounded s (emptyMemory { s with engine := { s.engine with platen := 0, pageLines := 0, pageEnd := false } }) :=
  .after (emptyMemory_staysBounded _) ⟨id, id, id, id⟩

/-! ### The run of the queue -/

theorem startWheel_queue (t : Nat) (e : Engine) : (startWheel t e).queue = e.queue := by
  unfold startWheel; dsimp only; split <;> rfl

theorem startCarrier_queue (x : Nat) (e : Engine) : (startCarrier x e).queue = e.queue := by
  unfold startCarrier; split <;> rfl

theorem fireOrRaise_queue (o : Order) (e : Engine) : (fireOrRaise o e).queue = e.queue := by
  unfold fireOrRaise; split
  · rfl
  · split <;> rfl

theorem beginOrder_staysBounded (o : Order) (s : State) : staysBounded s (beginOrder o s).state := by
  have hengine (e : Engine) (h : e.queue = s.engine.queue) : staysBounded s { s with engine := e } :=
    .engine s e (by rw [h])
  cases o with
  | strike k => exact hengine _ (by rw [fireOrRaise_queue, startCarrier_queue, startWheel_queue])
  | lift r e => exact hengine _ (by rw [fireOrRaise_queue, startCarrier_queue, startWheel_queue])
  | move x =>
    unfold beginOrder; dsimp only; split
    · exact .refl s
    · exact hengine _ (startCarrier_queue x _)
  | feed n =>
    unfold beginOrder; dsimp only; split
    · exact completeFeed_staysBounded 0 s
    · exact hengine _ rfl
  | eject =>
    unfold beginOrder; dsimp only; split
    · exact newTop_staysBounded s
    · exact hengine _ rfl

theorem startWith_staysBounded (g : Job → Job) (s : State) : staysBounded s (startWith g s) :=
  have hworking (t : State) : staysBounded t { t with engine := { t.engine with state := .working }, restTimer := none } :=
    ⟨id, id, id, id⟩
  (setHead_staysBounded _ s).trans (hworking _)

theorem refuseLift_staysBounded (source : Port) (command : LiftCommand) (reason : LiftReason) (s : State) :
    staysBounded s (refuseLift source command reason s) := by
  have hrefused := (popHead_staysBounded s).notice source (Notice.liftRefused command.code reason.code)
  exact (staysBounded.ite (hrefused.tone _) hrefused).trans (appendOwed_staysBounded _)

theorem resolveCorrection_staysBounded (j : Job) (c : Correction) (behind : List Job) (s : State) :
    staysBounded s (resolveCorrection j c behind s) := by
  have hpoint : staysBounded s (setRelocatePoint s) := .of_frame (setRelocatePoint_frame s) (by decide)
  unfold resolveCorrection; split
  · exact refuseLift_staysBounded _ _ _ s
  · split
    · exact refuseLift_staysBounded _ _ _ s
    · exact .ite ((hpoint.trans (startWith_staysBounded _ _)).trans (beginAway_staysBounded _ _))
        (hpoint.trans (startWith_staysBounded _ _))

theorem startHead_staysBounded (j : Job) (behind : List Job) (s : State) : staysBounded s (startHead j behind s) := by
  unfold startHead; split
  · exact resolveCorrection_staysBounded _ _ _ s
  · split
    · split <;> exact startWith_staysBounded _ s
    · exact startWith_staysBounded _ s

theorem reportAll_staysBounded (gone : List Job) (s : State) :
    staysBounded s (gone.foldl (fun u j => reportCancelled j u) s) :=
  .foldl _ (fun u j => reportCancelled_staysBounded j u) gone s

theorem endRelocate_staysBounded (target : Nat) (s : State) : staysBounded s (endRelocate target s) := by
  have hgone (t : State) (keep : Job → Bool) (tally : Tally) :
      staysBounded t { t with engine := { t.engine with queue := t.engine.queue.filter keep, tally := tally } } :=
    .engine t _ (List.length_filter_le _ _)
  have hplaced (t : State) (h : staysBounded s t) :
      staysBounded s (if consoleDirect t then setPosition target t else t) :=
    .ite (h.trans (setPosition_staysBounded _ t)) h
  have hlift (t : State) (l : LiftUnit) : staysBounded t { t with lift := l } := ⟨id, id, id, id⟩
  unfold endRelocate; dsimp only
  refine (hplaced _ (.ite ?_ (restore_staysBounded s))).trans (hlift _ _)
  exact (((restore_staysBounded s).trans (hgone _ _ _)).trans (reportAll_staysBounded _ _)).trans (endAway_staysBounded _)

theorem completeHead_staysBounded (j : Job) (s : State) : staysBounded s (completeHead j s) := by
  have hpop := popHead_staysBounded s
  unfold completeHead; dsimp only
  refine staysBounded.trans ?_ (appendOwed_staysBounded _)
  split
  · exact hpop.trans (lineDone_staysBounded _ _ _ _ _)
  · exact hpop.trans (tallyStroke_staysBounded j _)
  · have hmotion := hpop.trans (lineDone_staysBounded j.source 0 0 0 _)
    exact .ite (hmotion.trans (endRelocate_staysBounded _ _)) hmotion
  · split
    · exact hpop.trans (endCorrection_staysBounded _ _ _ _)
    · exact hpop

theorem runQueue_staysBounded (fuel : Nat) (s : State) : staysBounded s (runQueue fuel s) := by
  have hout : staysBounded s (enterSupplyOut s) := ⟨id, id, id, id⟩
  have hready : staysBounded s (enterReady s) := ⟨id, id, id, id⟩
  induction fuel generalizing s with
  | zero => exact .refl s
  | succ n ih =>
    have hrest (t : State) : staysBounded t (runQueue n t) := ih t ⟨id, id, id, id⟩ ⟨id, id, id, id⟩
    unfold runQueue; split
    · exact hready
    · split
      · split
        · exact (completeHead_staysBounded _ s).trans (hrest _)
        · exact .ite hout (.ite (((beginOrder_staysBounded _ s).trans (setHead_staysBounded _ _)).trans (hrest _))
            (beginOrder_staysBounded _ s))
      · exact .ite hout ((startHead_staysBounded _ _ s).trans (hrest _))

theorem goOn_staysBounded (s : State) : staysBounded s (goOn s) := runQueue_staysBounded _ s

theorem orderDone_staysBounded (s : State) : staysBounded s (orderDone s) := by
  have hleft : staysBounded s (removeCancelledHead s) := by
    unfold removeCancelledHead; split
    · exact .refl s
    · exact ((popHead_staysBounded s).trans (reportCancelled_staysBounded _ _)).trans (appendOwed_staysBounded _)
  unfold orderDone; split
  · exact .refl s
  · exact .ite (hleft.trans (goOn_staysBounded _)) ((setHead_staysBounded _ s).trans (goOn_staysBounded _))

theorem startJob_staysBounded (s : State) : staysBounded s (startJob s) := .ite (goOn_staysBounded s) (.refl s)

/-! ### Cancel Printing and Fault -/

theorem releaseCancelled_staysBounded (removed : List Job) (s : State) : staysBounded s (releaseCancelled removed s) := by
  have htally (t : Tally) : staysBounded s { s with engine := { s.engine with tally := t } } := ⟨id, id, id, id⟩
  have haway (t : State) (l : WorkingLine) : staysBounded t { t with line := l } := ⟨id, id, id, id⟩
  have hcleared := staysBounded.ite (c := removed.any (·.kind == .stroke) = true) (htally .clear) (.refl s)
  have hfreed := hcleared.trans (discardLine_staysBounded _)
  exact .ite ((staysBounded.ite (hfreed.trans (haway _ _)) hfreed).trans (setPosition_staysBounded _ _)) hcleared

theorem cancelJobs_staysBounded (p : Port) (s : State) : staysBounded s (cancelJobs p s).1 := by
  have hqueue (q : List Job) (h : q.length ≤ s.engine.queue.length) :
      staysBounded s { s with engine := { s.engine with queue := q } } := .engine s _ h
  unfold cancelJobs; dsimp only
  refine ((staysBounded.trans (hqueue _ ?_) (reportAll_staysBounded _ _)).trans (releaseCancelled_staysBounded _ _)).trans
    (appendOwed_staysBounded _)
  split
  · rename_i h
    rw [h]; exact Nat.succ_le_succ (List.length_filter_le _ _)
  · exact List.length_filter_le _ _

theorem enterFault_staysBounded (cause : FaultCause) (s : State) : staysBounded s (enterFault cause s) := by
  have hstopped (e : Engine) (h : e.queue = []) : staysBounded s { s with engine := e, restTimer := none } :=
    ⟨fun _ => by unfold queueInv; rw [h]; exact Nat.zero_le _, id, id, id⟩
  have hreport (jobs : List Job) (t : State) : staysBounded t (jobs.foldl (fun u j => reportFaulted j u) t) :=
    .foldl _ (fun u j => reportFaulted_staysBounded j u) jobs t
  have htally (t : State) (y : Tally) : staysBounded t { t with engine := { t.engine with tally := y } } :=
    ⟨id, id, id, id⟩
  have hline (t : State) (b : Bool) (x : Nat) : staysBounded t (if b then setPosition x (discardLine t) else t) :=
    .ite ((discardLine_staysBounded t).trans (setPosition_staysBounded _ _)) (.refl t)
  have hlive (t : State) (d : Display) : staysBounded t { t with display := d } := ⟨id, id, id, id⟩
  have haway (t : State) (h : staysBounded s t) (l : LiftUnit) :
      staysBounded s (if t.lift.away then { restore t with lift := l } else t) :=
    .ite (h.trans ⟨id, id, id, id⟩) h
  refine haway _ ((staysBounded.trans (.noticeBoth (.after (htally _ .clear) (.after (hreport s.engine.queue _) ?_)) _)
    (hline _ _ _)).trans (hlive _ _)) _
  exact hstopped _ rfl

/-! ### Homing and the Store Interface -/

theorem homingLoaded_staysBounded (m : PetalMap) (announce : Bool) (s : State) :
    staysBounded s (homingLoaded m announce s) := by
  have hended (d : Display) : staysBounded s { s with
      engine := { s.engine with petalMap := some m, homing := none, homingLimit := none }, display := d } :=
    ⟨id, id, id, id⟩
  have hstate (t : State) : staysBounded t (if t.engine.ribbon = 0 then enterSupplyOut t else enterReady t) :=
    .ite ⟨id, id, id, id⟩ ⟨id, id, id, id⟩
  have hnotice (t : State) (h : staysBounded s t) (b : Block) :
      staysBounded s (relayLine (if announce then t.noticeBoth b else t)) :=
    (staysBounded.ite (h.noticeBoth b) h).trans (relayLine_staysBounded _)
  exact hnotice _ ((hended _).trans (hstate _)) _

theorem homingRefused_staysBounded (hub reason : Nat) (s : State) : staysBounded s (homingRefused hub reason s) := by
  unfold homingRefused
  exact .noticeBoth (t := { s with
    engine := { s.engine with petalMap := none, homing := none, homingLimit := none, state := .wheelFault }
    display := _, restTimer := none }) ⟨id, id, id, id⟩ _

theorem requestTable_staysBounded (h : Nat) (s : State) : staysBounded s (requestTable h s) := by
  have hwaits (st : Store) : staysBounded s { s with store := st } := ⟨id, id, id, id⟩
  unfold requestTable; split
  · exact homingRefused_staysBounded _ _ s
  · split
    · exact hwaits _
    · exact homingLoaded_staysBounded _ _ s
    · exact homingLoaded_staysBounded _ _ s
    · split
      · exact homingLoaded_staysBounded _ _ s
      · split
        · exact homingRefused_staysBounded _ _ s
        · exact hwaits _

theorem wheelRead_staysBounded (bytes : List Byte) (s : State) : staysBounded s (wheelRead bytes s) := by
  have hread (st : Store) : staysBounded s { s with store := st } := ⟨id, id, id, id⟩
  unfold wheelRead; split
  · exact .refl s
  · dsimp only; split
    · exact (hread _).trans (homingLoaded_staysBounded _ _ _)
    · exact (hread _).trans (homingRefused_staysBounded _ _ _)

theorem enterStore_staysBounded (state : StoreState) (s : State) : staysBounded s (enterStore state s) := by
  have hstore (t : State) (st : Store) : staysBounded t { t with store := st } := ⟨id, id, id, id⟩
  have hretaken (t : State) : staysBounded t (retakeRequest t) := by
    unfold retakeRequest; split
    · exact .refl t
    · exact (hstore t _).trans (requestTable_staysBounded _ _)
  have hlexicon (t : State) (h : staysBounded s t) :
      staysBounded s (retakeRequest (if t.store.lexiconAvailable then t else lexiconLost t)) :=
    (staysBounded.ite h (h.trans (lexiconLost_staysBounded t))).trans (hretaken _)
  exact hlexicon _ (.noticeBoth (hstore s _) _)

theorem endPresent_staysBounded (s : State) : staysBounded s (endPresent s) := enterStore_staysBounded .present s

theorem startUpWith_staysBounded (step : StartStep) (op : StoreOp) (s : State) : staysBounded s (startUpWith step op s) :=
  .of_frame (startUpWith_frame step op s) (by decide)

theorem readTableId_staysBounded (t tables : Nat) (s : State) : staysBounded s (readTableId t tables s) := by
  have husers : staysBounded s (startUsers s) := by
    unfold startUsers; split
    · exact startUpWith_staysBounded _ _ s
    · exact endPresent_staysBounded s
  unfold readTableId; split
  · exact .ite (startUpWith_staysBounded _ _ s) husers
  · exact husers

theorem goOnExamining_staysBounded (entries : List RawEntry) (x : Examination) (s : State) :
    staysBounded s (goOnExamining entries x s) := by
  have hstore (st : Store) : staysBounded s { s with store := st } := ⟨id, id, id, id⟩
  unfold goOnExamining; split
  · exact (hstore _).trans (readTableId_staysBounded _ _ _)
  · exact startUpWith_staysBounded _ _ s

theorem userHeaderRead_staysBounded (bytes : List Byte) (s : State) : staysBounded s (userHeaderRead bytes s) := by
  have hdiscard : staysBounded s (discardList s) := .after (endPresent_staysBounded _) ⟨id, id, id, id⟩
  unfold userHeaderRead; dsimp only; split
  · exact hdiscard
  · split
    · exact startUpWith_staysBounded _ _ s
    · exact endPresent_staysBounded s

theorem userRecordsRead_staysBounded (check : Nat) (magic : Bool) (bytes : List Byte) (s : State) :
    staysBounded s (userRecordsRead check magic bytes s) := by
  have hwords (w : List UserWord) (st : Store) :
      staysBounded s (endPresent { s with spelling := { s.spelling with userWords := w }, store := st }) :=
    .after (endPresent_staysBounded _) ⟨id, id, id, id⟩
  exact .ite (hwords _ _) (hwords _ _)

theorem startUpStep_staysBounded (bytes : List Byte) (s : State) : staysBounded s (startUpStep bytes s) := by
  have hstore (st : Store) : staysBounded s { s with store := st } := ⟨id, id, id, id⟩
  unfold startUpStep; split
  · exact .refl s
  · exact startUpWith_staysBounded _ _ s
  · exact startUpWith_staysBounded _ _ s
  · exact startUpWith_staysBounded _ _ s
  · split
    · exact startUpWith_staysBounded _ _ s
    · exact enterStore_staysBounded _ s
  · exact goOnExamining_staysBounded _ _ s
  · exact goOnExamining_staysBounded _ _ s
  · exact (hstore _).trans (readTableId_staysBounded _ _ _)
  · exact userHeaderRead_staysBounded _ s
  · exact userRecordsRead_staysBounded _ _ _ s

theorem saveStepDone_staysBounded (s : State) : staysBounded s (saveStepDone s) := by
  have hstore (st : Store) : staysBounded s { s with store := st } := ⟨id, id, id, id⟩
  unfold saveStepDone; split
  · exact .refl s
  · split
    · exact (hstore _).notice _ _
    · exact hstore _

theorem storeFault_staysBounded (s : State) : staysBounded s (storeFault s) := by
  have hstore (t : State) (st : Store) : staysBounded t { t with store := st } := ⟨id, id, id, id⟩
  have hfault : staysBounded s (enterStore .faulted { s with store := { s.store with link := none } }) :=
    (hstore s _).trans (enterStore_staysBounded _ _)
  unfold storeFault; dsimp only; split
  · exact hfault
  · exact (hfault.trans (hstore _ _)).notice _ _

end Sys2Proof.Machine

/-! SUPPORT. The bounds of the five collections through the Line Composer, the commands and the events, and with them every
step (O8). -/

namespace Sys2Proof.Machine

/-! ### Strokes (R25, R29) -/

/-- R25, R65: a job that joins while the engine still stands as it stood when there was room. -/
theorem appendJob_after {s t : State} (j : Job) (h : staysBounded s t) (he : t.engine = s.engine)
    (hroom : s.engine.room = true) : staysBounded s (appendJob j t) :=
  h.trans (appendJob_staysBounded j t (by rw [he]; exact hroom))

theorem refuseStroke_staysBounded (p : Port) (code : Status) (s : State) : staysBounded s (refuseStroke p code s) :=
  .of_frame (refuseStroke_frame p code s) (by decide)

theorem directInsert_staysBounded (i : Nat) (c : Cell) (s : State) : staysBounded s (directInsert i c s) := by
  have hline (l : WorkingLine) : staysBounded s { s with line := l } := ⟨id, id, id, id⟩
  exact .ite ((hline _).trans (extendSpelling_staysBounded _)) ((hline _).trans (unmapLine_staysBounded _))

theorem placeCell_staysBounded (held : Option Nat) (i : Nat) (c : Cell) (s : State) :
    staysBounded s (placeCell held i c s) := by
  have hline (l : WorkingLine) : staysBounded s { s with line := l } := ⟨id, id, id, id⟩
  exact .ite ((hline _).trans (editSpelling_staysBounded _)) (directInsert_staysBounded i c s)

section
variable (m : PetalMap) (k : Stroke) {s : State} (hroom : s.engine.room = true)
include hroom

theorem directCharacter_staysBounded (code : Byte) : staysBounded s (directCharacter m code k s) := by
  rw [directCharacter_eq]
  refine .ite (refuseStroke_staysBounded _ _ s) (.ite (refuseStroke_staysBounded _ _ s) ?_)
  refine appendJob_after _ ?_ ?_ hroom
  · exact ((staysBounded.trans (.of_frame (ringBell_frame _ s) (by decide)) (placeCell_staysBounded _ _ _ _)).trans
      (.of_frame (reportMissing_frame m code _) (by decide))).trans (setPosition_staysBounded _ _)
  · rw [setPosition_engine, (reportMissing_frame m code _).same .engine (by decide), (struckLine_frame m code k s).same .engine (by decide)]

theorem directSpace_staysBounded : staysBounded s (directSpace m k s) := by
  have hplaced (c : Prop) [Decidable c] (t : State) (h : staysBounded s t) (he : t.engine = s.engine) (x : Nat) (j : Job) :
      staysBounded s (appendJob j (setPosition x (if c then s else t))) := by
    refine appendJob_after j ((staysBounded.ite (.refl s) h).trans (setPosition_staysBounded _ _)) ?_ hroom
    rw [setPosition_engine]; split
    · rfl
    · exact he
  exact .ite (refuseStroke_staysBounded _ _ s) (.ite (refuseStroke_staysBounded _ _ s)
    (hplaced _ _ (directInsert_staysBounded _ _ s) ((directInsert_frame _ _ s).same .engine (by decide)) _ _))

theorem directMove_staysBounded (x : Nat) : staysBounded s (directMove x s) :=
  appendJob_after _ (setPosition_staysBounded x s) (setPosition_engine x s) hroom

theorem directIndex_staysBounded (rise feed : Int) : staysBounded s (directIndex rise feed s) :=
  .ite (refuseStroke_staysBounded _ _ s) (appendJob_after _ ⟨id, id, id, id⟩ rfl hroom)

theorem releaseDirect_staysBounded : staysBounded s (releaseDirect s) :=
  (((appendJob_staysBounded _ s hroom).trans (startPrinting_staysBounded _ _)).trans (freeLine_staysBounded .console _)).trans
    (setPosition_staysBounded _ _)

theorem composeDirect_staysBounded : staysBounded s (composeDirect m k s) := by
  have hrefused (code : Status) : staysBounded s (refuseStroke .console code s) := refuseStroke_staysBounded _ _ s
  unfold composeDirect; split
  · exact directCharacter_staysBounded m k hroom _
  · exact directSpace_staysBounded m k hroom
  · exact directMove_staysBounded hroom _
  · split
    · exact directMove_staysBounded hroom _
    · exact hrefused _
  · exact directIndex_staysBounded hroom _ _
  · exact directIndex_staysBounded hroom _ _
  · exact ⟨id, id, id, id⟩
  · have hended : (lineEndSpelling true s).engine = s.engine := (lineEndSpelling_frame true s).same .engine (by decide)
    exact .ite (hrefused _) ((lineEndSpelling_staysBounded true s).trans (releaseDirect_staysBounded (by rw [hended]; exact hroom)))
  · exact hrefused _
  · exact hrefused _
  · exact hrefused _
  · exact hrefused _

end

theorem lineInsert_staysBounded (c : Cell) (s : State) : staysBounded s (lineInsert c s) := by
  have hlaid (l : WorkingLine) : staysBounded s (relayLine { s with line := l }) :=
    .after (relayLine_staysBounded _) ⟨id, id, id, id⟩
  exact .ite ((hlaid _).trans (extendSpelling_staysBounded _)) ((hlaid _).trans (editSpelling_staysBounded _))

theorem wrapLine_staysBounded (p : Port) (m : PetalMap) (c : Cell) (s : State) : staysBounded s (wrapLine p m c s) := by
  have hcut (l : WorkingLine) : staysBounded s (lineEndSpelling false (cutWords (relayLine { s with line := l }))) :=
    .after (lineEndSpelling_staysBounded false _) (.after (.of_frame (cutWords_frame _) (by decide))
      (.after (relayLine_staysBounded _) ⟨id, id, id, id⟩))
  unfold wrapLine; split
  · exact refuseStroke_staysBounded _ _ s
  · exact .ite (refuseStroke_staysBounded _ _ s) (hcut _)

theorem lineCell_staysBounded (p : Port) (m : PetalMap) (kind : CellKind) (code : Byte) (k : Stroke) (s : State) :
    staysBounded s (lineCell p m kind code k s) := by
  have hrefused (st : Status) : staysBounded s (refuseStroke p st s) := refuseStroke_staysBounded p st s
  have hinsert (c : Cell) (edge : Nat) (b : Prop) [Decidable b] : staysBounded s
      (if Config.lineCells ≤ s.line.cells.length then refuseStroke p .full s
       else if b then ringBell edge (lineInsert c s) else lineInsert c s) :=
    .ite (hrefused _) (.ite ((lineInsert_staysBounded c s).trans (.of_frame (ringBell_frame _ _) (by decide)))
      (lineInsert_staysBounded c s))
  unfold lineCell; dsimp only
  exact .ite (.ite (hrefused _) (hinsert _ _ _)) (.ite (hinsert _ _ _) (.ite (.ite (hrefused _) (hinsert _ _ _))
    (.ite (wrapLine_staysBounded p m _ s) (hrefused _))))

theorem composeLine_staysBounded (p : Port) (m : PetalMap) (k : Stroke) (s : State) :
    staysBounded s (composeLine p m k s) := by
  have hrefused (st : Status) : staysBounded s (refuseStroke p st s) := refuseStroke_staysBounded p st s
  have hlaid (l : WorkingLine) : staysBounded s (relayLine { s with line := l }) :=
    .after (relayLine_staysBounded _) ⟨id, id, id, id⟩
  have hmoved (n : Nat) : staysBounded s (moveCursor n s) := hlaid _
  have hended (l : WorkingLine) (h : Option Nat) : staysBounded s (lineEndSpelling true { s with line := l, holdTimer := h }) :=
    .after (lineEndSpelling_staysBounded true _) ⟨id, id, id, id⟩
  unfold composeLine; split
  · exact lineCell_staysBounded _ _ _ _ _ s
  · exact lineCell_staysBounded _ _ _ _ _ s
  · exact lineCell_staysBounded _ _ _ _ _ s
  · exact .ite (.refl s) ((hlaid _).trans (editSpelling_staysBounded _))
  · exact hmoved _
  · exact hmoved _
  · exact ⟨id, id, id, id⟩
  · exact ⟨id, id, id, id⟩
  · exact (hended _ _).trans ⟨id, id, id, id⟩
  · exact hrefused _
  · exact hrefused _
  · exact hrefused _

theorem composeHeld_staysBounded (p : Port) (m : PetalMap) (k : Stroke) (s : State) :
    staysBounded s (composeHeld p m k s) := by
  unfold composeHeld; split
  · exact ⟨id, id, id, id⟩
  · exact composeLine_staysBounded _ _ _ s
  · exact composeLine_staysBounded _ _ _ s
  · exact .after (composeLine_staysBounded _ _ _ _) ⟨id, id, id, id⟩

theorem claim_staysBounded (p : Port) (s : State) : staysBounded s (claim p s) := by
  have hclaimed : staysBounded s (claiming p s) := ⟨id, id, id, id⟩
  exact (hclaimed.trans (resolveFragments_staysBounded p _)).trans (relayLine_staysBounded _)

/-- R25: a stroke that would be composed in Direct mode is taken only where the queue has room for its job. -/
theorem canTake_room {p : Port} {s : State} (h : canTake p s = true) (hd : wouldBeDirect p s = true) :
    s.engine.room = true := by
  unfold canTake at h
  simp only [hd, Bool.and_eq_true, Bool.not_true, Bool.false_or] at h
  exact h.2.1

theorem composeTaken_staysBounded (p : Port) (m : PetalMap) (k : Stroke) (s : State)
    (hroom : wouldBeDirect p s = true → s.engine.room = true) : staysBounded s (composeTaken p m k s) := by
  by_cases hfree : s.line.phase = .free
  · cases hk : k.edits with
    | true => rw [composeTaken_noLine hfree hk]; exact refuseStroke_staysBounded _ _ s
    | false =>
      rw [composeTaken_claims hfree hk]
      have hengine : (claim p s).engine = s.engine := (claim_frame p s).same .engine (by decide)
      split
      · rename_i hd
        have hr := hroom (by unfold wouldBeDirect; rw [if_pos hfree, hd]; rfl)
        exact (claim_staysBounded p s).trans (composeDirect_staysBounded m k (by rw [hengine]; exact hr))
      · exact (claim_staysBounded p s).trans (composeLine_staysBounded p m k _)
  · unfold composeTaken
    rw [if_neg (by simp [hfree])]
    dsimp only
    rw [if_neg hfree]
    split
    · rename_i hd
      exact composeDirect_staysBounded m k (hroom (by unfold wouldBeDirect; rw [if_neg hfree, hd]; rfl))
    · exact .ite (composeHeld_staysBounded p m k s) (composeLine_staysBounded p m k s)

/-- R26: the port that is served has a stroke that can be taken. -/
theorem portToServe_canTake {p : Port} {s : State} (h : portToServe s = some p) : canTake p s = true := by
  unfold portToServe at h
  split at h
  · rename_i hc hl
    split at h <;> cases h
    · exact hl
    · exact hc
  · rename_i hc hl; cases h; exact hc
  · rename_i hc hl; cases h; exact hl
  · cases h

theorem composeStep_staysBounded (s : State) : staysBounded s (composeStep s) := by
  unfold composeStep; split
  · rename_i p m hp _
    split
    · rename_i k rest _
      have htaken : staysBounded s (takenStroke p rest s) := ⟨id, id, id, id⟩
      have hroom : wouldBeDirect p s = true → s.engine.room = true := canTake_room (portToServe_canTake hp)
      exact (htaken.trans (composeTaken_staysBounded p m k _ hroom)).endStep
    · exact .refl s
  · exact .refl s

/-! ### Conversion and the forced end -/

theorem convertLine_staysBounded (p : Port) (m : PetalMap) {s : State} (hroom : s.engine.room = true) :
    staysBounded s (convertLine p m s) := by
  have hnotices (layout : Layout) : staysBounded s (conversionNotices p m layout s) :=
    .of_frame (conversionNotices_frame p m s layout) (by cases p <;> decide)
  have hengine (layout : Layout) : (conversionNotices p m layout s).engine = s.engine :=
    (conversionNotices_frame p m s layout) .engine (by cases p <;> decide)
  have hcarried (t : State) : staysBounded t (afterConversion p t) := by
    unfold afterConversion; split
    · exact .after (rebuildWords_staysBounded false _) (.after (relayLine_staysBounded _) ⟨id, id, id, id⟩)
    · exact (freeLine_staysBounded p t).trans (setPosition_staysBounded _ _)
  exact ((appendJob_after _ (hnotices _) (hengine _) hroom).trans (startPrinting_staysBounded _ _)).trans (hcarried _)

theorem convertStep_staysBounded (s : State) : staysBounded s (convertStep s) := by
  unfold convertStep; split
  · rename_i hc _ _
    have hroom : s.engine.room = true := by
      unfold canConvert at hc; simp only [Bool.and_eq_true] at hc; exact hc.1.2
    exact (staysBounded.ite (releaseDirect_staysBounded hroom) (convertLine_staysBounded _ _ hroom)).endStep
  · exact .refl s

theorem forceEnd_staysBounded (p : Port) (s : State) : staysBounded s (forceEnd p s) := by
  have hended (l : WorkingLine) : staysBounded s (lineEndSpelling false { s with line := l }) :=
    .after (lineEndSpelling_staysBounded false _) ⟨id, id, id, id⟩
  have hwaiting (t : State) (l : WorkingLine) : staysBounded t { t with line := l } := ⟨id, id, id, id⟩
  exact ((hended _).trans (hwaiting _ _)).notice p _

/-! ### The commands -/

theorem cancelAwaits_staysBounded (s : State) : staysBounded s (cancelAwaits s) := by
  unfold cancelAwaits; rw [foldl_keysNotice]; exact ⟨id, id, id, id⟩

/-- R91, R195: Restart empties all five. -/
theorem cmdRestart_staysBounded (s : State) : staysBounded s (cmdRestart s).1 := by
  have hports : staysBounded s (restartPorts s) := ⟨id, id, id, id⟩
  have hreport (t : State) (j : Job) : staysBounded t (restartReport t j) :=
    .ite (.refl t) ((staysBounded.refl t).notice _ _)
  have hqueue (t : State) : staysBounded t (restartQueue t) :=
    (staysBounded.foldl restartReport hreport t.engine.queue t).trans ⟨fun _ => Nat.zero_le _, id, id, id⟩
  have hcomposer (t : State) : staysBounded t (restartComposer t) := (cancelAwaits_staysBounded t).trans ⟨id, id, id, id⟩
  have hhoming (t : State) : staysBounded t (startFullHoming (keepColumn t)) := ⟨id, id, id, id⟩
  have hemptied (t : State) : staysBounded t (restartRest2 t) :=
    (emptyMemory_staysBounded t).trans ⟨id, id, fun _ => ⟨Nat.zero_le _, Nat.zero_le _⟩, fun _ => Nat.zero_le _⟩
  have hstore (t : State) : staysBounded t (startStartUp t) := ⟨id, id, id, id⟩
  exact ((((hports.trans (hqueue _)).trans (hcomposer _)).trans (hhoming _)).trans (hemptied _)).trans (hstore _)

theorem cmdKeyStroke_staysBounded (b0 b1 : Byte) (s : State) : staysBounded s (cmdKeyStroke b0 b1 s).1 := by
  unfold cmdKeyStroke; split
  · exact .refl s
  · split
    · exact .of_frame (routeStroke_frame _ _ _ s) (by decide)
    · split
      · exact .of_frame (joinRing_frame _ _ s) (by decide)
      · exact (staysBounded.refl s).tone _

theorem cmdTypeText_staysBounded (text : List Byte) (s : State) : staysBounded s (cmdTypeText text s).1 := by
  unfold cmdTypeText; dsimp only; split
  · exact (staysBounded.of_frame (joinRing_frame _ _ s) (by decide)).trans ⟨id, id, id, id⟩
  · exact .refl s

theorem cmdReleaseLine_staysBounded (p : Port) (s : State) : staysBounded s (cmdReleaseLine p s).1 := by
  unfold cmdReleaseLine; split
  · exact .refl s
  · split
    · exact .refl s
    · split
      · exact .refl s
      · exact (discardLine_staysBounded s).settle

theorem cmdAwaitKeys_staysBounded (wanted : Byte) (timeout : Half) (echo : Byte) (s : State) :
    staysBounded s (cmdAwaitKeys wanted timeout echo s).1 := by
  unfold cmdAwaitKeys
  split
  · exact .refl s
  split
  · exact .refl s
  split
  · exact .refl s
  · exact ⟨id, id, id, id⟩

theorem formatCommand_staysBounded (p : Port) {act : State → State × Reply} {s : State} (h : staysBounded s (act s).1) :
    staysBounded s (formatCommand p act s).1 := by
  unfold formatCommand; split
  · exact h
  · exact .refl s

/-- R42, R50: a Format Record replaced. -/
theorem setFormat_staysBounded (f : FormatRecord) {s t : State} (h : staysBounded s t) : staysBounded s (setFormat f t) :=
  h.trans (.of_frame (setFormat_frame f t) (by decide))

theorem cmdSetMargins_staysBounded (p : Port) (left right : Half) (s : State) :
    staysBounded s (cmdSetMargins p left right s).1 := by
  refine formatCommand_staysBounded p ?_
  split
  · exact setFormat_staysBounded _ (.of_frame (marginsMoved_frame s) (by decide))
  · exact .refl s

theorem cmdSetTab_staysBounded (p : Port) (x : Half) (s : State) : staysBounded s (cmdSetTab p x s).1 := by
  refine formatCommand_staysBounded p ?_
  dsimp only
  split
  · exact .refl s
  split
  · exact .refl s
  split
  · exact .refl s
  · exact setFormat_staysBounded _ (.refl s)

theorem cmdClearTab_staysBounded (p : Port) (x : Half) (s : State) : staysBounded s (cmdClearTab p x s).1 := by
  refine formatCommand_staysBounded p ?_
  dsimp only; split
  · exact setFormat_staysBounded _ (.refl s)
  · exact .refl s

theorem cmdSetSpacing_staysBounded (p : Port) (v : Byte) (s : State) : staysBounded s (cmdSetSpacing p v s).1 := by
  refine formatCommand_staysBounded p ?_
  split
  · exact setFormat_staysBounded _ (.refl s)
  · exact .refl s

theorem cmdSetImpression_staysBounded (p : Port) (v : Byte) (s : State) : staysBounded s (cmdSetImpression p v s).1 := by
  refine formatCommand_staysBounded p ?_
  split
  · exact setFormat_staysBounded _ (.refl s)
  · exact .refl s

theorem feedRefusal_room {p : Port} {s : State} (h : feedRefusal p s = none) : s.engine.room = true := by
  unfold feedRefusal at h
  split at h
  · cases h
  split at h
  · cases h
  split at h
  · cases h
  split at h
  · cases h
  · simp_all

theorem liftBusy_room {s : State} (h : ¬ liftBusy s = true) : s.engine.room = true := by
  unfold liftBusy at h; simp_all

theorem cmdFeed_staysBounded (p : Port) (n : Byte) (s : State) : staysBounded s (cmdFeed p n s).1 := by
  unfold cmdFeed; split
  · exact .refl s
  · rename_i h
    dsimp only; split
    · exact .refl s
    · exact appendJob_staysBounded _ s (feedRefusal_room h)

theorem cmdFormFeed_staysBounded (p : Port) (s : State) : staysBounded s (cmdFormFeed p s).1 := by
  unfold cmdFormFeed; split
  · exact .refl s
  · rename_i h; exact appendJob_staysBounded _ s (feedRefusal_room h)

theorem cmdRehome_staysBounded (s : State) : staysBounded s (cmdRehome s).1 := by
  unfold cmdRehome; split
  · exact .refl s
  · split
    · exact ⟨id, id, id, id⟩
    · exact .refl s

theorem cmdWheelChange_staysBounded (s : State) : staysBounded s (cmdWheelChange s).1 := by
  have hmoved : staysBounded s (startWheelChange s) := by
    refine ⟨fun i => ?_, id, id, id⟩
    show (startCarrier _ _).queue.length ≤ _
    rw [startCarrier_queue]; exact i
  unfold cmdWheelChange; split
  · exact .refl s
  · split
    · exact hmoved
    · exact .refl s

theorem cmdWheelMounted_staysBounded (s : State) : staysBounded s (cmdWheelMounted s).1 := by
  have hstarted : staysBounded s (startWheelHoming false s) := ⟨id, id, id, id⟩
  unfold cmdWheelMounted; split
  · split
    · exact .refl s
    · exact hstarted
  · split
    · exact hstarted
    · exact .refl s

theorem cmdLoadSupply_staysBounded (kind : Byte) (ribbon tape : Half) (s : State) :
    staysBounded s (cmdLoadSupply kind ribbon tape s).1 := by
  have hset (k : RibbonKind) : staysBounded s (setSupply k ribbon.toNat tape.toNat s) :=
    .ite (.after (supplyLow_staysBounded _) ⟨id, id, id, id⟩) ⟨id, id, id, id⟩
  have hleft (t : State) : staysBounded t (leaveSupplyOut t) := by
    have hready : staysBounded t (enterReady t) := ⟨id, id, id, id⟩
    unfold leaveSupplyOut; split
    · exact .ite (.after (goOn_staysBounded _) ⟨id, id, id, id⟩) hready
    · exact hready
  unfold cmdLoadSupply; split
  · exact .refl s
  · exact .ite ((hset _).trans (hleft _)).settle (hset _)

theorem takeLift_staysBounded (p : Port) (command : LiftCommand) (reference : Option Nat) (s : State) :
    staysBounded s (takeLift p command reference s).1 := by
  unfold takeLift; split
  · exact .refl s
  · rename_i h; exact appendJob_staysBounded _ s (liftBusy_room h)

theorem cmdLiftBack_staysBounded (p : Port) (n : Byte) (x : Half) (s : State) :
    staysBounded s (cmdLiftBack p n x s).1 := by
  unfold cmdLiftBack
  split
  · exact .refl s
  split
  · exact .refl s
  split
  · exact .refl s
  rename_i h
  split
  · exact .refl s
  split
  · exact .refl s
  · exact appendJob_staysBounded _ s (liftBusy_room h)

theorem cmdRelocate_staysBounded (s : State) : staysBounded s (cmdRelocate s).1 := by
  unfold cmdRelocate
  split
  · exact .refl s
  rename_i h
  split
  · exact .refl s
  split
  · exact .refl s
  · exact appendJob_staysBounded _ s (liftBusy_room h)

theorem cmdIgnoreSuspect_staysBounded (i : Byte) (s : State) : staysBounded s (cmdIgnoreSuspect i s).1 := by
  have hgood (x : Suspect) (t : State) : staysBounded t (goodWord x t) := .ite ⟨id, id, id, id⟩ (.refl t)
  have hdrop : staysBounded s { s with spelling := { s.spelling with
      suspects := s.spelling.suspects.eraseIdx i.toNat } } :=
    .spelling s { s.spelling with suspects := _ } (List.length_eraseIdx_le _ _) le_rfl le_rfl
  unfold cmdIgnoreSuspect; split
  · exact hdrop.trans (hgood _ _)
  · exact .refl s

theorem addLetters_staysBounded (letters : List Byte) (s : State) : staysBounded s (addLetters letters s).1 := by
  have hwords (w : List UserWord) : staysBounded s
      (withdrawWord letters { s with spelling := { s.spelling with userWords := w } }) :=
    .after (withdrawWord_staysBounded letters _) ⟨id, id, id, id⟩
  unfold addLetters
  split
  · exact .refl s
  split
  · exact hwords _
  split
  · exact .refl s
  · exact hwords _

theorem cmdAddWordByIndex_staysBounded (i : Byte) (s : State) : staysBounded s (cmdAddWordByIndex i s).1 := by
  unfold cmdAddWordByIndex; split
  · exact .refl s
  · split
    · exact addLetters_staysBounded _ s
    · exact .refl s

theorem cmdAddWord_staysBounded (letters : List Byte) (s : State) : staysBounded s (cmdAddWord letters s).1 := by
  unfold cmdAddWord; split
  · exact .refl s
  · exact addLetters_staysBounded letters s

theorem cmdRemoveWord_staysBounded (letters : List Byte) (s : State) : staysBounded s (cmdRemoveWord letters s).1 := by
  unfold cmdRemoveWord
  split
  · exact .refl s
  split
  · exact .refl s
  split
  · exact ⟨id, id, id, id⟩
  · exact .refl s

theorem cmdSaveUserWords_staysBounded (p : Port) (s : State) : staysBounded s (cmdSaveUserWords p s).1 := by
  have hsave (v : Store) : staysBounded s (arbitrate { s with store := v }) :=
    .after (arbitrate_staysBounded _) ⟨id, id, id, id⟩
  unfold cmdSaveUserWords
  split
  · exact .refl s
  · exact .refl s
  · exact .refl s
  split
  · exact .refl s
  split
  · exact .refl s
  split
  · exact .refl s
  · exact hsave _

theorem cmdCheckWord_staysBounded (letters : List Byte) (s : State) : staysBounded s (cmdCheckWord letters s).1 := by
  unfold cmdCheckWord; dsimp only
  split
  · exact .refl s
  split
  · exact .refl s
  split
  · exact ⟨id, id, id, id⟩
  · refine staysBounded.settle ?_; exact ⟨id, id, id, id⟩

theorem cmdShowMessage_staysBounded (p : Port) (d : Byte) (text : List Byte) (s : State) :
    staysBounded s (cmdShowMessage p d text s).1 := by
  have hwithdraw : staysBounded s (if linkOverlay s then s.notice .link Notice.messageWithdrawn else s) :=
    .ite ((staysBounded.refl s).notice _ _) (.refl s)
  unfold cmdShowMessage
  split
  · exact .refl s
  split
  · exact .refl s
  split
  · exact hwithdraw.trans ⟨id, id, id, id⟩
  split
  · exact .refl s
  · exact ⟨id, id, id, id⟩

theorem cmdClearMessage_staysBounded (p : Port) (s : State) : staysBounded s (cmdClearMessage p s).1 := by
  unfold cmdClearMessage; split
  · exact ⟨id, id, id, id⟩
  · exact .refl s

theorem cmdSetTones_staysBounded (tone divider duty : Byte) (s : State) :
    staysBounded s (cmdSetTones tone divider duty s).1 := by
  unfold cmdSetTones; split
  · exact ⟨id, id, id, id⟩
  · exact .refl s

theorem cmdSetNotices_staysBounded (p : Port) (b0 b1 b2 : Byte) (s : State) :
    staysBounded s (cmdSetNotices p b0 b1 b2 s).1 := by
  unfold cmdSetNotices; split
  · exact .refl s
  · exact .of_frame (s.setPort_frame p _) (by cases p <;> decide)

theorem cmdReadStatus_staysBounded (p : Port) (s : State) : staysBounded s (cmdReadStatus p s).1 :=
  .after (.of_frame (State.setPort_frame _ p _) (by cases p <;> decide)) ⟨id, id, id, id⟩

/-! ### Options and the partition (R188, R192) -/

theorem spellingStored_staysBounded (p : Port) (on : Bool) (s : State) : staysBounded s (spellingStored p on s) := by
  have hstop (l : WorkingLine) (t : State) : staysBounded t (stopHolding { t with line := l }) :=
    .ite ⟨id, id, id, id⟩ ⟨id, id, id, id⟩
  have hdrop := dropLineSpelling_staysBounded s.line.serial s
  exact .ite (.ite (hdrop.trans (rebuildWords_staysBounded false _)) (hdrop.trans (hstop _ _))) (.refl s)

theorem storeSwitch_staysBounded (o : OptionId) (p : Port) (v : Bool) (s : State) :
    staysBounded s (storeSwitch o p v s) := by
  have hoptions (x : Options) : staysBounded s { s with options := x } := ⟨id, id, id, id⟩
  have hstop (t : State) : staysBounded t (stopHolding t) := .ite ⟨id, id, id, id⟩ (.refl t)
  cases o with
  | entryMode => exact hoptions _
  | keyboardSharing => exact .ite (hoptions _) ((hoptions _).trans (cancelAwaits_staysBounded _))
  | spelling => exact staysBounded.settle ((hoptions _).trans (spellingStored_staysBounded .console v _))
  | spellHold => exact .ite (hoptions _) ((hoptions _).trans (hstop _))
  | doneTone => exact hoptions _
  | linkSpelling => exact staysBounded.settle ((hoptions _).trans (spellingStored_staysBounded .link v _))
  | wrap => exact ⟨id, id, id, id⟩
  | justify => exact ⟨id, id, id, id⟩
  | restDelay => exact .refl s
  | holdLimit => exact .refl s

theorem restartRest_staysBounded (s : State) : staysBounded s (restartRest s) := .of_frame (restartRest_frame s) (by decide)

theorem storeNumber_staysBounded (o : OptionId) (n : Nat) (s : State) : staysBounded s (storeNumber o n s) := by
  have hoptions (x : Options) : staysBounded s { s with options := x } := ⟨id, id, id, id⟩
  unfold storeNumber; split
  · exact (hoptions _).trans (restartRest_staysBounded _)
  · exact hoptions _
  · exact .refl s

theorem cmdSetOption_staysBounded (p : Port) (id : Byte) (value : Half) (s : State) :
    staysBounded s (cmdSetOption p id value s).1 := by
  unfold cmdSetOption
  split
  · exact .refl s
  split
  · exact .refl s
  split
  · exact storeNumber_staysBounded _ _ s
  split
  · exact .refl s
  · exact storeSwitch_staysBounded _ p _ s

theorem cmdPartition_staysBounded (pool words linkRing consoleRing : Half) (s : State) :
    staysBounded s (cmdPartition pool words linkRing consoleRing s).1 := by
  have hemptied (q : Partition) : staysBounded s (emptyMemory { s with partition := q }) :=
    .after (emptyMemory_staysBounded _) ⟨id, id, id, id⟩
  unfold cmdPartition; dsimp only
  split
  · exact .refl s
  split
  · exact .refl s
  split
  · exact .refl s
  · exact (hemptied _).trans ⟨id, id, fun i => ⟨Nat.zero_le _, i.2⟩, id⟩

/-! ### Every block -/

/-- R174: whatever a command's owner does, it keeps the bounds. -/
theorem owner_staysBounded {c : Instr} {f : State → State × Reply} (h : ownerOf c = some f) (s : State) :
    staysBounded s (f s).1 := by
  cases c <;> cases h
  case setOption => exact cmdSetOption_staysBounded _ _ _ s
  case partition => exact cmdPartition_staysBounded _ _ _ _ s
  case setMargins => exact cmdSetMargins_staysBounded _ _ _ s
  case setTab => exact cmdSetTab_staysBounded _ _ s
  case clearTab => exact cmdClearTab_staysBounded _ _ s
  case clearAllTabs => exact formatCommand_staysBounded _ (setFormat_staysBounded _ (.refl s))
  case setSpacing => exact cmdSetSpacing_staysBounded _ _ s
  case setLineSpacing => exact formatCommand_staysBounded _ (setFormat_staysBounded _ (.refl s))
  case setImpression => exact cmdSetImpression_staysBounded _ _ s
  case setMarginZone => exact formatCommand_staysBounded _ (setFormat_staysBounded _ (.refl s))
  case setPageLength => exact formatCommand_staysBounded _ (setFormat_staysBounded _ (.refl s))
  case readStatus => exact cmdReadStatus_staysBounded _ s
  case setNotices => exact cmdSetNotices_staysBounded _ _ _ _ s
  case restart => exact cmdRestart_staysBounded s
  case keyStroke => exact cmdKeyStroke_staysBounded _ _ s
  case typeText => exact cmdTypeText_staysBounded _ s
  case releaseLine => exact cmdReleaseLine_staysBounded _ s
  case awaitKeys => exact cmdAwaitKeys_staysBounded _ _ _ s
  case cancelAwait => exact cancelAwaits_staysBounded s
  case readFormat => exact .refl s
  case feed => exact cmdFeed_staysBounded _ _ s
  case formFeed => exact cmdFormFeed_staysBounded _ s
  case cancelPrinting p => exact (cancelJobs_staysBounded p s).settle
  case rehome => exact cmdRehome_staysBounded s
  case wheelChange => exact cmdWheelChange_staysBounded s
  case wheelMounted => exact cmdWheelMounted_staysBounded s
  case loadSupply => exact cmdLoadSupply_staysBounded _ _ _ s
  case liftLast => exact takeLift_staysBounded _ _ _ s
  case liftWord => exact takeLift_staysBounded _ _ _ s
  case liftLine => exact takeLift_staysBounded _ _ _ s
  case liftBack => exact cmdLiftBack_staysBounded _ _ _ s
  case retractLine => exact takeLift_staysBounded _ _ _ s
  case relocate => exact cmdRelocate_staysBounded s
  case readSuspect => unfold cmdReadSuspect; split <;> exact .refl s
  case ignoreSuspect => exact cmdIgnoreSuspect_staysBounded _ s
  case addWordByIndex => exact cmdAddWordByIndex_staysBounded _ s
  case addWord => exact cmdAddWord_staysBounded _ s
  case removeWord => exact cmdRemoveWord_staysBounded _ s
  case saveUserWords => exact cmdSaveUserWords_staysBounded _ s
  case checkWord => exact cmdCheckWord_staysBounded _ s
  case showMessage => exact cmdShowMessage_staysBounded _ _ _ s
  case clearMessage => exact cmdClearMessage_staysBounded _ s
  case setTones => exact cmdSetTones_staysBounded _ _ _ s

section
variable (p : Port) (code : Byte) (count : Nat) {f : State → State × Reply} (s : State)

theorem taken_staysBounded : staysBounded s (taken p s) := .of_frame (taken_frame p s) (by cases p <;> decide)

theorem refusedBlock_staysBounded (st : Status) : staysBounded s (finish (refuseBlock p code st s)) :=
  staysBounded.finish (.of_frame (refuseBlock_frame p code st s) (by cases p <;> decide))

theorem checked_staysBounded (st : Status) : staysBounded s (finish ((taken p s).reply p code (.plain st))) :=
  ((taken_staysBounded p s).reply p code _).finish

theorem owned_staysBounded (hf : ∀ u, staysBounded u (f u).1) :
    staysBounded s (finish ((f (taken p s)).1.reply p code (f (taken p s)).2)) :=
  (((taken_staysBounded p s).trans (hf _)).reply p code _).finish

theorem takeBlock_staysBounded (hf : ∀ u, staysBounded u (f u).1) : staysBounded s (takeBlock p code count f s) := by
  unfold takeBlock; dsimp only; split
  · exact checked_staysBounded p code s _
  · exact owned_staysBounded p code s hf

theorem offer_staysBounded (hf : ∀ u, staysBounded u (f u).1) : staysBounded s (offer p code count f s) :=
  offer_keeps (P := staysBounded s) (.refl s) (.of_frame (loseByte_frame p s) (by cases p <;> decide))
    (fun st => refusedBlock_staysBounded p code s st) (fun st => checked_staysBounded p code s st)
    (owned_staysBounded p code s hf)

theorem blockOwner_staysBounded (data : List Byte) : staysBounded s (blockOwner p code data s).1 := by
  cases h : (decodeBlock p code data).bind ownerOf with
  | none =>
    have e : blockOwner p code data = refuse .length := by rw [blockOwner, h]
    rw [e]; exact .refl s
  | some f =>
    have e : blockOwner p code data = f := by rw [blockOwner, h]
    obtain ⟨c, -, hc⟩ := Option.bind_eq_some_iff.1 h
    rw [e]; exact owner_staysBounded hc s

end

theorem setPort_staysBounded (p : Port) (v : PortState) (s : State) : staysBounded s (s.setPort p v) :=
  .of_frame (s.setPort_frame p v) (by cases p <;> decide)

theorem writeByte_staysBounded (p : Port) (b : Byte) (s : State) : staysBounded s (writeByte p b s) := by
  have hassemble (bytes : List Byte) : staysBounded s (assemble p bytes s) := setPort_staysBounded p _ s
  unfold writeByte takeByte
  split
  · exact .refl s
  split
  · exact setPort_staysBounded p _ s
  split
  · split
    · exact refusedBlock_staysBounded p _ s _
    split
    · exact hassemble _
    split
    · exact takeBlock_staysBounded p _ _ s fun u => blockOwner_staysBounded p _ u _
    · exact refusedBlock_staysBounded p _ s _
  · exact hassemble _

/-! ### The events -/

theorem resetPort_staysBounded (p : Port) (s : State) : staysBounded s (resetPort p s) := by
  have hport : staysBounded s (restartRest (s.setPort p (s.port p).resetInput)) :=
    (setPort_staysBounded p _ s).trans (restartRest_staysBounded _)
  have hrelocate (t : State) : staysBounded t (performRelocate t) := by
    unfold performRelocate; split
    · exact .refl t
    · split
      · exact appendJob_staysBounded _ t ‹_›
      · exact ⟨id, id, id, id⟩
  have hline (t : State) : staysBounded t (resetHeldLine p t) :=
    .ite (.ite (.after (hrelocate _) (.after ⟨id, id, id, id⟩ (setFragment_staysBounded p none t)))
      (.after (discardLine_staysBounded _) (.after ⟨id, id, id, id⟩ (setFragment_staysBounded p none t))))
      (setFragment_staysBounded p none t)
  have hstrokes (t : State) : staysBounded t (resetStrokes p t) := by cases p <;> exact ⟨id, id, id, id⟩
  have hqueries (t : State) : staysBounded t (if p = .link then dropQueries t else t) :=
    .ite (.spelling t _ le_rfl le_rfl (discardLookups_length _ _)) (.refl t)
  have hoverlay (t : State) : staysBounded t (if ownsOverlay p t then dropOverlay t else t) :=
    .ite ⟨id, id, id, id⟩ (.refl t)
  exact ((((hport.trans (hline _)).trans (hstrokes _)).trans (hqueries _)).trans (hoverlay _)).endStep

theorem motionEnded_staysBounded (s : State) : staysBounded s (motionEnded s) := by
  unfold motionEnded; split
  · split
    · exact orderDone_staysBounded s
    · exact .engine s _ (by rw [fireOrRaise_queue])
    · exact .refl s
  · exact .refl s

theorem wheelSettled_staysBounded (s : State) : staysBounded s (wheelSettled s) := by
  unfold wheelSettled; split
  · exact staysBounded.endStep (.after (motionEnded_staysBounded _) ⟨id, id, id, id⟩)
  · exact .refl s

theorem carrierArrived_staysBounded (s : State) : staysBounded s (carrierArrived s) := by
  unfold carrierArrived; split
  · exact staysBounded.endStep (.after (motionEnded_staysBounded _) ⟨id, id, id, id⟩)
  · exact .refl s

theorem hammerPulseEnd_staysBounded (s : State) : staysBounded s (hammerPulseEnd s) := by
  unfold hammerPulseEnd; split <;> exact ⟨id, id, id, id⟩

theorem tapeRaised_staysBounded (s : State) : staysBounded s (tapeRaised s) := by
  unfold tapeRaised; split <;> exact ⟨id, id, id, id⟩

theorem completeBlow_staysBounded (s : State) : staysBounded s (completeBlow s) := by
  unfold completeBlow; split
  · exact (completeStrike_staysBounded _ s).trans (orderDone_staysBounded _)
  · exact (completeLift_staysBounded _ _ s).trans (orderDone_staysBounded _)
  · exact .refl s

theorem hammerReturned_staysBounded (s : State) : staysBounded s (hammerReturned s) := by
  unfold hammerReturned; split
  · exact staysBounded.endStep (.after (completeBlow_staysBounded _) ⟨id, id, id, id⟩)
  · exact .refl s
  · exact .refl s

theorem platenStopped_staysBounded (s : State) : staysBounded s (platenStopped s) := by
  unfold platenStopped; split
  · exact staysBounded.endStep (.after (orderDone_staysBounded _) (.after (completeFeed_staysBounded _ _) ⟨id, id, id, id⟩))
  · exact staysBounded.endStep (.after (orderDone_staysBounded _) (.after (newTop_staysBounded _) ⟨id, id, id, id⟩))
  · exact .refl s

theorem askTable_staysBounded (hub : Nat) (s : State) : staysBounded s (askTable hub s) :=
  .ite (homingRefused_staysBounded 0 2 s) (requestTable_staysBounded hub s)

theorem wakeFound_staysBounded (hub : Nat) (s : State) : staysBounded s (wakeFound hub s) := by
  unfold wakeFound; split
  · exact .ite (homingLoaded_staysBounded _ false s)
      (.after (askTable_staysBounded hub _) (.after ⟨id, id, id, id⟩ (cancelJobs_staysBounded .console s)))
  · exact askTable_staysBounded hub s

theorem hubRead_staysBounded (h : Homing) (hub : Nat) (s : State) : staysBounded s (hubRead h hub s) := by
  have hpage (t : State) : staysBounded t (newPage t) := newTop_staysBounded t
  exact .ite (.after (askTable_staysBounded hub _) (.after (hpage _) ⟨id, id, id, id⟩))
    (.ite (.after (wakeFound_staysBounded hub _) ⟨id, id, id, id⟩) (.after (askTable_staysBounded hub _) ⟨id, id, id, id⟩))

theorem indexFound_staysBounded (hub : BitVec 6) (s : State) : staysBounded s (indexFound hub s) := by
  unfold indexFound; split
  · exact .ite (hubRead_staysBounded _ _ s).endStep (.refl s)
  · exact .refl s

theorem faultWhen_staysBounded (running : Bool) (cause : FaultCause) (s : State) :
    staysBounded s (faultWhen running cause s) :=
  .ite (enterFault_staysBounded cause s).endStep (.refl s)

theorem restExpiry_staysBounded (s : State) : staysBounded s (restExpiry s) :=
  .ite (.finish ⟨id, id, id, id⟩) (.refl s)

theorem holdExpiry_staysBounded (s : State) : staysBounded s (holdExpiry s) := by
  unfold holdExpiry; split
  · exact staysBounded.endStep (.after (forceEnd_staysBounded _ _) ⟨id, id, id, id⟩)
  · exact .refl s

theorem awaitExpiry_staysBounded (place : Nat) (s : State) : staysBounded s (awaitExpiry place s) := by
  unfold awaitExpiry; split
  · exact .ite (staysBounded.finish (.of_frame (completeAwait_frame place _ 1 s) (by decide))) (.refl s)
  · exact .refl s

theorem storeOpDone_staysBounded (bytes : List Byte) (s : State) : staysBounded s (storeOpDone bytes s) := by
  have hfree (st : Store) : staysBounded s { s with store := st } := ⟨id, id, id, id⟩
  unfold storeOpDone; split
  · exact .refl s
  split
  · refine staysBounded.endStep ?_
    dsimp only; split
    · exact (hfree _).trans (startUpStep_staysBounded bytes _)
    · exact (hfree _).trans (wheelRead_staysBounded bytes _)
    · exact (hfree _).trans (saveStepDone_staysBounded _)
    · exact (hfree _).trans (lookupRead_staysBounded bytes _)
  · exact .refl s

theorem overlayEnd_staysBounded (s : State) : staysBounded s (overlayEnd s) := by
  unfold overlayEnd; split
  · exact .ite (.finish ⟨id, id, id, id⟩) (.refl s)
  · exact .refl s

theorem homeReached_staysBounded (s : State) : staysBounded s (homeReached s) := by
  unfold homeReached; split
  · split <;> exact ⟨id, id, id, id⟩
  · exact .refl s

theorem busyExpiry_staysBounded (s : State) : staysBounded s (busyExpiry s) := .ite (storeFault_staysBounded s).endStep (.refl s)

/-- R193: at power-on and reset all five are empty. -/
theorem reset_staysBounded (s : State) : staysBounded s { State.reset with pending := s.pending } :=
  ⟨fun _ => Nat.zero_le _, fun _ => Nat.zero_le _, fun _ => ⟨Nat.zero_le _, Nat.zero_le _⟩, fun _ => Nat.zero_le _⟩

theorem eventOf_staysBounded (c : Instr) (s : State) : staysBounded s (eventOf c s) := by
  cases c
  case powerOn => exact reset_staysBounded s
  case resetLine => exact reset_staysBounded s
  case dataWrite p b => exact writeByte_staysBounded p b s
  case portReset p => exact resetPort_staysBounded p s
  case dataRead p => exact setPort_staysBounded p _ s
  case statusRead p => exact setPort_staysBounded p _ s
  case resetInputRelease p => exact setPort_staysBounded p _ s
  case gapTimerExpiry p => exact .of_frame (gapExpiry_frame p s) (by cases p <;> decide)
  case composeStroke => exact composeStep_staysBounded s
  case lineConversion => exact convertStep_staysBounded s
  case jobStart => exact (startJob_staysBounded s).endStep
  case wheelSettled => exact wheelSettled_staysBounded s
  case carrierArrived => exact carrierArrived_staysBounded s
  case hammerPulseEnd => exact hammerPulseEnd_staysBounded s
  case hammerReturned => exact hammerReturned_staysBounded s
  case tapeRaised => exact tapeRaised_staysBounded s
  case platenStopped => exact platenStopped_staysBounded s
  case homeReached => exact homeReached_staysBounded s
  case indexFound hub => exact indexFound_staysBounded hub s
  case wheelLimitExpiry => exact faultWhen_staysBounded _ _ s
  case carrierLimitExpiry => exact faultWhen_staysBounded _ _ s
  case hammerLimitExpiry => exact faultWhen_staysBounded _ _ s
  case tapeLimitExpiry => exact faultWhen_staysBounded _ _ s
  case homingLimitExpiry => exact faultWhen_staysBounded _ _ s
  case restTimerExpiry => exact restExpiry_staysBounded s
  case holdLimitExpiry => exact holdExpiry_staysBounded s
  case awaitTimeout place => exact awaitExpiry_staysBounded place s
  case storeOpComplete bytes => exact storeOpDone_staysBounded bytes s
  case busyLimitExpiry => exact busyExpiry_staysBounded s
  case overlayExpiry => exact overlayEnd_staysBounded s
  all_goals exact ⟨id, id, id, id⟩

/-! ### The tick and the step -/

section
variable {n : Nat} {timer : Option Nat} {more : Nat → State} {s last : State}

theorem countDown_staysBounded (hm : ∀ k, staysBounded s (more k)) (hl : staysBounded s last) :
    staysBounded s (countDown n more last) := countDown_keeps hm hl

theorem countTimer_staysBounded (hm : ∀ k, staysBounded s (more k)) (hl : staysBounded s last) :
    staysBounded s (countTimer timer more last s) := countTimer_keeps (.refl s) (fun _ _ => hm) hl

end

theorem tickAwaits_staysBounded (s : State) : staysBounded s (tickAwaits s) := by
  rw [tickAwaits_eq, foldl_keysNotice]; exact ⟨id, id, id, id⟩

/-- Log entry 1: a tick lowers counts and runs the expiries. -/
theorem tick_staysBounded (s : State) : staysBounded s (tick s) := by
  have blink (s) : staysBounded s (tickBlink s) := countDown_staysBounded (fun _ => ⟨id, id, id, id⟩) ⟨id, id, id, id⟩
  have tone (s) : staysBounded s (tickTone s) := by
    unfold tickTone; split
    · exact countDown_staysBounded (fun _ => ⟨id, id, id, id⟩) ⟨id, id, id, id⟩
    · exact .refl s
  have overlay (s) : staysBounded s (tickOverlay s) := by
    unfold tickOverlay; split
    · exact .ite (.refl s) (countDown_staysBounded (fun _ => ⟨id, id, id, id⟩) (overlayEnd_staysBounded s))
    · exact .refl s
  have rest (s) : staysBounded s (tickRest s) :=
    countTimer_staysBounded (fun _ => ⟨id, id, id, id⟩) (restExpiry_staysBounded s)
  have hold (s) : staysBounded s (tickHold s) :=
    countTimer_staysBounded (fun _ => ⟨id, id, id, id⟩) (holdExpiry_staysBounded s)
  have gap (p s) : staysBounded s (tickGap p s) :=
    countTimer_staysBounded (fun _ => setPort_staysBounded p _ s)
      (.of_frame (gapExpiry_frame p s) (by cases p <;> decide))
  have wheel (s) : staysBounded s (tickWheel s) := by
    unfold tickWheel; split
    · exact countDown_staysBounded (fun _ => ⟨id, id, id, id⟩) (faultWhen_staysBounded _ _ s)
    · exact .refl s
  have carrier (s) : staysBounded s (tickCarrier s) := by
    unfold tickCarrier; split
    · exact countDown_staysBounded (fun _ => ⟨id, id, id, id⟩) (faultWhen_staysBounded _ _ s)
    · exact .refl s
  have hammer (s) : staysBounded s (tickHammer s) := by
    unfold tickHammer; split
    · exact countDown_staysBounded (fun _ => ⟨id, id, id, id⟩) (faultWhen_staysBounded _ _ s)
    · exact .refl s
    · exact .refl s
  have tape (s) : staysBounded s (tickTape s) := by
    unfold tickTape; split
    · exact countDown_staysBounded (fun _ => ⟨id, id, id, id⟩) (faultWhen_staysBounded _ _ s)
    · exact .refl s
    · exact .refl s
  have homing (s) : staysBounded s (tickHoming s) :=
    countTimer_staysBounded (fun _ => ⟨id, id, id, id⟩) (faultWhen_staysBounded _ _ s)
  have busy (s) : staysBounded s (tickBusy s) := by
    unfold tickBusy; split
    · exact countTimer_staysBounded (fun _ => ⟨id, id, id, id⟩) (busyExpiry_staysBounded s)
    · exact .refl s
  exact (((((((((((((blink s).trans (tone _)).trans (overlay _)).trans (rest _)).trans (hold _)).trans
    (tickAwaits_staysBounded _)).trans (gap _ _)).trans (gap _ _)).trans (wheel _)).trans (carrier _)).trans
    (hammer _)).trans (tape _)).trans (homing _)).trans (busy _)

/-- A step is a tick, an event or a block, each from the state without the command it takes. -/
theorem step_staysBounded {s t : State} (h : step s = .next t) : staysBounded s t := by
  unfold step at h
  split at h
  · rename_i c rest _
    have htaken : staysBounded s { s with pending := rest } := ⟨id, id, id, id⟩
    refine htaken.trans ?_
    cases hc : ownerOf c with
    | none => rw [exec_event hc] at h; cases h; exact eventOf_staysBounded c _
    | some f =>
      obtain ⟨p, code, count, e⟩ := exec_block hc { s with pending := rest }
      rw [e] at h; cases h; exact offer_staysBounded p code count _ (owner_staysBounded hc)
  · cases h; exact tick_staysBounded s

/-- Settles O8: a job, a record, a suspect or a lookup joins its collection only where there is room, or where the oldest
makes way; everything else leaves the collections no longer than they were. -/
theorem stepKeepsBoundedCollections : Obligations.StepKeepsBoundedCollections := by
  unfold Obligations.StepKeepsBoundedCollections
  refine ⟨fun s t i h => ?_, fun s t i h => ?_, fun s t i h => ?_, fun s t i h => ?_⟩ <;>
    obtain ⟨hqueue, hrecords, hsuspects, hspell⟩ := step_staysBounded h
  · exact hqueue i
  · exact hrecords i
  · exact hsuspects i
  · exact hspell i

end Sys2Proof.Machine

/-! SUPPORT. Feed and Form Feed (R76, R77), Rehome, Wheel Change and Wheel Mounted (R80, R85, R86): their checks in order,
and what they start. -/

namespace Sys2Proof.Machine

/-! ### A new engine -/

theorem engine_frame (s : State) (e : Engine) : changesOnly [.engine] s { s with engine := e } := by
  intro q hq; cases q <;> first | exact absurd hq (by decide) | rfl

/-- A new engine, with the Rest timer set along with it. -/
theorem engineRest_frame (s : State) (e : Engine) (r : Option Nat) :
    changesOnly [.engine, .restTimer] s { s with engine := e, restTimer := r } := by
  intro q hq; cases q <;> first | exact absurd hq (by decide) | rfl

/-! ### Feed and Form Feed -/

/-- R76: the first check that fails. -/
theorem feedRefusal_eq (p : Port) (s : State) : feedRefusal p s =
    if ownsFormat p s = false then some .busy
    else if s.lift.away = true then some .away
    else if s.engine.state = .fault ∨ 4 ≤ s.engine.queue.length then some .busy
    else none := by
  have hroom : (!s.engine.room) = decide (4 ≤ s.engine.queue.length) := by
    rw [Engine.room, show Config.queueJobs = 4 from rfl, ← decide_not]
    exact decide_eq_decide.2 Nat.not_lt
  unfold feedRefusal
  rw [hroom]
  by_cases hfault : s.engine.state = .fault <;> simp [hfault]

theorem feedRefusal_taken (p : Port) (s : State) : feedRefusal p (taken p s) = feedRefusal p s := by
  unfold feedRefusal ownsFormat; rw [taken_line, taken_lift, taken_engine]

theorem cmdFeed_refused {p : Port} {n : Byte} {s : State} {st : Status} (h : feedRefusal p s = some st) :
    cmdFeed p n (taken p s) = refuse st (taken p s) := by
  unfold cmdFeed; rw [feedRefusal_taken, h]

theorem cmdFeed_range {p : Port} {n : Byte} {s : State} (h : feedRefusal p s = none)
    (hn : n.toInt = 0 ∨ n.toInt < -16 ∨ 16 < n.toInt) : cmdFeed p n (taken p s) = refuse .range (taken p s) := by
  unfold cmdFeed; rw [feedRefusal_taken, h]
  dsimp only
  rw [if_pos (by simp [or_assoc, hn])]

theorem cmdFeed_taken {p : Port} {n : Byte} {s : State} (h : feedRefusal p s = none) (h0 : n.toInt ≠ 0)
    (hlow : -16 ≤ n.toInt) (hhigh : n.toInt ≤ 16) :
    cmdFeed p n (taken p s) = (appendJob (motionJob p (.feed n.toInt)) (taken p s), .plain .started) := by
  unfold cmdFeed; rw [feedRefusal_taken, h]
  dsimp only
  rw [if_neg (by simp [h0, hlow, hhigh])]

theorem cmdFormFeed_refused {p : Port} {s : State} {st : Status} (h : feedRefusal p s = some st) :
    cmdFormFeed p (taken p s) = refuse st (taken p s) := by
  unfold cmdFormFeed; rw [feedRefusal_taken, h]

theorem cmdFormFeed_taken {p : Port} {s : State} (h : feedRefusal p s = none) :
    cmdFormFeed p (taken p s) = (appendJob (motionJob p .eject) (taken p s), .plain .started) := by
  unfold cmdFormFeed; rw [feedRefusal_taken, h]

section
variable {p : Port} {s : State}

theorem feedRefusal_notOwned (h : ownsFormat p s = false) : feedRefusal p s = some .busy := by
  rw [feedRefusal_eq, if_pos h]

theorem feedRefusal_away (h : ownsFormat p s = true) (ha : s.lift.away = true) : feedRefusal p s = some .away := by
  rw [feedRefusal_eq, if_neg (by rw [h]; decide), if_pos ha]

theorem feedRefusal_busy (h : ownsFormat p s = true) (ha : s.lift.away = false)
    (hb : s.engine.state = .fault ∨ 4 ≤ s.engine.queue.length) : feedRefusal p s = some .busy := by
  rw [feedRefusal_eq, if_neg (by rw [h]; decide), if_neg (by rw [ha]; decide), if_pos hb]

theorem feedRefusal_none (h : ownsFormat p s = true) (ha : s.lift.away = false) (hf : s.engine.state ≠ .fault)
    (hq : s.engine.queue.length < 4) : feedRefusal p s = none := by
  rw [feedRefusal_eq, if_neg (by rw [h]; decide), if_neg (by rw [ha]; decide), if_neg (by simp [hf, hq])]

end

/-- Settles O34: the checks of Feed and Form Feed are one list, in the order of the text, and what passes them is one
job. -/
theorem feedAndFormFeed : Obligations.FeedAndFormFeed := by
  unfold Obligations.FeedAndFormFeed
  intro p n s hf
  refine ⟨⟨_, runBlock_taken hf (by decide) (by cases p <;> rfl), ?_, ?_, ?_, ?_, ?_⟩,
    ⟨_, runBlock_taken hf (by decide) (by cases p <;> rfl), ?_, ?_, ?_, ?_⟩⟩
  · intro h
    rw [cmdFeed_refused (feedRefusal_notOwned h)]; exact blockOnly_refused p 0x30 _ s
  · intro h ha
    rw [cmdFeed_refused (feedRefusal_away h ha)]; exact blockOnly_refused p 0x30 _ s
  · intro h ha hb
    rw [cmdFeed_refused (feedRefusal_busy h ha hb)]; exact blockOnly_refused p 0x30 _ s
  · intro h ha hs hq hn
    rw [cmdFeed_range (feedRefusal_none h ha hs hq) hn]; exact blockOnly_refused p 0x30 _ s
  · intro h ha hs hq h0 hlow hhigh
    rw [cmdFeed_taken (feedRefusal_none h ha hs hq) h0 hlow hhigh]; exact jobTaken_of _ p 0x30 s
  · intro h
    rw [cmdFormFeed_refused (feedRefusal_notOwned h)]; exact blockOnly_refused p 0x31 _ s
  · intro h ha
    rw [cmdFormFeed_refused (feedRefusal_away h ha)]; exact blockOnly_refused p 0x31 _ s
  · intro h ha hb
    rw [cmdFormFeed_refused (feedRefusal_busy h ha hb)]; exact blockOnly_refused p 0x31 _ s
  · intro h ha hs hq
    rw [cmdFormFeed_taken (feedRefusal_none h ha hs hq)]; exact jobTaken_of _ p 0x31 s

/-! ### Rehome, Wheel Change and Wheel Mounted -/

/-- R80: Rehome is taken in Fault, and with an empty queue in four other states. -/
theorem rehomeTaken_iff (e : Engine) : rehomeTaken e = true ↔ e.state = .fault ∨ (e.queue = [] ∧
    (e.state = .ready ∨ e.state = .resting ∨ e.state = .supplyOut ∨ e.state = .wheelFault)) := by
  unfold rehomeTaken; split <;> simp_all

/-- A command of the console that changes the engine and stops the Rest timer, and makes no notice. -/
theorem engineSet_answered {code : Byte} {r : Reply} {s u : State} (e : Engine)
    (hu : u = { taken .console s with engine := e, restTimer := none }) :
    answered .console code r s (finish (u.reply .console code r)) ∧ (finish (u.reply .console code r)).engine = e
      ∧ (finish (u.reply .console code r)).restTimer = none
      ∧ changesOnly [.console, .engine, .restTimer, .display, .holdTimer] s (finish (u.reply .console code r)) := by
  subst hu
  refine ⟨?_, rfl, rfl, ?_⟩
  · unfold answered; rw [finish_port, State.reply_port]; exact congrArg (fun v : PortState =>
      { v with queue := v.queue ++ [r.block code] }) (taken_port .console s)
  · exact ((((taken_frame .console s).mono (by decide)).trans ((engineRest_frame _ e none).mono (by decide))).trans
      ((State.reply_frame _ .console code r).mono (by decide))).trans ((finish_frame _).mono (by decide))

theorem cmdRehome_taken (s : State) : cmdRehome (taken .console s) =
    if s.lift.away = true then refuse .away (taken .console s)
    else if rehomeTaken s.engine = true then (startFullHoming (taken .console s), .plain .started)
    else refuse .busy (taken .console s) := by
  unfold cmdRehome; rw [taken_lift, taken_engine]

theorem cmdWheelChange_taken (s : State) : cmdWheelChange (taken .console s) =
    if s.lift.away = true then refuse .away (taken .console s)
    else if (s.engine.state = .ready ∨ s.engine.state = .resting) ∧ s.engine.queue = [] then
      (startWheelChange (taken .console s), .plain .done)
    else refuse .busy (taken .console s) := by
  unfold cmdWheelChange; rw [taken_lift, taken_engine]
  simp only [Bool.and_eq_true, Bool.or_eq_true, decide_eq_true_eq, List.isEmpty_iff]

/-- R85: the carrier is sent to 780 unless it stands there. -/
theorem startCarrier_change (e : Engine) : startCarrier Config.changePosition e =
    { e with carrierMove := if e.carrier = 780 then e.carrierMove else some { target := 780, limit := 61 } } := by
  unfold startCarrier
  show (if e.carrier = 780 then e else _) = _
  split <;> rfl

theorem cmdWheelMounted_taken (s : State) : cmdWheelMounted (taken .console s) =
    if s.engine.state = .wheelChange then
      if s.engine.carrierMove.isSome = true then refuse .busy (taken .console s)
      else (startWheelHoming false (taken .console s), .plain .started)
    else if s.engine.state = .wheelFault then (startWheelHoming false (taken .console s), .plain .started)
    else refuse .notInMode (taken .console s) := by
  unfold cmdWheelMounted; rw [taken_engine]

theorem rehome_outcome (s : State) (hf : portFree .console s) : ∃ t, exec (.rehome .console) s = .next t
    ∧ (s.lift.away = true → blockOnly .console 0x33 (.plain .away) s t)
    ∧ (s.lift.away = false → rehomeTaken s.engine = false → blockOnly .console 0x33 (.plain .busy) s t)
    ∧ (s.lift.away = false → rehomeTaken s.engine = true →
        answered .console 0x33 (.plain .started) s t
          ∧ t.engine = { s.engine with
              state := .homing, homing := some { full := true, wake := false, stage := .carrier }
              homingLimit := some 301, petalMap := none, wheelMove := none, carrierMove := none, hammer := .idle
              tapeGuide := .down, platenMove := none }
          ∧ t.restTimer = none ∧ changesOnly [.console, .engine, .restTimer, .display, .holdTimer] s t) := by
  refine ⟨_, runBlock_taken hf (by decide) rfl, fun ha => ?_, fun ha hr => ?_, fun ha hr => ?_⟩
  · rw [cmdRehome_taken, if_pos ha]; exact blockOnly_refused .console 0x33 _ s
  · rw [cmdRehome_taken, if_neg (by rw [ha]; decide), if_neg (by rw [hr]; decide)]
    exact blockOnly_refused .console 0x33 _ s
  · rw [cmdRehome_taken, if_neg (by rw [ha]; decide), if_pos hr]
    refine engineSet_answered _ ?_
    unfold startFullHoming; rw [taken_engine]; rfl

theorem wheelMounted_started (s : State) :
    let t := finish ((startWheelHoming false (taken .console s)).reply .console 0x35 (.plain .started))
    answered .console 0x35 (.plain .started) s t
      ∧ t.engine = { s.engine with
          state := .homing, homing := some { full := false, wake := false, stage := .wheel }
          homingLimit := some 301 }
      ∧ t.restTimer = none ∧ changesOnly [.console, .engine, .restTimer, .display, .holdTimer] s t := by
  refine engineSet_answered _ ?_
  unfold startWheelHoming; rw [taken_engine]; rfl

/-- Settles O36: each of the three commands tests Away, the state and the queue, and what passes sets the engine and stops
the Rest timer. -/
theorem rehomeAndWheelChange : Obligations.RehomeAndWheelChange := by
  unfold Obligations.RehomeAndWheelChange
  refine ⟨fun s hf => ?_, fun s hf => ⟨?_, ?_⟩⟩
  · obtain ⟨t, he, haway, hbusy, htaken⟩ := rehome_outcome s hf
    refine ⟨t, he, haway, fun ha hs => hbusy ha ?_, fun ha hs hq => hbusy ha ?_, fun ha h =>
      htaken ha ((rehomeTaken_iff _).2 h)⟩
    · unfold rehomeTaken; rcases hs with hs | hs | hs <;> rw [hs]
    · rw [Bool.eq_false_iff]
      exact fun h => ((rehomeTaken_iff _).1 h).elim hs fun h => hq h.1
  · refine ⟨_, runBlock_taken hf (by decide) rfl, fun ha => ?_, fun ha hb => ?_, fun ha hq hs => ?_⟩
    · rw [cmdWheelChange_taken, if_pos ha]; exact blockOnly_refused .console 0x34 _ s
    · have hno : ¬ ((s.engine.state = .ready ∨ s.engine.state = .resting) ∧ s.engine.queue = []) := fun h =>
        hb.elim (fun hq => hq h.2) fun hs => h.1.elim hs.1 hs.2
      rw [cmdWheelChange_taken, if_neg (by rw [ha]; decide), if_neg hno]
      exact blockOnly_refused .console 0x34 _ s
    · rw [cmdWheelChange_taken, if_neg (by rw [ha]; decide), if_pos ⟨hs, hq⟩]
      refine engineSet_answered _ ?_
      unfold startWheelChange; rw [startCarrier_change, taken_engine]
  · refine ⟨_, runBlock_taken hf (by decide) rfl, fun hc hw => ?_, fun hc hm => ?_, fun h => ?_⟩
    · rw [cmdWheelMounted_taken, if_neg hc, if_neg hw]; exact blockOnly_refused .console 0x35 _ s
    · rw [cmdWheelMounted_taken, if_pos hc, if_pos hm]; exact blockOnly_refused .console 0x35 _ s
    · have hstart : cmdWheelMounted (taken .console s) = (startWheelHoming false (taken .console s), .plain .started) := by
        rw [cmdWheelMounted_taken]
        rcases h with hw | ⟨hc, hm⟩
        · rw [if_neg (by rw [hw]; decide), if_pos hw]
        · rw [if_pos hc, if_neg (by rw [hm]; decide)]
      rw [hstart]; exact wheelMounted_started s

end Sys2Proof.Machine

/-! SUPPORT. What the end of a step leaves of the engine, the memory and the ports; a Direct-mode line that goes without a
job (R89, R90); Fault (R89, R126); and the Rest and hold limit timers (R83, R28). -/

namespace Sys2Proof.Machine

/-! ### The end of a step -/

@[simp] theorem endStep_engine (s : State) : (endStep s).engine = s.engine := (endStep_frame s).same .engine (by decide)
@[simp] theorem endStep_memory (s : State) : (endStep s).memory = s.memory := (endStep_frame s).same .memory (by decide)
@[simp] theorem endStep_lift (s : State) : (endStep s).lift = s.lift := (endStep_frame s).same .lift (by decide)
@[simp] theorem endStep_composer (s : State) : (endStep s).composer = s.composer := (endStep_frame s).same .composer (by decide)
@[simp] theorem endStep_restTimer (s : State) : (endStep s).restTimer = s.restTimer := (endStep_frame s).same .restTimer (by decide)
@[simp] theorem endStep_format (s : State) : (endStep s).format = s.format := (endStep_frame s).same .format (by decide)
@[simp] theorem endStep_options (s : State) : (endStep s).options = s.options := (endStep_frame s).same .options (by decide)

/-- With no line in Checking the end of a step sends no notice. -/
theorem endStep_port {s : State} (h : s.line.phase ≠ .checking) (p : Port) : (endStep s).port p = s.port p := by
  cases p
  · exact (endStep_unheld h).same .console (by decide)
  · exact endStep_link s

/-- A frame without the ports leaves what they hold. -/
theorem changesOnly.ports {parts : List Part} {s t : State} (h : changesOnly parts s t) (p : Port)
    (hp : .console ∉ parts ∧ .link ∉ parts) : t.port p = s.port p := by
  cases p
  · exact h .console hp.1
  · exact h .link hp.2

@[simp] theorem State.noticeBoth_port (s : State) (b : Block) (p : Port) : (s.noticeBoth b).port p = (s.port p).notice b := by
  cases p <;> rfl

/-! ### A line that goes without a job (R89, R90) -/

section
variable {p : Port} {s : State} (hh : s.line.holder = some p) (hm : s.line.mode = .direct)
include hh hm

/-- R40, R89: a Direct-mode line is discarded where the compose position stands. -/
theorem discardLine_direct : discardLine s = freeLine p (releaseJoined (dropLineSpelling s.line.serial s)) := by
  unfold discardLine; rw [hh, hm]; dsimp only; rw [if_neg (by decide)]

theorem discardLine_direct_line : (discardLine s).line = .free := by rw [discardLine_direct hh hm]; rfl

theorem discardLine_direct_composer : (discardLine s).composer = { s.composer with lastHolder := some p } := by
  rw [discardLine_direct hh hm, freeLine_composer, (releaseJoined_frame _).same .composer (by decide)]; rfl

end

/-- The compose position is set while the line is Free: the line stays so. -/
theorem setPosition_line_free {x : Nat} {s : State} (h : s.line = .free) : (setPosition x s).line = .free := by
  show (if s.line.isDirect then _ else s.line) = _
  rw [h]; rfl

/-! ### Fault (R89, R126) -/

/-- R89: all motion has stopped, and the jobs discarded are reported. -/
def faultReported (s : State) : State :=
  s.engine.queue.foldl (fun t j => reportFaulted j t)
    { s with
      engine := { s.engine with
        queue := []
        state := .fault
        homing := none
        homingLimit := none
        wheelMove := none
        carrierMove := none
        hammer := .idle
        tapeGuide := .down
        platenMove := none }
      restTimer := none }

/-- R68, R89: the tally is clear and Mechanism Fault has gone to both ports. -/
def faultTold (cause : FaultCause) (s : State) : State :=
  ({ faultReported s with engine := { (faultReported s).engine with tally := .clear } } : State).noticeBoth
    (Notice.mechanismFault cause.code)

/-- R89: the console's Direct-mode line is released at the left margin. -/
def faultReleased (s : State) : State :=
  if s.line.holder == some .console && s.line.mode == .direct then setPosition s.format.left (discardLine s) else s

/-- R126: Away ends at Fault. -/
def awayDropped (s : State) : State :=
  if s.lift.away then
    { restore s with lift := { (restore s).lift with away := false, target := none, point := none, owed := false } }
  else s

theorem enterFault_eq (cause : FaultCause) (s : State) : enterFault cause s = awayDropped
    { faultReleased (faultTold cause s) with
      display := { (faultReleased (faultTold cause s)).display with live := true } } := rfl

theorem faultReported_frame (s : State) :
    changesOnly [.console, .link, .engine, .spelling, .restTimer] s (faultReported s) := by
  exact ((engineRest_frame s _ none).mono (by decide)).trans (.foldl _ (fun t j => (reportFaulted_frame j t).mono (by decide)) _ _)

theorem faultTold_frame (cause : FaultCause) (s : State) :
    changesOnly [.console, .link, .engine, .spelling, .restTimer] s (faultTold cause s) := by
  exact ((faultReported_frame s).trans ((engine_frame _ _).mono (by decide))).trans ((State.noticeBoth_frame _ _).mono (by decide))

theorem faultReleased_frame (s : State) :
    changesOnly [.line, .composer, .display, .spelling] s (faultReleased s) :=
  .ite ((discardLine_frame s).trans ((setPosition_frame _ _).mono (by decide))) (.refl _ _)

theorem awayDropped_frame (s : State) : changesOnly [.memory, .lift] s (awayDropped s) := by
  unfold awayDropped; split
  · intro q hq; cases q <;> first | exact absurd hq (by decide) | rfl
  · exact .refl _ _

theorem awayDropped_away (s : State) : (awayDropped s).lift.away = false := by
  unfold awayDropped; split
  · rfl
  · simpa using ‹¬ s.lift.away = true›

theorem awayDropped_of_away {s : State} (h : s.lift.away = true) :
    (awayDropped s).lift.point = none ∧ (awayDropped s).lift.owed = false := by
  unfold awayDropped; rw [if_pos h]; exact ⟨rfl, rfl⟩

theorem enterFault_port (cause : FaultCause) (s : State) (p : Port) : (enterFault cause s).port p
    = ((s.port p).afterFault p s.engine.queue).notice (Notice.mechanismFault cause.code) := by
  have hreported : (faultReported s).port p = (s.port p).afterFault p s.engine.queue := by
    unfold faultReported
    rw [reportFaulted_foldl_port]
    cases p <;> rfl
  have htold : (faultTold cause s).port p = ((s.port p).afterFault p s.engine.queue).notice (Notice.mechanismFault cause.code) := by
    unfold faultTold
    rw [State.noticeBoth_port, ← hreported]
    cases p <;> rfl
  rw [enterFault_eq, ← htold, ← (faultReleased_frame (faultTold cause s)).ports p (by decide), (awayDropped_frame _).ports p (by decide)]
  cases p <;> rfl

theorem enterFault_restTimer (cause : FaultCause) (s : State) : (enterFault cause s).restTimer = none := by
  have hreported : (faultReported s).restTimer = none :=
    (changesOnly.foldl (parts := [.console, .link, .spelling]) _ (fun t j => reportFaulted_frame j t) s.engine.queue
      _).same .restTimer (by decide)
  have htold : (faultTold cause s).restTimer = (faultReported s).restTimer := rfl
  rw [enterFault_eq, (awayDropped_frame _).same .restTimer (by decide), ← hreported, ← htold]
  exact (faultReleased_frame _).same .restTimer (by decide)

theorem enterFault_lift (cause : FaultCause) (s : State) : (enterFault cause s).lift.away = false
    ∧ (s.lift.away = true → (enterFault cause s).lift.point = none ∧ (enterFault cause s).lift.owed = false) := by
  rw [enterFault_eq]
  refine ⟨awayDropped_away _, fun h => awayDropped_of_away ?_⟩
  have hlift : (faultReleased (faultTold cause s)).lift = s.lift :=
    ((faultReleased_frame _).same .lift (by decide)).trans ((faultTold_frame cause s).same .lift (by decide))
  show (faultReleased (faultTold cause s)).lift.away = true
  rw [hlift]; exact h

/-- R89: the console's Direct-mode line goes, any other stays. -/
theorem enterFault_line (cause : FaultCause) (s : State) : (enterFault cause s).line =
    if s.line.holder = some .console ∧ s.line.mode = .direct then .free else s.line := by
  have htold : (faultTold cause s).line = s.line := (faultTold_frame cause s).same .line (by decide)
  rw [enterFault_eq, (awayDropped_frame _).same .line (by decide)]
  show (faultReleased (faultTold cause s)).line = _
  unfold faultReleased
  rw [htold]
  by_cases h : s.line.holder = some .console ∧ s.line.mode = .direct
  · rw [if_pos h, if_pos (by simp [h])]
    exact setPosition_line_free (discardLine_direct_line (by rw [htold]; exact h.1) (by rw [htold]; exact h.2))
  · rw [if_neg h, if_neg (by simpa using h)]; exact htold

theorem enterFault_composer_direct (cause : FaultCause) {s : State} (hh : s.line.holder = some .console)
    (hm : s.line.mode = .direct) : (enterFault cause s).composer =
      { s.composer with lastHolder := some .console, position := s.format.left } := by
  have htold : (faultTold cause s).line = s.line := (faultTold_frame cause s).same .line (by decide)
  have hformat : (faultTold cause s).format = s.format := (faultTold_frame cause s).same .format (by decide)
  have hcomposer : (faultTold cause s).composer = s.composer := (faultTold_frame cause s).same .composer (by decide)
  rw [enterFault_eq, (awayDropped_frame _).same .composer (by decide)]
  show (faultReleased (faultTold cause s)).composer = _
  unfold faultReleased
  rw [htold, if_pos (by simp [hh, hm]), setPosition_composer, hformat,
    discardLine_direct_composer (by rw [htold]; exact hh) (by rw [htold]; exact hm), hcomposer]

/-- R89: at Fault a line in Checking is one that stays. -/
theorem enterFault_phase (cause : FaultCause) {s : State} (h : s.line.phase ≠ .checking) :
    (enterFault cause s).line.phase ≠ .checking := by
  rw [enterFault_line]; split
  · decide
  · exact h

@[simp] theorem PortState.reported_enable (report : Job → Block) (v : PortState) (p : Port) (gone : List Job) :
    (v.reported report p gone).enable = v.enable := by
  unfold PortState.reported
  induction gone.filter (·.source == p) generalizing v with
  | nil => rfl
  | cons j rest ih => rw [List.foldl_cons, ih, PortState.notice_enable]

/-- What a limit that runs comes to at its end. -/
theorem fault_outcome (cause : FaultCause) (s : State) :
    let t := endStep (enterFault cause s)
    t.engine = { s.engine with
        queue := [], state := .fault, homing := none, homingLimit := none, wheelMove := none, carrierMove := none
        hammer := .idle, tapeGuide := .down, platenMove := none, tally := .clear }
    ∧ t.restTimer = none ∧ t.lift.away = false
    ∧ (s.lift.away = true → t.lift.point = none ∧ t.lift.owed = false)
    ∧ (enabled s.link.enable 0xAB = true → ({ kind := 0xAB, data := [byte cause.code] } : Block) ∈ t.link.queue)
    ∧ t.link = (s.link.afterFault .link s.engine.queue).notice ⟨0xAB, [byte cause.code]⟩
    ∧ (s.line.phase ≠ .checking →
        t.console = (s.console.afterFault .console s.engine.queue).notice ⟨0xAB, [byte cause.code]⟩)
    ∧ (s.line.holder = some .console → s.line.mode = .direct → t.line = .free
        ∧ t.composer.position = s.format.left ∧ t.composer.lastHolder = some .console)
    ∧ changesOnly [.console, .link, .line, .composer, .engine, .memory, .lift, .spelling, .store, .display, .tones,
        .holdTimer, .restTimer] s t := by
  dsimp only
  have hlink : (enterFault cause s).link = (s.link.afterFault .link s.engine.queue).notice ⟨0xAB, [byte cause.code]⟩ :=
    enterFault_port cause s .link
  refine ⟨?_, ?_, ?_, ?_, fun he => ?_, ?_, fun h => ?_, fun hh hm => ⟨?_, ?_, ?_⟩, ?_⟩
  · rw [endStep_engine, enterFault_engine]
  · rw [endStep_restTimer, enterFault_restTimer]
  · rw [endStep_lift]; exact (enterFault_lift cause s).1
  · rw [endStep_lift]; exact (enterFault_lift cause s).2
  · rw [endStep_link, hlink]
    exact PortState.mem_notice_self (by unfold PortState.afterFault; rw [PortState.reported_enable]; exact he) rfl
  · rw [endStep_link, hlink]
  · exact (endStep_port (enterFault_phase cause h) .console).trans (enterFault_port cause s .console)
  · have hfree : (enterFault cause s).line = .free := by rw [enterFault_line, if_pos ⟨hh, hm⟩]
    rw [endStep_line (by rw [hfree]; decide), hfree]
  · rw [endStep_composer, enterFault_composer_direct cause hh hm]
  · rw [endStep_composer, enterFault_composer_direct cause hh hm]
  · exact (enterFault_frame cause s).then (endStep_frame _) (by decide) (by decide)

theorem faultWhen_runs {running : Bool} {cause : FaultCause} {s : State} (h : running = true) :
    faultWhen running cause s = endStep (enterFault cause s) := if_pos h

theorem faultWhen_idle {running : Bool} {cause : FaultCause} {s : State} (h : running = false) :
    faultWhen running cause s = s := if_neg (by rw [h]; decide)

theorem Hammer.awaited_iff (h : Hammer) : h.awaited = true ↔ ∃ n, h = .returning n := by cases h <;> simp [awaited]

theorem TapeGuide.awaited_iff (g : TapeGuide) : g.awaited = true ↔ ∃ n, g = .rising n := by cases g <;> simp [awaited]

/-- Settles O56: while its limit runs each of the five expiries is Fault with its cause, and else nothing. -/
theorem limitExpiriesEnterFault : Obligations.LimitExpiriesEnterFault := by
  unfold Obligations.LimitExpiriesEnterFault
  refine ⟨fun c cause s h => ?_, fun s => ⟨fun h => ?_, fun h => ?_, fun h => ?_, fun h => ?_, fun h => ?_⟩⟩
  · rcases h with ⟨rfl, rfl, h⟩ | ⟨rfl, rfl, h⟩ | ⟨rfl, rfl, h⟩ | ⟨rfl, rfl, h⟩ | ⟨rfl, rfl, h⟩
    · exact ⟨_, congrArg Host.Outcome.next (faultWhen_runs h), fault_outcome .wheel s⟩
    · exact ⟨_, congrArg Host.Outcome.next (faultWhen_runs h), fault_outcome .carrier s⟩
    · exact ⟨_, congrArg Host.Outcome.next (faultWhen_runs ((Hammer.awaited_iff _).2 h)), fault_outcome .carrier s⟩
    · exact ⟨_, congrArg Host.Outcome.next (faultWhen_runs ((TapeGuide.awaited_iff _).2 h)), fault_outcome .carrier s⟩
    · exact ⟨_, congrArg Host.Outcome.next (faultWhen_runs h), fault_outcome .homing s⟩
  · exact congrArg Host.Outcome.next (faultWhen_idle (by rw [h]; rfl))
  · exact congrArg Host.Outcome.next (faultWhen_idle (by rw [h]; rfl))
  · refine congrArg Host.Outcome.next (faultWhen_idle (Bool.eq_false_iff.2 fun hr => ?_))
    obtain ⟨n, hn⟩ := (Hammer.awaited_iff _).1 hr
    exact h n hn
  · refine congrArg Host.Outcome.next (faultWhen_idle (Bool.eq_false_iff.2 fun hr => ?_))
    obtain ⟨n, hn⟩ := (TapeGuide.awaited_iff _).1 hr
    exact h n hn
  · exact congrArg Host.Outcome.next (faultWhen_idle (by rw [h]; rfl))

/-! ### The Rest timer, the hold limit and the busy limit (R83, R28, R15) -/

theorem restExpiry_eq (s : State) : restExpiry s =
    if s.restTimer.isSome = true ∧ s.engine.state = .ready ∧ s.engine.queue = [] then
      finish { s with engine := { s.engine with state := .resting }, restTimer := none }
    else s := by
  unfold restExpiry
  simp only [Bool.and_eq_true, decide_eq_true_eq, List.isEmpty_iff, and_assoc]

/-- R28: the line that a forced end leaves. -/
theorem forceEnd_respelled (p : Port) (s : State) :
    respelled { s with line := { s.line with endCause := some .forced, phase := .waiting } } (forceEnd p s) := by
  have h := lineEndSpelling_respelled false { s with line := { s.line with endCause := some .forced } }
  unfold respelled at h ⊢
  unfold forceEnd; rw [State.notice_line]
  show { (lineEndSpelling false _).line with phase := .waiting } = _
  rw [h]

theorem forceEnd_port (p q : Port) (s : State) : (forceEnd p s).port q =
    if q = p then (s.port p).notice (Notice.lineForced s.line.serial) else s.port q := by
  have hserial : (lineEndSpelling false { s with line := { s.line with endCause := some .forced } }).line.serial
      = s.line.serial := (lineEndSpelling_respelled false _).serial
  have hport (q : Port) : (lineEndSpelling false { s with line := { s.line with endCause := some .forced } }).port q
      = s.port q := ((lineEndSpelling_frame false _).ports q (by decide)).trans (by cases q <;> rfl)
  unfold forceEnd
  rcases Port.eq_or_eq_other q p with rfl | rfl
  · rw [if_pos rfl, State.notice_port, ← hport q, hserial]
    cases q <;> rfl
  · rw [if_neg (by cases p <;> decide), State.notice_port_other, ← hport (Port.other p)]
    cases p <;> rfl

/-- R27: the hold limit timer does not run on a line that waits for its conversion. -/
theorem endStep_holdTimer_waiting {s : State} (h : s.line.phase = .waiting) : (endStep s).holdTimer = none := by
  have hline : (settle s).line.phase = .waiting := by rw [settle_line (by rw [h]; decide)]; exact h
  show holdNow (settle s) = none
  unfold holdNow holdRuns
  rw [hline]; rfl

theorem holdExpiry_runs {p : Port} {s : State} (ht : s.holdTimer.isSome = true) (hh : s.line.holder = some p) :
    holdExpiry s = endStep (forceEnd p { s with holdTimer := none }) := by
  obtain ⟨n, hn⟩ := Option.isSome_iff_exists.1 ht
  unfold holdExpiry; rw [hn, hh]

theorem holdExpiry_idle {s : State} (h : s.holdTimer = none) : holdExpiry s = s := by
  unfold holdExpiry; rw [h]

/-- R28: the step of a hold limit that runs out. -/
theorem forcedEnd_outcome {p : Port} {s : State} (hh : s.line.holder = some p) :
    let t := endStep (forceEnd p { s with holdTimer := none })
    t.line.phase = .waiting ∧ t.line.endCause = some .forced ∧ t.line.holder = some p
      ∧ t.line.serial = s.line.serial ∧ t.line.cells = s.line.cells ∧ t.line.cursor = s.line.cursor
      ∧ t.holdTimer = none
      ∧ t.port p = (s.port p).notice (Notice.lineForced s.line.serial) ∧ t.port (Port.other p) = s.port (Port.other p)
      ∧ changesOnly [.ofPort p, .line, .spelling, .store, .display, .holdTimer] s t := by
  dsimp only
  have hw := forceEnd_phase p { s with holdTimer := none }
  have hcheck : (forceEnd p { s with holdTimer := none }).line.phase ≠ .checking := by rw [hw]; decide
  have hl := endStep_line hcheck
  have hr := forceEnd_respelled p { s with holdTimer := none }
  have hport (q : Port) : ({ s with holdTimer := none } : State).port q = s.port q := by cases q <;> rfl
  refine ⟨?_, ?_, ?_, ?_, ?_, ?_, endStep_holdTimer_waiting hw, ?_, ?_, ?_⟩
  · rw [hl, hr.phase]
  · rw [hl, hr]
  · rw [hl, hr.holder]; exact hh
  · rw [hl, hr.serial]
  · rw [hl, hr.cells]
  · rw [hl, hr.cursor]
  · rw [endStep_port hcheck, forceEnd_port, if_pos rfl, hport]
  · rw [endStep_port hcheck, forceEnd_port, if_neg (by cases p <;> decide), hport]
  · have hstop : changesOnly [.holdTimer] s { s with holdTimer := none } := by
      intro q hq; cases q <;> first | exact absurd hq (by decide) | rfl
    exact ((hstop.mono (by simp)).trans ((forceEnd_frame p _).mono (by simp))).trans
      ((endStep_unheld hcheck).mono (by simp))

/-- Settles O57: each expiry acts while its timer runs, and else leaves the state alone. -/
theorem restAndHoldExpiries : Obligations.RestAndHoldExpiries := by
  unfold Obligations.RestAndHoldExpiries
  refine ⟨fun s ht hs hq => ⟨_, congrArg Host.Outcome.next ((restExpiry_eq s).trans (if_pos ⟨ht, hs, hq⟩)), rfl, rfl, ?_⟩,
    fun s h => congrArg Host.Outcome.next ((restExpiry_eq s).trans (if_neg ?_)),
    fun p s ht hh => ⟨_, congrArg Host.Outcome.next (holdExpiry_runs ht hh), forcedEnd_outcome hh⟩,
    fun s h => congrArg Host.Outcome.next (holdExpiry_idle h),
    fun x n s hl hn => ⟨_, exec_busyLimitExpiry_polling hl hn, endStep_storeFault_store s⟩,
    fun s h => exec_busyLimitExpiry_idle h⟩
  · exact (engineRest_frame s _ none).then (finish_frame _) (by decide) (by decide)
  · rintro ⟨ht, hs, hq⟩
    rcases h with h | h | h
    · rw [h] at ht; cases ht
    · exact h hs
    · exact h hq

end Sys2Proof.Machine

/-! SUPPORT. The run of the Print Queue, one turn at a time (R67, R88); Load Supply (R87). -/

namespace Sys2Proof.Machine

/-! ### One turn of the queue -/

theorem setHead_cons {g : Job → Job} {s : State} {j : Job} {rest : List Job} (h : s.engine.queue = j :: rest) :
    setHead g s = { s with engine := { s.engine with queue := g j :: rest } } := by
  unfold setHead; rw [h]

theorem popHead_cons {s : State} {j : Job} {rest : List Job} (h : s.engine.queue = j :: rest) :
    popHead s = { s with engine := { s.engine with queue := rest } } := by
  unfold popHead; rw [h]; rfl

theorem currentOrder_cons {s : State} {j : Job} {rest : List Job} (h : s.engine.queue = j :: rest) :
    currentOrder s = j.orders[j.next]? := by
  unfold currentOrder; rw [h]

/-- The fuel of a run is never short of 64 turns. -/
theorem goOn_fuel (s : State) : ∃ n, goOn s = runQueue (n + 64) s := ⟨_, rfl⟩

section
variable {n : Nat} {s : State} {j : Job} {rest : List Job} {o : Order}

theorem runQueue_empty (hq : s.engine.queue = []) : runQueue (n + 1) s = enterReady s := by
  unfold runQueue; rw [hq]

theorem runQueue_started (hq : s.engine.queue = j :: rest) (hs : j.started = true) : runQueue (n + 1) s =
    match j.orders[j.next]? with
    | none => runQueue n (completeHead j s)
    | some o =>
      if s.engine.ribbon = 0 then enterSupplyOut s
      else if (beginOrder o s).complete then runQueue n (setHead (fun x => { x with next := x.next + 1 }) (beginOrder o s).state)
        else (beginOrder o s).state := by
  conv_lhs => unfold runQueue
  rw [hq]
  exact (if_pos hs).trans (by cases j.orders[j.next]? <;> rfl)

/-- R67: the last order of the head job has completed. -/
theorem runQueue_ended (hq : s.engine.queue = j :: rest) (hs : j.started = true) (ho : j.orders[j.next]? = none) :
    runQueue (n + 1) s = runQueue n (completeHead j s) := by
  rw [runQueue_started hq hs, ho]

/-- R88: the next order would begin with no ribbon. -/
theorem runQueue_supplyOut (hq : s.engine.queue = j :: rest) (hs : j.started = true) (ho : j.orders[j.next]? = some o)
    (hr : s.engine.ribbon = 0) : runQueue (n + 1) s = enterSupplyOut s := by
  rw [runQueue_started hq hs, ho]; exact if_pos hr

/-- R69: the next order begins and is in flight. -/
theorem runQueue_begins (hq : s.engine.queue = j :: rest) (hs : j.started = true) (ho : j.orders[j.next]? = some o)
    (hr : 0 < s.engine.ribbon) (ht : o.takesTime s = true) :
    runQueue (n + 1) s = { s with engine := orderBegun o s.engine } := by
  rw [runQueue_started hq hs, ho]
  dsimp only
  rw [if_neg hr.ne', beginOrder_of_takesTime o s ht]; rfl

/-- An order that completes as it begins. -/
theorem runQueue_passes (hq : s.engine.queue = j :: rest) (hs : j.started = true) (ho : j.orders[j.next]? = some o)
    (hr : 0 < s.engine.ribbon) {t : State} (hb : beginOrder o s = ⟨t, true⟩) :
    runQueue (n + 1) s = runQueue n (setHead (fun x => { x with next := x.next + 1 }) t) := by
  rw [runQueue_started hq hs, ho]
  dsimp only
  rw [if_neg hr.ne', hb]; rfl

/-- R88: a job that is no Correction job does not start with no ribbon (log entry 15). -/
theorem runQueue_waits (hq : s.engine.queue = j :: rest) (hs : j.started = false) (hc : j.correction = none)
    (hr : s.engine.ribbon = 0) : runQueue (n + 1) s = enterSupplyOut s := by
  conv_lhs => unfold runQueue
  rw [hq]; dsimp only
  rw [if_neg (by rw [hs]; decide), if_pos (by rw [hc, hr]; rfl)]

/-- R67: the head job starts; a Correction job does whatever the ribbon. -/
theorem runQueue_starts (hq : s.engine.queue = j :: rest) (hs : j.started = false)
    (h : j.correction.isSome = true ∨ 0 < s.engine.ribbon) : runQueue (n + 1) s = runQueue n (startHead j rest s) := by
  conv_lhs => unfold runQueue
  rw [hq]; dsimp only
  rw [if_neg (by rw [hs]; decide), if_neg]
  rcases h with h | h
  · rw [Option.isNone_eq_false_iff.2 h]; simp
  · simp [h.ne']

theorem goOn_empty (hq : s.engine.queue = []) : goOn s = enterReady s := by
  obtain ⟨n, h⟩ := goOn_fuel s
  rw [h]; exact runQueue_empty hq

theorem goOn_begins (hq : s.engine.queue = j :: rest) (hs : j.started = true) (ho : j.orders[j.next]? = some o)
    (hr : 0 < s.engine.ribbon) (ht : o.takesTime s = true) : goOn s = { s with engine := orderBegun o s.engine } := by
  obtain ⟨n, h⟩ := goOn_fuel s
  rw [h]; exact runQueue_begins hq hs ho hr ht

theorem goOn_supplyOut (hq : s.engine.queue = j :: rest) (hs : j.started = true) (ho : j.orders[j.next]? = some o)
    (hr : s.engine.ribbon = 0) : goOn s = enterSupplyOut s := by
  obtain ⟨n, h⟩ := goOn_fuel s
  rw [h]; exact runQueue_supplyOut hq hs ho hr

theorem goOn_waits (hq : s.engine.queue = j :: rest) (hs : j.started = false) (hc : j.correction = none)
    (hr : s.engine.ribbon = 0) : goOn s = enterSupplyOut s := by
  obtain ⟨n, h⟩ := goOn_fuel s
  rw [h]; exact runQueue_waits hq hs hc hr

/-- R67: the head job has ended, and none is left behind it. -/
theorem goOn_ended (hq : s.engine.queue = j :: rest) (hs : j.started = true) (ho : j.orders[j.next]? = none)
    (hlast : (completeHead j s).engine.queue = []) : goOn s = enterReady (completeHead j s) := by
  obtain ⟨n, h⟩ := goOn_fuel s
  rw [h, show n + 64 = n + 62 + 1 + 1 from rfl, runQueue_ended hq hs ho, runQueue_empty hlast]

end

/-! ### Orders that take time, wherever the queue stands -/

/-- What `takesTime` reads of the engine: the motions in flight and where the wheel, the carrier and the platen stand. -/
theorem Order.takesTime_congr {s t : State} (o : Order) (hw : t.engine.wheelMove = s.engine.wheelMove)
    (hc : t.engine.carrierMove = s.engine.carrierMove) (hp : t.engine.petal = s.engine.petal)
    (hx : t.engine.carrier = s.engine.carrier) (hy : t.engine.platen = s.engine.platen) (hf : t.format = s.format) :
    o.takesTime t = o.takesTime s := by
  unfold Order.takesTime; rw [hw, hc, hp, hx, hy, hf]

/-! ### A notice at a port that has taken a block -/

/-- R174, R179: what a notice does at a port does not depend on the block that has been taken there. -/
theorem PortState.notice_taken (v : PortState) (b : Block) :
    ({ v with assembly := [], gap := none, inHand := true } : PortState).notice b
      = { v.notice b with assembly := [], gap := none, inHand := true } := by
  unfold PortState.notice joinJobNotice
  dsimp only
  split
  · rfl
  split
  · rfl
  split
  · split <;> rfl
  · rfl

/-! ### Load Supply (R87, R88) -/

/-- R87: the supply record replaced. -/
def supplied (k : RibbonKind) (ribbon tape : Nat) (s : State) : State :=
  { s with engine := { s.engine with ribbonKind := k, ribbon := ribbon, tape := tape } }

/-- R87: Supply Low where a count is low. -/
def supplyTold (ribbon tape : Nat) (v : PortState) : PortState :=
  if (1 ≤ ribbon ∧ ribbon ≤ 500) ∨ (1 ≤ tape ∧ tape ≤ 100) then v.notice (Notice.supplyLow ribbon tape) else v

section
variable (k : RibbonKind) (ribbon tape : Nat) (s : State)

theorem setSupply_eq : setSupply k ribbon tape s =
    if (1 ≤ ribbon ∧ ribbon ≤ 500) ∨ (1 ≤ tape ∧ tape ≤ 100) then
      (supplied k ribbon tape s).noticeBoth (Notice.supplyLow ribbon tape)
    else supplied k ribbon tape s := by
  unfold setSupply
  simp only [Bool.or_eq_true, Bool.and_eq_true, decide_eq_true_eq]
  rfl

theorem supplied_frame : changesOnly [.engine] s (supplied k ribbon tape s) := engine_frame s _

theorem setSupply_frame : changesOnly [.console, .link, .engine] s (setSupply k ribbon tape s) := by
  rw [setSupply_eq]
  exact .ite ((supplied_frame k ribbon tape s).then (State.noticeBoth_frame _ _) (by decide) (by decide))
    ((supplied_frame k ribbon tape s).mono (by decide))

@[simp] theorem setSupply_engine : (setSupply k ribbon tape s).engine =
    { s.engine with ribbonKind := k, ribbon := ribbon, tape := tape } := by
  rw [setSupply_eq]; split <;> rfl

theorem setSupply_port (p : Port) : (setSupply k ribbon tape s).port p = supplyTold ribbon tape (s.port p) := by
  rw [setSupply_eq]; unfold supplyTold
  split
  · rw [State.noticeBoth_port]; cases p <;> rfl
  · cases p <;> rfl

end

theorem supplyTold_taken (ribbon tape : Nat) (v : PortState) :
    supplyTold ribbon tape { v with assembly := [], gap := none, inHand := true }
      = { supplyTold ribbon tape v with assembly := [], gap := none, inHand := true } := by
  unfold supplyTold; split
  · exact v.notice_taken _
  · rfl

/-- R87: SupplyOut is left for Ready when the head job has not started. -/
theorem leaveSupplyOut_ready {s : State} (h : ∀ j, s.engine.queue.head? = some j → j.started = false) :
    leaveSupplyOut s = enterReady s := by
  unfold leaveSupplyOut; split
  · rename_i j rest hq
    rw [if_neg (by rw [h j (by rw [hq]; rfl)]; decide)]
  · rfl

/-- R87: SupplyOut is left for the next order of a head job that has started. -/
theorem leaveSupplyOut_begins {s : State} {j : Job} {rest : List Job} {o : Order} (hq : s.engine.queue = j :: rest)
    (hs : j.started = true) (ho : j.orders[j.next]? = some o) (hr : 0 < s.engine.ribbon) (ht : o.takesTime s = true) :
    leaveSupplyOut s =
      { s with engine := orderBegun o { s.engine with state := .working }, restTimer := none } := by
  unfold leaveSupplyOut; rw [hq]; dsimp only
  rw [if_pos hs]
  exact goOn_begins (s := { s with engine := { s.engine with state := .working }, restTimer := none }) hq hs ho hr ht

/-- R174, R87: what the console is answered, and what Supply Low goes with it. -/
theorem loadSupply_ports {ribbon tape : Nat} {s u : State}
    (hu : ∀ p, u.port p = supplyTold ribbon tape ((taken .console s).port p)) :
    let t := finish (u.reply .console 0x36 (.plain .done))
    t.link = supplyTold ribbon tape s.link
      ∧ t.console.queue = (supplyTold ribbon tape s.console).queue ++ [(Reply.plain .done).block 0x36] := by
  have hlink : u.link = supplyTold ribbon tape s.link := (hu .link).trans (by rw [show (taken .console s).port .link = s.link from
    taken_port_other .console s])
  have hconsole : u.console.queue = (supplyTold ribbon tape s.console).queue := by
    have h := hu .console
    rw [taken_port, supplyTold_taken] at h
    have hq := congrArg PortState.queue h
    exact hq
  exact ⟨hlink, congrArg (· ++ [(Reply.plain .done).block 0x36]) hconsole⟩

section
variable {kind : Byte} {ribbon tape : Half} {k : RibbonKind} {s : State}

/-- R87: the supply record replaced on a console that has taken the block. -/
def loaded (k : RibbonKind) (ribbon tape : Half) (s : State) : State := setSupply k ribbon.toNat tape.toNat (taken .console s)

theorem loaded_engine : (loaded k ribbon tape s).engine =
    { s.engine with ribbonKind := k, ribbon := ribbon.toNat, tape := tape.toNat } := by
  unfold loaded; rw [setSupply_engine, taken_engine]

theorem loaded_frame : changesOnly [.console, .link, .engine, .restTimer] s (loaded k ribbon tape s) :=
  (taken_frame .console s).then (setSupply_frame _ _ _ _) (by decide) (by decide)

theorem cmdLoadSupply_counts (hk : ribbonKindOf kind = some k) (h : s.engine.state ≠ .supplyOut ∨ ribbon.toNat = 0) :
    cmdLoadSupply kind ribbon tape (taken .console s) = (loaded k ribbon tape s, .plain .done) := by
  unfold cmdLoadSupply; rw [hk]; dsimp only
  have hno : ¬ ((loaded k ribbon tape s).engine.state = .supplyOut && decide (0 < (loaded k ribbon tape s).engine.ribbon)) = true := by
    rw [loaded_engine]
    rcases h with h | h <;> simp [h]
  exact congrArg (·, Reply.plain .done) (if_neg hno)

theorem cmdLoadSupply_leaves (hk : ribbonKindOf kind = some k) (hs : s.engine.state = .supplyOut) (hr : 0 < ribbon.toNat) :
    cmdLoadSupply kind ribbon tape (taken .console s)
      = (settle (leaveSupplyOut (loaded k ribbon tape s)), .plain .done) := by
  unfold cmdLoadSupply; rw [hk]; dsimp only
  have hyes : ((loaded k ribbon tape s).engine.state = .supplyOut && decide (0 < (loaded k ribbon tape s).engine.ribbon)) = true := by
    rw [loaded_engine]; simp [hs, hr]
  exact congrArg (·, Reply.plain .done) (if_pos hyes)

@[simp] theorem settle_engine (s : State) : (settle s).engine = s.engine := (settle_frame s).same .engine (by decide)
@[simp] theorem settle_restTimer (s : State) : (settle s).restTimer = s.restTimer := (settle_frame s).same .restTimer (by decide)

/-- R87: with the record replaced, a head job that has not started leaves the engine Ready. -/
theorem loaded_leaves_ready (h : ∀ j, s.engine.queue.head? = some j → j.started = false) :
    leaveSupplyOut (loaded k ribbon tape s) = enterReady (loaded k ribbon tape s) :=
  leaveSupplyOut_ready (by rw [loaded_engine]; exact h)

/-- R87: with the record replaced, a head job that has started goes on at its next order. -/
theorem loaded_leaves_begins {j : Job} {o : Order} (hr : 0 < ribbon.toNat) (hq : s.engine.queue.head? = some j)
    (hs : j.started = true) (ho : j.orders[j.next]? = some o) (ht : o.takesTime s = true) :
    leaveSupplyOut (loaded k ribbon tape s) = { loaded k ribbon tape s with
      engine := orderBegun o { (loaded k ribbon tape s).engine with state := .working }, restTimer := none } := by
  obtain ⟨rest, hq⟩ := List.head?_eq_some_iff.1 hq
  have he := loaded_engine (k := k) (ribbon := ribbon) (tape := tape) (s := s)
  refine leaveSupplyOut_begins (by rw [he]; exact hq) hs ho (by rw [he]; exact hr) ?_
  rw [← ht]
  exact o.takesTime_congr (by rw [he]) (by rw [he]) (by rw [he]) (by rw [he]) (by rw [he]) (loaded_frame.same .format (by decide))

end

/-- Settles O37: Load Supply replaces the record; what SupplyOut is left for is what the head job stands at. -/
theorem loadSupplySetsTheCounts : Obligations.LoadSupplySetsTheCounts := by
  unfold Obligations.LoadSupplySetsTheCounts
  refine ⟨fun kind ribbon tape s hf => ⟨_, runBlock_taken hf (by decide) rfl, fun hk => ?range, fun k hk h => ?counts,
    fun k hk hs hr hj => ?ready⟩, fun kind ribbon tape k s hf hk hs hr => ⟨_, runBlock_taken hf (by decide) rfl,
      fun j hq hj o ho ht => ?begins, fun hhead hc hqueries => ?told⟩⟩
  case range =>
    have hnone : ribbonKindOf kind = none := by
      unfold ribbonKindOf; split <;> first | omega | rfl
    have hrefused : cmdLoadSupply kind ribbon tape (taken .console s) = refuse .range (taken .console s) := by
      unfold cmdLoadSupply; rw [hnone]
    rw [hrefused]; exact blockOnly_refused .console 0x36 _ s
  case counts =>
    rw [cmdLoadSupply_counts hk h]
    refine ⟨loaded_engine, ?_, fun hnr hnt => ?_, fun hlow => ?_⟩
    · exact ((loaded_frame.mono (by decide)).trans ((State.reply_frame _ .console _ _).mono (by decide))).trans
        ((finish_frame _).mono (by decide))
    · refine blockDone_of ?_ (by decide) (by decide)
      unfold loaded; rw [setSupply_eq, if_neg (not_or.2 ⟨hnr, hnt⟩)]
      exact supplied_frame _ _ _ _
    · have h := loadSupply_ports (s := s) (u := loaded k ribbon tape s) (ribbon := ribbon.toNat) (tape := tape.toNat)
        fun p => setSupply_port _ _ _ _ p
      unfold supplyTold at h; rw [if_pos hlow, if_pos hlow] at h
      exact h
  case ready =>
    rw [cmdLoadSupply_leaves hk hs hr, loaded_leaves_ready fun j hj' => hj j (List.mem_of_mem_head? hj')]
    have hoptions : (loaded k ribbon tape s).options = s.options := loaded_frame.same .options (by decide)
    refine ⟨?_, ?_⟩
    · rw [finish_engine, State.reply_engine, settle_engine]
      show { (loaded k ribbon tape s).engine with state := .ready } = _
      rw [loaded_engine]
    · rw [finish_restTimer, State.reply_restTimer, settle_restTimer]
      show (if (loaded k ribbon tape s).engine.queue.isEmpty then restLength (loaded k ribbon tape s).options else none) = _
      rw [loaded_engine, hoptions]; simp only [List.isEmpty_iff]
  case begins =>
    rw [cmdLoadSupply_leaves hk hs hr, loaded_leaves_begins hr hq hj ho ht]
    refine ⟨?_, ?_⟩
    · rw [finish_engine, State.reply_engine, settle_engine]
      show orderBegun o { (loaded k ribbon tape s).engine with state := _ } = _
      rw [loaded_engine]
    · rw [finish_restTimer, State.reply_restTimer, settle_restTimer]
  case told =>
    have hleft : ∃ e r, leaveSupplyOut (loaded k ribbon tape s) = { loaded k ribbon tape s with engine := e, restTimer := r } := by
      by_cases hstarted : ∃ j, s.engine.queue.head? = some j ∧ j.started = true
      · obtain ⟨j, hq, hj⟩ := hstarted
        obtain ⟨o, ho, ht⟩ := hhead j hq hj
        exact ⟨_, _, loaded_leaves_begins hr hq hj ho ht⟩
      · exact ⟨_, _, loaded_leaves_ready fun j hq => by
          by_contra hj; exact hstarted ⟨j, hq, by simpa using hj⟩⟩
    obtain ⟨e, r, hleft⟩ := hleft
    rw [cmdLoadSupply_leaves hk hs hr, hleft]
    have hu : changesOnly [.console, .link, .engine, .restTimer] s { loaded k ribbon tape s with engine := e, restTimer := r } :=
      loaded_frame.trans ((engineRest_frame _ e r).mono (by decide))
    have hsettle := settle_unheld (s := { loaded k ribbon tape s with engine := e, restTimer := r })
      (by rw [hu.same .line (by decide)]; exact hc)
    have hports := loadSupply_ports (s := s) (ribbon := ribbon.toNat) (tape := tape.toNat)
      (u := settle { loaded k ribbon tape s with engine := e, restTimer := r }) fun p => by
        rw [hsettle.ports p (by decide), ← setSupply_port k]; cases p <;> rfl
    have hlow : (1 ≤ ribbon.toNat ∧ ribbon.toNat ≤ 500) ↔ ribbon.toNat ≤ 500 := ⟨fun h => h.2, fun h => ⟨hr, h⟩⟩
    unfold supplyTold at hports
    simp only [hlow] at hports
    refine ⟨hports.1, hports.2, ?_⟩
    exact (((hu.mono (by decide)).trans (hsettle.mono (by decide))).trans
      ((State.reply_frame _ .console _ _).mono (by decide))).trans ((finish_frame _).mono (by decide))

end Sys2Proof.Machine

/-! SUPPORT. What an order that completes leads to (R67, R90): the next order, SupplyOut, or the end of the job; and with it
the reports of the motions and of the hammer pulse (R69 to R72, R117). -/

namespace Sys2Proof.Machine

/-! ### Reports of jobs -/

/-- The end of a step sends no notice to the link, nor with no line in Checking to the console. -/
theorem endStep_port_of {s : State} {p : Port} (h : p = .link ∨ s.line.phase ≠ .checking) :
    (endStep s).port p = s.port p := by
  rcases h with rfl | h
  · exact endStep_link s
  · exact endStep_port h p

/-- A notice goes to its port. -/
theorem State.notice_port_ite (s : State) (p q : Port) (b : Block) :
    (s.notice p b).port q = if p = q then (s.port q).notice b else s.port q := by cases p <;> cases q <;> rfl

/-- R168: Line Done to the port that the job came from. -/
theorem lineDone_port (source : Port) (serial struck dropped : Nat) (s : State) (p : Port) :
    (lineDone source serial struck dropped s).port p =
      if source = p then (s.port p).notice (Notice.lineDone serial struck dropped) else s.port p := by
  have htone (u : State) (b : Bool) : (if b then u.tone .done else u).port p = u.port p := by
    cases b <;> cases p <;> rfl
  unfold lineDone; dsimp only
  rw [htone, examinePrinting_port, State.notice_port_ite]

@[simp] theorem lineDone_engine (source : Port) (serial struck dropped : Nat) (s : State) :
    (lineDone source serial struck dropped s).engine = s.engine := (lineDone_frame _ _ _ _ s).same .engine (by decide)
@[simp] theorem lineDone_lift (source : Port) (serial struck dropped : Nat) (s : State) :
    (lineDone source serial struck dropped s).lift = s.lift := (lineDone_frame _ _ _ _ s).same .lift (by decide)
@[simp] theorem lineDone_memory (source : Port) (serial struck dropped : Nat) (s : State) :
    (lineDone source serial struck dropped s).memory = s.memory := (lineDone_frame _ _ _ _ s).same .memory (by decide)

theorem appendOwed_none {s : State} (h : s.lift.owed = false) : appendOwed s = s := by
  unfold appendOwed; rw [h]; rfl

/-! ### The end of a job (R67, R68) -/

theorem tallyStroke_eq (j : Job) (s : State) : tallyStroke j s =
    if j.lineEnding then
      lineDone j.source (j.serial.getD 0) (s.engine.tally.adding (j.serial.getD 0) j).struck
        (s.engine.tally.adding (j.serial.getD 0) j).dropped { s with engine := { s.engine with tally := .clear } }
    else { s with engine := { s.engine with tally := s.engine.tally.adding (j.serial.getD 0) j } } := by
  unfold tallyStroke Tally.adding
  dsimp only
  by_cases h : s.engine.tally.serial = j.serial.getD 0
  · simp only [h, if_true]
  · simp only [h, if_false, Nat.zero_add]

section
variable {s : State} {j head : Job} {rest : List Job} (hq : s.engine.queue = head :: rest) (ho : s.lift.owed = false)
include hq ho

/-- R67: a Line Job that ends. -/
theorem completeHead_line (hk : j.kind = .line) : completeHead j s =
    lineDone j.source (j.serial.getD 0) j.struck j.dropped { s with engine := { s.engine with queue := rest } } := by
  unfold completeHead; rw [hk, popHead_cons hq]
  dsimp only
  exact appendOwed_none (by rw [lineDone_lift]; exact ho)

/-- R68: a Stroke Job that ends is summed into the Direct tally. -/
theorem completeHead_stroke (hk : j.kind = .stroke) : completeHead j s =
    tallyStroke j { s with engine := { s.engine with queue := rest } } := by
  unfold completeHead; rw [hk, popHead_cons hq]
  dsimp only
  refine appendOwed_none ?_
  rw [(tallyStroke_frame j _).same .lift (by decide)]; exact ho

/-- R67: a Motion job that ends. -/
theorem completeHead_motion (hk : j.kind = .motion) (hr : j.relocate = false) : completeHead j s =
    lineDone j.source 0 0 0 { s with engine := { s.engine with queue := rest } } := by
  unfold completeHead; rw [hk, popHead_cons hq]
  dsimp only
  rw [if_neg (by rw [hr]; decide)]
  exact appendOwed_none (by rw [lineDone_lift]; exact ho)

/-- R119: a Correction job that ends. -/
theorem completeHead_correction {c : Correction} (hk : j.kind = .correction) (hc : j.correction = some c) :
    completeHead j s = endCorrection j.source c 0 { s with engine := { s.engine with queue := rest } } := by
  unfold completeHead; rw [hk, popHead_cons hq, hc]
  dsimp only
  refine appendOwed_none ?_
  rw [(endCorrection_frame _ _ _ _).same .lift (by decide)]; exact ho

end

/-! ### An order that has completed -/

/-- The head job stands at its next order. -/
def steppedOn (j : Job) (rest : List Job) (s : State) : State :=
  { s with engine := { s.engine with queue := { j with next := j.next + 1 } :: rest } }

section
variable {s : State} {j : Job} {rest : List Job} {o : Order}

theorem orderDone_goesOn (hq : s.engine.queue = j :: rest) (hc : j.cancelled = false) :
    orderDone s = goOn (steppedOn j rest s) := by
  unfold orderDone; rw [hq]; dsimp only
  rw [if_neg (by rw [hc]; decide), setHead_cons hq]; rfl

theorem orderDone_begins (hq : s.engine.queue = j :: rest) (hc : j.cancelled = false) (hs : j.started = true)
    (ho : j.orders[j.next + 1]? = some o) (hr : 0 < s.engine.ribbon) (ht : o.takesTime s = true) :
    orderDone s = { s with engine := orderBegun o (steppedOn j rest s).engine } := by
  rw [orderDone_goesOn hq hc]
  exact goOn_begins (s := steppedOn j rest s) rfl hs ho hr ht

theorem orderDone_supplyOut (hq : s.engine.queue = j :: rest) (hc : j.cancelled = false) (hs : j.started = true)
    (ho : j.orders[j.next + 1]? = some o) (hr : s.engine.ribbon = 0) :
    orderDone s = enterSupplyOut (steppedOn j rest s) := by
  rw [orderDone_goesOn hq hc]
  exact goOn_supplyOut (s := steppedOn j rest s) rfl hs ho hr

theorem orderDone_ended (hq : s.engine.queue = j :: rest) (hc : j.cancelled = false) (hs : j.started = true)
    (ho : j.orders[j.next + 1]? = none)
    (hlast : (completeHead { j with next := j.next + 1 } (steppedOn j rest s)).engine.queue = []) :
    orderDone s = enterReady (completeHead { j with next := j.next + 1 } (steppedOn j rest s)) := by
  rw [orderDone_goesOn hq hc]
  exact goOn_ended (s := steppedOn j rest s) rfl hs ho hlast

/-- R90: a cancelled head job leaves when its order has completed. -/
theorem orderDone_cancelled (hq : s.engine.queue = j :: rest) (hc : j.cancelled = true) :
    orderDone s = goOn (appendOwed (reportCancelled j { s with engine := { s.engine with queue := rest } })) := by
  unfold orderDone; rw [hq]; dsimp only
  rw [if_pos hc]
  unfold removeCancelledHead; rw [hq, popHead_cons hq]

end

section
variable {s : State} {j : Job}
  (hq : s.engine.queue = [j]) (hw : s.lift.owed = false)
include hq hw

/-- R68: a lone Stroke Job that has nothing more to do. -/
theorem orderDone_stroke (hc : j.cancelled = false) (hs : j.started = true) (ho : j.orders[j.next + 1]? = none)
    (hk : j.kind = .stroke) (hl : j.lineEnding = false) : orderDone s = enterReady
      { s with engine := { s.engine with queue := [], tally := s.engine.tally.adding (j.serial.getD 0) j } } := by
  have he : completeHead { j with next := j.next + 1 } (steppedOn j [] s)
      = { s with engine := { s.engine with queue := [], tally := s.engine.tally.adding (j.serial.getD 0) j } } := by
    refine (completeHead_stroke (j := { j with next := j.next + 1 }) (s := steppedOn j [] s) rfl hw hk).trans ?_
    refine (tallyStroke_eq _ _).trans (if_neg ?_)
    show ¬ j.lineEnding = true
    rw [hl]; decide
  rw [orderDone_ended hq hc hs ho (by rw [he]), he]

/-- R67: a lone Motion job that has nothing more to do. -/
theorem orderDone_motion (hc : j.cancelled = false) (hs : j.started = true) (ho : j.orders[j.next + 1]? = none)
    (hk : j.kind = .motion) (hr : j.relocate = false) : orderDone s = enterReady
      (lineDone j.source 0 0 0 { s with engine := { s.engine with queue := [] } }) := by
  have he : completeHead { j with next := j.next + 1 } (steppedOn j [] s)
      = lineDone j.source 0 0 0 { s with engine := { s.engine with queue := [] } } :=
    completeHead_motion (s := steppedOn j [] s) rfl hw hk hr
  rw [orderDone_ended hq hc hs ho (by rw [he, lineDone_engine]), he]

/-- R90: a lone cancelled job. -/
theorem orderDone_alone_cancelled (hc : j.cancelled = true) (hn : j.correction = none) : orderDone s = enterReady
    (lineCancelled j.source (j.serial.getD 0) j.struck { s with engine := { s.engine with queue := [] } }) := by
  have hreport : reportCancelled j { s with engine := { s.engine with queue := [] } }
      = lineCancelled j.source (j.serial.getD 0) j.struck { s with engine := { s.engine with queue := [] } } := by
    unfold reportCancelled; rw [hn]
  have hframe := lineCancelled_frame j.source (j.serial.getD 0) j.struck { s with engine := { s.engine with queue := [] } }
  rw [orderDone_cancelled hq hc, hreport, appendOwed_none (by rw [hframe.same .lift (by decide)]; exact hw),
    goOn_empty (by rw [hframe.same .engine (by decide)])]

end

/-! ### The ends of the motions (R69 to R71, R117) -/

/-- The wheel stands at its target. -/
def wheelThere (w : WheelMove) (e : Engine) : Engine := { e with petal := w.target, wheelMove := none }

/-- The carrier stands at its target. -/
def carrierThere (c : CarrierMove) (e : Engine) : Engine := { e with carrier := c.target, carrierMove := none }

section
variable {s : State}

theorem wheelSettled_eq {w : WheelMove} (h : s.engine.wheelMove = some w) :
    wheelSettled s = endStep (motionEnded { s with engine := wheelThere w s.engine }) := by
  unfold wheelSettled; rw [h]; rfl

theorem carrierArrived_eq {c : CarrierMove} (h : s.engine.carrierMove = some c) :
    carrierArrived s = endStep (motionEnded { s with engine := carrierThere c s.engine }) := by
  unfold carrierArrived; rw [h]; rfl

/-- R69, R117: a motion of a Strike or a Lift has ended. -/
theorem motionEnded_order {o : Order} (hs : s.engine.state = .working) (ho : currentOrder s = some o)
    (hm : ∀ x, o ≠ .move x) : motionEnded s = { s with engine := fireOrRaise o s.engine } := by
  unfold motionEnded; rw [if_pos hs, ho]
  cases o with
  | move x => exact absurd rfl (hm x)
  | _ => rfl

theorem motionEnded_move {x : Nat} (hs : s.engine.state = .working) (ho : currentOrder s = some (.move x)) :
    motionEnded s = orderDone s := by
  unfold motionEnded; rw [if_pos hs, ho]

theorem motionEnded_idle (hs : s.engine.state ≠ .working) : motionEnded s = s := by
  unfold motionEnded; rw [if_neg hs]

end

theorem Engine.still_iff (e : Engine) : e.still = true ↔ e.wheelMove = none ∧ e.carrierMove = none := by simp [still]

theorem fireOrRaise_moving (o : Order) {e : Engine} (h : ¬ (e.wheelMove = none ∧ e.carrierMove = none)) :
    fireOrRaise o e = e := by
  unfold fireOrRaise
  rw [if_pos (by rw [Bool.eq_false_iff.2 (mt e.still_iff.1 h)]; rfl)]

theorem fireOrRaise_strike (k : Strike) (e : Engine) : fireOrRaise (.strike k) e =
    { e with hammer := if e.wheelMove = none ∧ e.carrierMove = none then .pulse k.energy else e.hammer } := by
  by_cases h : e.wheelMove = none ∧ e.carrierMove = none
  · unfold fireOrRaise; rw [if_neg (by rw [e.still_iff.2 h]; decide), if_pos h]
  · rw [fireOrRaise_moving _ h, if_neg h]

theorem fireOrRaise_lift (r : Nat) (x : StrikeEntry) (e : Engine) : fireOrRaise (.lift r x) e =
    { e with tapeGuide := if e.wheelMove = none ∧ e.carrierMove = none then .rising 4 else e.tapeGuide } := by
  by_cases h : e.wheelMove = none ∧ e.carrierMove = none
  · unfold fireOrRaise; rw [if_neg (by rw [e.still_iff.2 h]; decide), if_pos h]; rfl
  · rw [fireOrRaise_moving _ h, if_neg h]

section
variable {s : State}

/-- R69, R70: the wheel has settled for a Strike. -/
theorem wheelSettled_strike {w : WheelMove} {k : Strike} (hw : s.engine.wheelMove = some w)
    (hs : s.engine.state = .working) (ho : currentOrder s = some (.strike k)) :
    wheelSettled s = endStep { s with engine := { s.engine with
      petal := w.target, wheelMove := none
      hammer := if s.engine.carrierMove = none then .pulse k.energy else s.engine.hammer } } := by
  rw [wheelSettled_eq hw, motionEnded_order (s := { s with engine := wheelThere w s.engine }) hs ho nofun, fireOrRaise_strike]
  simp only [wheelThere, true_and]

theorem wheelSettled_lift {w : WheelMove} {r : Nat} {x : StrikeEntry} (hw : s.engine.wheelMove = some w)
    (hs : s.engine.state = .working) (ho : currentOrder s = some (.lift r x)) :
    wheelSettled s = endStep { s with engine := { s.engine with
      petal := w.target, wheelMove := none
      tapeGuide := if s.engine.carrierMove = none then .rising 4 else s.engine.tapeGuide } } := by
  rw [wheelSettled_eq hw, motionEnded_order (s := { s with engine := wheelThere w s.engine }) hs ho nofun, fireOrRaise_lift]
  simp only [wheelThere, true_and]

/-- R69, R71: the carrier has arrived for a Strike. -/
theorem carrierArrived_strike {c : CarrierMove} {k : Strike} (hc : s.engine.carrierMove = some c)
    (hs : s.engine.state = .working) (ho : currentOrder s = some (.strike k)) :
    carrierArrived s = endStep { s with engine := { s.engine with
      carrier := c.target, carrierMove := none
      hammer := if s.engine.wheelMove = none then .pulse k.energy else s.engine.hammer } } := by
  rw [carrierArrived_eq hc, motionEnded_order (s := { s with engine := carrierThere c s.engine }) hs ho nofun,
    fireOrRaise_strike]
  simp only [carrierThere, and_true]

theorem carrierArrived_lift {c : CarrierMove} {r : Nat} {x : StrikeEntry} (hc : s.engine.carrierMove = some c)
    (hs : s.engine.state = .working) (ho : currentOrder s = some (.lift r x)) (hw : s.engine.wheelMove = none) :
    carrierArrived s = endStep { s with engine := { s.engine with
      carrier := c.target, carrierMove := none, tapeGuide := .rising 4 } } := by
  rw [carrierArrived_eq hc, motionEnded_order (s := { s with engine := carrierThere c s.engine }) hs ho nofun,
    fireOrRaise_lift]
  simp only [carrierThere, hw, and_self, if_true]

end

/-- A step that only sets the engine. -/
theorem engineStep_outcome (s : State) (e : Engine) : (endStep { s with engine := e }).engine = e
    ∧ eventFrame [.engine] s (endStep { s with engine := e }) :=
  ⟨endStep_engine _, eventFrame_of (engine_frame s e) (by decide) (by decide) (by decide) (by decide) (by decide)⟩

/-- A step that only sets the engine and the Rest timer. -/
theorem engineRestStep_outcome (s : State) (e : Engine) (r : Option Nat) :
    let t := endStep { s with engine := e, restTimer := r }
    t.engine = e ∧ t.restTimer = r ∧ eventFrame [.engine, .restTimer] s t :=
  ⟨endStep_engine _, endStep_restTimer _,
    eventFrame_of (engineRest_frame s e r) (by decide) (by decide) (by decide) (by decide) (by decide)⟩

/-! ### The end of a Move -/

section
variable {c : CarrierMove} {x : Nat} {j : Job} {rest : List Job} {s : State}
  (hc : s.engine.carrierMove = some c) (hs : s.engine.state = .working) (hq : s.engine.queue = j :: rest)
  (ho : j.orders[j.next]? = some (.move x))
include hc hs hq ho

/-- R71: the carrier has arrived for a Move. -/
theorem carrierArrived_move : carrierArrived s = endStep (orderDone { s with engine := carrierThere c s.engine }) := by
  rw [carrierArrived_eq hc, motionEnded_move (s := { s with engine := carrierThere c s.engine }) (x := x) hs]
  rw [currentOrder_cons (s := { s with engine := carrierThere c s.engine }) hq]; exact ho

end

/-- A job that ends with a report to its port, and none is left. -/
theorem readyReport_outcome {s u : State} {source : Port} {b : Block} (hq : u.engine.queue = [])
    (ho : u.options = s.options) (hl : u.line = s.line) (hp : u.port source = (s.port source).notice b) :
    (endStep (enterReady u)).engine = { u.engine with state := .ready }
      ∧ (endStep (enterReady u)).restTimer = restLength s.options
      ∧ (source = .link ∨ s.line.phase ≠ .checking → (endStep (enterReady u)).port source = (s.port source).notice b) := by
  refine ⟨by rw [endStep_engine]; rfl, ?_, fun h => ?_⟩
  · rw [endStep_restTimer, ← ho]
    show (if u.engine.queue.isEmpty then _ else _) = _
    rw [hq]; rfl
  · have hline : (enterReady u).line = s.line := hl
    rw [endStep_port_of (by rw [hline]; exact h), ← hp]
    cases source <;> rfl

/-- Settles O51: a motion that ends sets its position, and then what the order needs next happens: the blow, the tape, or
the order after a Move. -/
theorem motionReportsLeadToTheHammer : Obligations.MotionReportsLeadToTheHammer := by
  unfold Obligations.MotionReportsLeadToTheHammer
  refine ⟨fun w k s hw hs ho => ?wheelStrike, fun c k s hc hs ho => ?carrierStrike,
    fun c r e s hc hs ho hw => ?carrierLift, fun c s hc hs => ?wheelChange, fun n r e s hg ho => ?tape,
    fun n s hh => ?pulse, fun s => ?idle, fun w r e s hw hs ho => ?wheelLift,
    fun c x j rest s hc hs hq hj ho => ?move⟩
  case wheelStrike =>
    exact ⟨_, congrArg Host.Outcome.next (wheelSettled_strike hw hs ho), engineStep_outcome s _⟩
  case carrierStrike =>
    exact ⟨_, congrArg Host.Outcome.next (carrierArrived_strike hc hs ho), engineStep_outcome s _⟩
  case carrierLift =>
    exact ⟨_, congrArg Host.Outcome.next (carrierArrived_lift hc hs ho hw), engineStep_outcome s _⟩
  case wheelChange =>
    refine ⟨_, congrArg Host.Outcome.next ((carrierArrived_eq hc).trans
      (congrArg endStep (motionEnded_idle ?_))), engineStep_outcome s _⟩
    show s.engine.state ≠ .working
    rw [hs]; decide
  case tape =>
    show Host.Outcome.next (tapeRaised s) = _
    unfold tapeRaised; rw [hg, ho]; rfl
  case pulse =>
    show Host.Outcome.next (hammerPulseEnd s) = _
    unfold hammerPulseEnd; rw [hh]; rfl
  case idle =>
    refine ⟨fun h => ?_, fun h => ?_, fun h => ⟨?_, ?_⟩, fun h => ?_, fun h => ?_⟩
    · show Host.Outcome.next (wheelSettled s) = _
      unfold wheelSettled; rw [h]
    · show Host.Outcome.next (carrierArrived s) = _
      unfold carrierArrived; rw [h]
    · show Host.Outcome.next (hammerPulseEnd s) = _
      unfold hammerPulseEnd; rw [h]
    · show Host.Outcome.next (hammerReturned s) = _
      unfold hammerReturned; rw [h]
    · show Host.Outcome.next (tapeRaised s) = _
      unfold tapeRaised; rw [h]
    · show Host.Outcome.next (platenStopped s) = _
      unfold platenStopped; rw [h]
  case wheelLift =>
    exact ⟨_, congrArg Host.Outcome.next (wheelSettled_lift hw hs ho), engineStep_outcome s _⟩
  case move =>
    refine ⟨_, congrArg Host.Outcome.next (carrierArrived_move hc hs hq ho), fun o hn hcan ht hr => ?_,
      fun o hn hcan hr => ?_, fun hcan hn hrest howed hk hl => ?_, fun hcan hn hrest howed hk hl => ?_,
      fun hcan hrest howed hnone => ?_⟩
    · rw [orderDone_begins (s := { s with engine := carrierThere c s.engine }) hq hcan hj hn hr ht]
      exact engineStep_outcome s _
    · rw [orderDone_supplyOut (s := { s with engine := carrierThere c s.engine }) hq hcan hj hn hr]
      exact engineRestStep_outcome s _ none
    · subst hrest
      rw [orderDone_stroke (s := { s with engine := carrierThere c s.engine }) hq howed hcan hj hn hk hl]
      exact engineRestStep_outcome s _ (restLength s.options)
    · subst hrest
      rw [orderDone_motion (s := { s with engine := carrierThere c s.engine }) hq howed hcan hj hn hk hl]
      have hframe := lineDone_frame j.source 0 0 0 { s with engine := { carrierThere c s.engine with queue := [] } }
      obtain ⟨he, hreport⟩ := readyReport_outcome (s := s) (source := j.source) (b := Notice.lineDone 0 0 0)
        (by rw [lineDone_engine]) (hframe.same .options (by decide)) (hframe.same .line (by decide)) (by
          rw [lineDone_port, if_pos rfl]; cases j.source <;> rfl)
      exact ⟨he.trans (by rw [lineDone_engine]; rfl), hreport⟩
    · subst hrest
      rw [orderDone_alone_cancelled (s := { s with engine := carrierThere c s.engine }) hq howed hcan hnone]
      have hframe := lineCancelled_frame j.source (j.serial.getD 0) j.struck
        { s with engine := { carrierThere c s.engine with queue := [] } }
      obtain ⟨he, hreport⟩ := readyReport_outcome (s := s) (source := j.source)
        (b := Notice.lineCancelled (j.serial.getD 0) j.struck)
        (by rw [hframe.same .engine (by decide)]) (hframe.same .options (by decide)) (hframe.same .line (by decide)) (by
          unfold lineCancelled; rw [examinePrinting_port, State.notice_port_ite, if_pos rfl]; cases j.source <;> rfl)
      exact ⟨he.trans (by rw [hframe.same .engine (by decide)]; rfl), hreport⟩

end Sys2Proof.Machine

/-! SUPPORT. The blow of the hammer: what a Strike that completes counts and records (R73, R95), and the report of the
hammer's return (R73, R118). -/

namespace Sys2Proof.Machine

/-! ### Where a strike is recorded depends on Correction Memory alone -/

/-- Two states with one Correction Memory and one division of the pool. -/
def sameRecords (s t : State) : Prop := t.memory = s.memory ∧ t.partition = s.partition

/-- R97: a new record stands open behind the others. -/
def recordOpened (serial : Nat) (source : Port) (baseline : Int) (s : State) : State :=
  { s with memory := { s.memory with
      records := s.memory.records ++
        [{ name := s.memory.nextRecord, serial := serial, source := source, vertical := baseline, unrecorded := none,
           entries := [] }]
      openRecord := some s.memory.nextRecord
      resumeRecord := none
      nextRecord := s.memory.nextRecord + 1 } }

namespace sameRecords

theorem freeEntries {s t : State} (h : sameRecords s t) : t.freeEntries = s.freeEntries := by
  unfold State.freeEntries; rw [h.1, h.2]

theorem of_frame {parts : List Part} {s t : State} (h : changesOnly parts s t) (hm : .memory ∉ parts)
    (hp : .partition ∉ parts) : sameRecords s t := ⟨h .memory hm, h .partition hp⟩

theorem dropRecord {s t : State} (h : sameRecords s t) (name : Nat) :
    sameRecords (dropRecord name s) (dropRecord name t) := by
  unfold Machine.dropRecord
  rw [h.1]
  split
  · exact h
  · exact ⟨rfl, h.2⟩

theorem makeRoom {s t : State} (h : sameRecords s t) (fuel : Nat) : sameRecords (makeRoom fuel s) (makeRoom fuel t) := by
  induction fuel generalizing s t with
  | zero => exact h
  | succ fuel ih =>
    unfold Machine.makeRoom
    rw [h.freeEntries, h.1]
    split
    · exact h
    · split
      · exact h
      · exact ih (h.dropRecord _)

theorem recordOpened {s t : State} (h : sameRecords s t) (serial : Nat) (source : Port) (baseline : Int) :
    sameRecords (recordOpened serial source baseline s) (recordOpened serial source baseline t) :=
  ⟨by unfold Machine.recordOpened; dsimp only; rw [h.1], h.2⟩

theorem openNewRecord {s t : State} (h : sameRecords s t) (serial : Nat) (source : Port) (baseline : Int) :
    sameRecords (openNewRecord serial source baseline s) (openNewRecord serial source baseline t) := by
  refine recordOpened ?_ serial source baseline
  rw [h.1]
  split
  · exact h
  · split
    · exact h.dropRecord _
    · exact h

theorem placeStrike {s t : State} (h : sameRecords s t) (serial : Nat) (source : Port) (baseline : Int) :
    sameRecords (placeStrike serial source baseline s) (placeStrike serial source baseline t) := by
  unfold Machine.placeStrike
  rw [h.1]
  dsimp only
  split
  · exact h
  · split
    · exact ⟨rfl, h.2⟩
    · exact sameRecords.openNewRecord (s := { s with memory := { s.memory with openRecord := none } })
        (t := { t with memory := { s.memory with openRecord := none } }) ⟨rfl, h.2⟩ _ _ _

theorem recordStrike {s t : State} (h : sameRecords s t) (serial : Nat) (source : Port) (platen : Int) (e : StrikeEntry) :
    sameRecords (recordStrike serial source platen e s) (recordStrike serial source platen e t) := by
  have hplaced := h.placeStrike serial source (platen + e.rise)
  have hroom := hplaced.makeRoom (Machine.placeStrike serial source (platen + e.rise) s).memory.records.length
  unfold Machine.recordStrike
  dsimp only
  rw [hplaced.1, hroom.1, hroom.freeEntries]
  split
  · exact hroom
  · split
    · exact ⟨rfl, hroom.2⟩
    · exact ⟨rfl, hroom.2⟩

end sameRecords

/-! ### A Strike that completes (R73) -/

/-- The entry of a strike (R95). -/
def strikeEntry (k : Strike) (e : Engine) : StrikeEntry :=
  { name := 0, position := k.position, width := k.width, rise := k.rise, wheelId := (e.petalMap.map (·.wheelId)).getD 0,
    petal := k.petal, energy := k.energy, code := k.code, cell := k.cell, pass := k.pass,
    liftable := e.ribbonKind == .correctable }

/-- R73: a Main strike counts as struck. -/
def Job.blow (j : Job) (k : Strike) : Job := { j with struck := if k.pass = .main then j.struck + 1 else j.struck }

/-- R73, R87: the ribbon has been spent and the strike seen. -/
def ribbonSpent (s : State) : State :=
  { s with engine := { s.engine with ribbon := s.engine.ribbon - 1 }, lift := { s.lift with strikeSeen := true } }

/-- R88: Supply Low goes out when a count comes to its mark. -/
def lowTold (c : Prop) [Decidable c] (s : State) : State := if c then supplyLow s else s

theorem lowTold_frame (c : Prop) [Decidable c] (s : State) : changesOnly [.console, .link] s (lowTold c s) :=
  .ite (supplyLow_frame s) (.refl _ _)

theorem lowTold_port (c : Prop) [Decidable c] (s : State) (p : Port) : (lowTold c s).port p =
    if c then (s.port p).notice (Notice.supplyLow s.engine.ribbon s.engine.tape) else s.port p := by
  unfold lowTold; split
  · exact State.noticeBoth_port _ _ p
  · rfl

section
variable {k : Strike} {s : State} {j : Job} {rest : List Job}

/-- The state in which the strike is recorded. -/
def strikeCounted (s : State) : State := lowTold (s.engine.ribbon = 501) (ribbonSpent s)

theorem strikeCounted_frame (s : State) : changesOnly [.console, .link, .engine, .lift] s (strikeCounted s) := by
  refine changesOnly.trans ?_ ((lowTold_frame _ _).mono (by decide))
  intro q hq; cases q <;> first | exact absurd hq (by decide) | rfl

theorem strikeCounted_engine (s : State) : (strikeCounted s).engine = { s.engine with ribbon := s.engine.ribbon - 1 } :=
  (lowTold_frame _ _).same .engine (by decide)

theorem strikeCounted_lift (s : State) : (strikeCounted s).lift = { s.lift with strikeSeen := true } :=
  (lowTold_frame _ _).same .lift (by decide)

theorem strikeCounted_port (s : State) (p : Port) : (strikeCounted s).port p =
    if s.engine.ribbon = 501 then (s.port p).notice (Notice.supplyLow 500 s.engine.tape) else s.port p := by
  refine (lowTold_port _ _ p).trans ?_
  have hp : (ribbonSpent s).port p = s.port p := by cases p <;> rfl
  rw [hp]
  by_cases h : s.engine.ribbon = 501
  · rw [if_pos h, if_pos h]
    show (s.port p).notice (Notice.supplyLow (s.engine.ribbon - 1) s.engine.tape) = _
    rw [h]
  · rw [if_neg h, if_neg h]

variable (hq : s.engine.queue = j :: rest)
include hq

theorem completeStrike_eq : completeStrike k s = setHead (·.blow k)
    (recordStrike (j.serial.getD 0) j.source s.engine.platen (strikeEntry k s.engine) (strikeCounted s)) := by
  have hblow : (fun x : Job => if k.pass = .main then { x with struck := x.struck + 1 } else x) = (·.blow k) := by
    funext x; unfold Job.blow; split <;> rfl
  unfold completeStrike; rw [hq]; dsimp only
  rw [hblow]; rfl

/-- R73: what a Strike that completes does to the engine. -/
theorem completeStrike_engine : (completeStrike k s).engine =
    { s.engine with ribbon := s.engine.ribbon - 1, queue := j.blow k :: rest } := by
  have he := ((recordStrike_frame (j.serial.getD 0) j.source s.engine.platen (strikeEntry k s.engine)
    (strikeCounted s)).same .engine (by decide)).trans (strikeCounted_engine s)
  rw [completeStrike_eq hq, setHead_cons (j := j) (rest := rest) ((congrArg Engine.queue he).trans hq)]
  dsimp only
  rw [he]

/-- R73, R95: the strike goes to Correction Memory as it stood before. -/
theorem completeStrike_memory : (completeStrike k s).memory =
    (recordStrike (j.serial.getD 0) j.source s.engine.platen (strikeEntry k s.engine) s).memory := by
  rw [completeStrike_eq hq, (setHead_frame _ _).same .memory (by decide)]
  exact ((sameRecords.of_frame (strikeCounted_frame s) (by decide) (by decide)).recordStrike _ _ _ _).1

theorem completeStrike_rest_frame : changesOnly [.engine, .memory, .spelling] (strikeCounted s) (completeStrike k s) := by
  rw [completeStrike_eq hq]
  exact ((recordStrike_frame _ _ _ _ _).mono (by decide)).trans ((setHead_frame _ _).mono (by decide))

theorem completeStrike_lift : (completeStrike k s).lift = { s.lift with strikeSeen := true } :=
  ((completeStrike_rest_frame hq).same .lift (by decide)).trans (strikeCounted_lift s)

theorem completeStrike_port (p : Port) : (completeStrike k s).port p =
    if s.engine.ribbon = 501 then (s.port p).notice (Notice.supplyLow 500 s.engine.tape) else s.port p :=
  ((completeStrike_rest_frame hq).ports p (by decide)).trans (strikeCounted_port s p)

end

/-! ### What the end of a step leaves of the line and of the Spelling Unit, a line in Checking or not -/

theorem fillQueries_spelling (done l : List Query) (s : State) : ∃ queue queries,
    (fillQueries done l s).spelling = { s.spelling with queue := queue, queries := queries } := by
  induction l generalizing done s with
  | nil => exact ⟨_, _, rfl⟩
  | cons q l ih =>
    unfold fillQueries; split
    · obtain ⟨queue, queries, h⟩ := ih (done ++ [{ q with queued := true }])
        (joinSpellQueue { spellEntry s.store.buckets q.letters with tag := q.tag } s)
      exact ⟨queue, queries, h⟩
    · exact ih _ _

theorem arbitrate_spelling (s : State) : ∃ queue, (arbitrate s).spelling = { s.spelling with queue := queue } := by
  unfold arbitrate; split
  · split <;> exact ⟨_, rfl⟩
  · exact ⟨_, rfl⟩

/-- The end of a step queues lookups and answers, and writes nothing else of the Spelling Unit. -/
theorem endStep_spelling (s : State) : ∃ queue queries,
    (endStep s).spelling = { s.spelling with queue := queue, queries := queries } := by
  have hfill : ∃ queue, (fillFromChecking s).spelling = { s.spelling with queue := queue } := by
    unfold fillFromChecking; split
    · exact ⟨_, attemptWords_spelling _ s⟩
    · exact ⟨_, rfl⟩
  obtain ⟨q1, h1⟩ := hfill
  obtain ⟨q2, qs, h2⟩ := fillQueries_spelling [] (fillFromChecking s).spelling.queries (fillFromChecking s)
  obtain ⟨q3, h3⟩ := arbitrate_spelling (settleSpelling s)
  have hsettled : (settleSpelling s).spelling = { s.spelling with queue := q2, queries := qs } :=
    (holdTest_spelling _).trans (h2.trans (by rw [h1]))
  exact ⟨q3, qs, h3.trans (by rw [hsettled])⟩

theorem endStep_suspects (s : State) : (endStep s).spelling.suspects = s.spelling.suspects := by
  obtain ⟨_, _, h⟩ := endStep_spelling s; rw [h]

theorem endStep_printWait (s : State) : (endStep s).spelling.printWait = s.spelling.printWait := by
  obtain ⟨_, _, h⟩ := endStep_spelling s; rw [h]

/-- The end of a step settles words of the line and with them its phase. -/
theorem endStep_line_words (s : State) : ∃ words joined phase,
    (endStep s).line = { s.line with words := words, joined := joined, phase := phase } := by
  have h1 := fillFromChecking_respelled s
  unfold respelled at h1
  have h2 : (fillFromQueries (fillFromChecking s)).line = (fillFromChecking s).line :=
    (fillQueries_frame _ _ _).same .line (by decide)
  obtain ⟨phase, h3⟩ := holdTest_line (fillFromQueries (fillFromChecking s))
  have h4 : (endStep s).line = (holdTest (fillFromQueries (fillFromChecking s))).line :=
    ((finish_frame _).same .line (by decide)).trans ((arbitrate_frame _).same .line (by decide))
  exact ⟨_, _, phase, h4.trans (h3.trans (by rw [h2, h1]))⟩

/-! ### The order that follows -/

section
variable {s : State} {j : Job} {rest : List Job} {o : Order}

/-- R69: the next order begins and is in flight. -/
theorem goOn_begun (hq : s.engine.queue = j :: rest) (hs : j.started = true) (ho : j.orders[j.next]? = some o)
    (hr : 0 < s.engine.ribbon) (hb : (beginOrder o s).complete = false) : goOn s = (beginOrder o s).state := by
  obtain ⟨n, h⟩ := goOn_fuel s
  rw [h, runQueue_started hq hs, ho]
  dsimp only
  rw [if_neg hr.ne', if_neg (by rw [hb]; decide)]

/-- What the beginning of a Strike leaves of the engine. -/
theorem beginOrder_strike (k : Strike) (s : State) : ∃ e : Engine, beginOrder (.strike k) s = ⟨{ s with engine := e }, false⟩
    ∧ e.ribbon = s.engine.ribbon ∧ e.tape = s.engine.tape ∧ e.queue = s.engine.queue ∧ e.state = s.engine.state
    ∧ e.platen = s.engine.platen ∧ e.pageLines = s.engine.pageLines ∧ e.petalMap = s.engine.petalMap
    ∧ e.platenMove = s.engine.platenMove := by
  refine ⟨_, rfl, ?_⟩
  rw [fireOrRaise_strike]
  unfold startCarrier
  split <;> (unfold startWheel; split <;> exact ⟨rfl, rfl, rfl, rfl, rfl, rfl, rfl, rfl⟩)

/-- R88: a Strike follows, or SupplyOut with no ribbon for it; either way the engine keeps all that no Strike moves. -/
theorem orderDone_strikeNext {k : Strike} (hq : s.engine.queue = j :: rest) (hc : j.cancelled = false)
    (hs : j.started = true) (ho : j.orders[j.next + 1]? = some (.strike k)) :
    ∃ (e : Engine) (r : Option Nat), orderDone s = { s with engine := e, restTimer := r }
    ∧ e.ribbon = s.engine.ribbon ∧ e.tape = s.engine.tape ∧ e.queue = { j with next := j.next + 1 } :: rest
    ∧ e.state = (if s.engine.ribbon = 0 then .supplyOut else s.engine.state)
    ∧ e.platen = s.engine.platen ∧ e.pageLines = s.engine.pageLines ∧ e.petalMap = s.engine.petalMap
    ∧ e.platenMove = s.engine.platenMove ∧ (0 < s.engine.ribbon → r = s.restTimer) := by
  by_cases hr : s.engine.ribbon = 0
  · refine ⟨_, _, orderDone_supplyOut hq hc hs ho hr, rfl, rfl, rfl, (if_pos hr).symm, rfl, rfl, rfl, rfl, fun h => ?_⟩
    exact absurd hr h.ne'
  · obtain ⟨e, hb, hribbon, htape, hqueue, hstate, hplaten, hlines, hmap, hmove⟩ := beginOrder_strike k (steppedOn j rest s)
    refine ⟨e, s.restTimer, ?_, hribbon, htape, hqueue, hstate.trans (if_neg hr).symm, hplaten, hlines, hmap, hmove,
      fun _ => rfl⟩
    rw [orderDone_goesOn hq hc]
    exact (goOn_begun (s := steppedOn j rest s) rfl hs ho (Nat.pos_of_ne_zero hr) (by rw [hb])).trans (by rw [hb]; rfl)

/-- R74: a Feed that moves the platen follows. -/
theorem orderDone_feedNext {d : Int} (hq : s.engine.queue = j :: rest) (hc : j.cancelled = false)
    (hs : j.started = true) (ho : j.orders[j.next + 1]? = some (.feed d)) (hd : d ≠ 0) (hr : 0 < s.engine.ribbon) :
    orderDone s = { s with engine := { s.engine with
      queue := { j with next := j.next + 1 } :: rest, platenMove := some (.feed d) } } := by
  have hb : beginOrder (.feed d) (steppedOn j rest s) = ⟨{ steppedOn j rest s with
      engine := { (steppedOn j rest s).engine with platenMove := some (.feed d) } }, false⟩ := if_neg hd
  rw [orderDone_goesOn hq hc]
  exact (goOn_begun (s := steppedOn j rest s) rfl hs ho hr (by rw [hb])).trans (by rw [hb]; rfl)

end

/-! ### The hammer has returned (R73, R118) -/

/-- The hammer is at rest. -/
def hammerRested (s : State) : State := { s with engine := { s.engine with hammer := .idle } }

theorem hammerReturned_strike {n : Nat} {k : Strike} {s : State} (hh : s.engine.hammer = .returning n)
    (ho : currentOrder s = some (.strike k)) :
    hammerReturned s = endStep (orderDone (completeStrike k (hammerRested s))) := by
  have hcur : currentOrder (hammerRested s) = some (.strike k) := ho
  unfold hammerReturned; rw [hh]
  show endStep (completeBlow (hammerRested s)) = _
  unfold completeBlow; rw [hcur]

theorem hammerReturned_lift {n r : Nat} {e : StrikeEntry} {s : State} (hh : s.engine.hammer = .returning n)
    (ho : currentOrder s = some (.lift r e)) :
    hammerReturned s = endStep (orderDone (completeLift r e (hammerRested s))) := by
  have hcur : currentOrder (hammerRested s) = some (.lift r e) := ho
  unfold hammerReturned; rw [hh]
  show endStep (completeBlow (hammerRested s)) = _
  unfold completeBlow; rw [hcur]

/-! ### A Lift that completes (R118) -/

/-- R118: no suspect that stands or waits covers this cell. -/
def uncovered (serial cell : Nat) (s : State) : Prop :=
  ∀ x ∈ s.spelling.suspects ++ s.spelling.printWait, ¬ (x.serial = serial ∧ x.first ≤ cell ∧ cell < x.first + x.count)

theorem uncovered.of_subset {serial cell : Nat} {s t : State} (h : uncovered serial cell s)
    (hs : t.spelling.suspects ⊆ s.spelling.suspects) (hw : t.spelling.printWait ⊆ s.spelling.printWait) :
    uncovered serial cell t := fun x hx => h x (by
  rcases List.mem_append.1 hx with hx | hx
  · exact List.mem_append_left _ (hs hx)
  · exact List.mem_append_right _ (hw hx))

theorem withdrawLifted_uncovered (serial cell : Nat) (s : State) : uncovered serial cell (withdrawLifted serial cell s) := by
  intro x hx ⟨h1, h2, h3⟩
  have hcovers : (!x.covers serial cell) = true := by
    rcases List.mem_append.1 hx with hx | hx <;> exact (List.mem_filter.1 hx).2
  simp [Suspect.covers, h1, h2, h3] at hcovers

/-- The line once the cell of a lifted entry is out of it. -/
def cellRemoved (i : Nat) (s : State) : State :=
  { s with line := { s.line with
      cells := s.line.cells.eraseIdx i
      cursor := directCursor (s.line.cells.eraseIdx i) s.composer.position
      generation := (s.line.generation + 1) % 65536 } }

section
variable {serial i : Nat} {e : StrikeEntry} {s : State}

theorem removeLiftedCell_none (h : s.line.holder = none ∨ s.line.mode = .line ∨ s.line.serial ≠ serial ∨ e.pass ≠ .main
    ∨ liftedCell e s.line.cells = none) : removeLiftedCell serial e s = s := by
  unfold removeLiftedCell
  split
  · rename_i hcond
    have hdirect : (s.line.holder.isSome = true ∧ s.line.mode = .direct) ∧ s.line.serial = serial ∧ e.pass = .main := by
      simpa [WorkingLine.isDirect, and_assoc] using hcond
    obtain ⟨⟨hholder, hmode⟩, hserial, hpass⟩ := hdirect
    rcases h with h | h | h | h | h
    · rw [h] at hholder; cases hholder
    · rw [h] at hmode; cases hmode
    · exact absurd hserial h
    · exact absurd hpass h
    · rw [h]
  · rfl

theorem removeLiftedCell_some (hh : s.line.holder.isSome = true) (hm : s.line.mode = .direct) (hs : s.line.serial = serial)
    (hp : e.pass = .main) (hi : liftedCell e s.line.cells = some i) : removeLiftedCell serial e s =
      if i + 1 = s.line.cells.length then editSpelling (cellRemoved i s) else unmapLine (cellRemoved i s) := by
  unfold removeLiftedCell
  rw [if_pos (by simp [WorkingLine.isDirect, hh, hm, hs, hp]), hi]; rfl

/-- R118: the line without the cell, in whatever words. -/
theorem removeLiftedCell_line (hh : s.line.holder.isSome = true) (hm : s.line.mode = .direct) (hs : s.line.serial = serial)
    (hp : e.pass = .main) (hi : liftedCell e s.line.cells = some i) :
    (removeLiftedCell serial e s).line.cells = s.line.cells.eraseIdx i
      ∧ (removeLiftedCell serial e s).line.generation = (s.line.generation + 1) % 65536
      ∧ (removeLiftedCell serial e s).line.cursor = directCursor (s.line.cells.eraseIdx i) s.composer.position := by
  rw [removeLiftedCell_some hh hm hs hp hi]
  split
  · have h := editSpelling_respelled (cellRemoved i s)
    exact ⟨h.cells, h.generation, h.cursor⟩
  · have h := unmapLine_respelled (cellRemoved i s)
    exact ⟨h.cells, h.generation, h.cursor⟩

/-- R141: no suspect comes with the removal, and what waits stays. -/
theorem removeLiftedCell_uncovered {cell : Nat} (h : uncovered serial cell s) :
    uncovered serial cell (removeLiftedCell serial e s) := by
  have hedited {t : State} (k : editedSpelling s t) : uncovered serial cell t := by
    obtain ⟨hsuspects, hwait, -⟩ := k
    refine h.of_subset ?_ ?_
    · rw [hsuspects]; exact List.filter_subset_self _
    · rw [hwait]; exact List.Subset.refl _
  unfold removeLiftedCell
  split
  · split
    · exact h
    · dsimp only
      split
      · exact hedited (editSpelling_edited rfl rfl rfl)
      · exact hedited (unmapLine_edited rfl rfl rfl)
  · exact h

end

/-- R118: the lift is counted and the leftmost position kept. -/
def Correction.counting (c : Correction) (e : StrikeEntry) : Correction :=
  { c with
    lifted := c.lifted + 1
    leftmost := some (match c.leftmost with | none => e.position | some y => min y e.position) }

/-- The tape has been spent and the guide dropped. -/
def tapeSpent (s : State) : State :=
  { s with engine := { s.engine with tape := s.engine.tape - 1, tapeGuide := .down } }

/-- R118: the entry has left the paper: the counts, the record and the job say so. -/
def lifted (r : Nat) (e : StrikeEntry) (c : Correction) (j : Job) (rest : List Job) (s : State) : State :=
  let u := lowTold (s.engine.tape = 101) (tapeSpent s)
  { u with
    memory := s.memory.update r fun x => { x with entries := x.entries.filter (·.name != e.name) }
    engine := { u.engine with queue := { j with correction := some (c.counting e) } :: rest } }

theorem completeLift_eq {r : Nat} {e : StrikeEntry} {c : Correction} {j : Job} {rest : List Job} {s : State}
    (hq : s.engine.queue = j :: rest) (hc : j.correction = some c) : completeLift r e s =
      removeLiftedCell (j.serial.getD 0) e (withdrawLifted (j.serial.getD 0) e.cell (lifted r e c j rest s)) := by
  have hu := lowTold_frame (s.engine.tape = 101) (tapeSpent s)
  have hqueue : (removeEntry r e.name (lowTold (s.engine.tape = 101) (tapeSpent s))).engine.queue = j :: rest :=
    (congrArg Engine.queue (hu.same .engine (by decide))).trans hq
  unfold completeLift
  rw [hq]
  dsimp only
  have hhead := setHead_cons (g := fun x => { x with correction := x.correction.map (·.counting e) }) hqueue
  rw [hc] at hhead
  have hlifted : setHead (fun x => { x with correction := x.correction.map (·.counting e) })
      (removeEntry r e.name (lowTold (s.engine.tape = 101) (tapeSpent s))) = lifted r e c j rest s := by
    rw [hhead]
    unfold removeEntry lifted
    rw [hu.same .memory (by decide)]; rfl
  rw [← hlifted]; rfl

section
variable (r : Nat) (e : StrikeEntry) (c : Correction) (j : Job) (rest : List Job) (s : State)

theorem lifted_frame : changesOnly [.console, .link, .engine, .memory] s (lifted r e c j rest s) := by
  have hspent : changesOnly [.engine] s (tapeSpent s) := engine_frame s _
  have hu := hspent.then (lowTold_frame (s.engine.tape = 101) (tapeSpent s)) (c := [.console, .link, .engine, .memory])
    (by decide) (by decide)
  refine hu.trans ?_
  intro q hq; cases q <;> first | exact absurd hq (by decide) | rfl

theorem lifted_engine : (lifted r e c j rest s).engine = { s.engine with
    tape := s.engine.tape - 1, tapeGuide := .down, queue := { j with correction := some (c.counting e) } :: rest } := by
  unfold lifted
  dsimp only
  rw [(lowTold_frame (s.engine.tape = 101) (tapeSpent s)).same .engine (by decide)]; rfl

theorem lifted_link : (lifted r e c j rest s).link =
    if s.engine.tape = 101 then s.link.notice (Notice.supplyLow s.engine.ribbon 100) else s.link := by
  have hlink : (lifted r e c j rest s).link = (lowTold (s.engine.tape = 101) (tapeSpent s)).port .link := rfl
  rw [hlink, lowTold_port]
  by_cases h : s.engine.tape = 101
  · rw [if_pos h, if_pos h]
    show s.link.notice (Notice.supplyLow s.engine.ribbon (s.engine.tape - 1)) = _
    rw [h]
  · rw [if_neg h, if_neg h]; rfl

end

section
variable {r : Nat} {e : StrikeEntry} {c : Correction} {j : Job} {rest : List Job} {s : State}
  (hq : s.engine.queue = j :: rest) (hc : j.correction = some c)
include hq hc

theorem completeLift_after : changesOnly [.line, .spelling] (lifted r e c j rest s) (completeLift r e s) := by
  rw [completeLift_eq hq hc]
  exact ((withdrawLifted_frame _ _ _).mono (by decide)).trans (removeLiftedCell_frame _ _ _)

theorem completeLift_frame_of : changesOnly [.console, .link, .line, .engine, .memory, .spelling] s (completeLift r e s) :=
  ((lifted_frame r e c j rest s).mono (by decide)).trans ((completeLift_after hq hc).mono (by decide))

/-- R105, R118: the entry leaves its record and no other. -/
theorem completeLift_memory : (completeLift r e s).memory = { s.memory with records := s.memory.records.map fun x =>
    if x.name = r then { x with entries := x.entries.filter (·.name != e.name) } else x } :=
  (completeLift_after hq hc).same .memory (by decide)

theorem completeLift_engine : (completeLift r e s).engine = { s.engine with
    tape := s.engine.tape - 1, tapeGuide := .down, queue := { j with correction := some (c.counting e) } :: rest } :=
  ((completeLift_after hq hc).same .engine (by decide)).trans (lifted_engine r e c j rest s)

theorem completeLift_link : (completeLift r e s).link =
    if s.engine.tape = 101 then s.link.notice (Notice.supplyLow s.engine.ribbon 100) else s.link :=
  ((completeLift_after hq hc).same .link (by decide)).trans (lifted_link r e c j rest s)

theorem completeLift_uncovered : uncovered (j.serial.getD 0) e.cell (completeLift r e s) := by
  rw [completeLift_eq hq hc]
  exact removeLiftedCell_uncovered (withdrawLifted_uncovered _ _ _)

/-- R118: the line keeps its cells when the entry has none there. -/
theorem completeLift_line_kept (h : s.line.holder = none ∨ s.line.mode = .line ∨ s.line.serial ≠ j.serial.getD 0
    ∨ e.pass ≠ .main ∨ liftedCell e s.line.cells = none) : (completeLift r e s).line = s.line := by
  have hline : (withdrawLifted (j.serial.getD 0) e.cell (lifted r e c j rest s)).line = s.line :=
    (lifted_frame r e c j rest s).same .line (by decide)
  rw [completeLift_eq hq hc, removeLiftedCell_none (by rw [hline]; exact h), hline]

/-- R118, R131: a Main entry of the Direct-mode line takes its cell along. -/
theorem completeLift_line_cut {i : Nat} (hh : s.line.holder.isSome = true) (hm : s.line.mode = .direct)
    (hs : s.line.serial = j.serial.getD 0) (hp : e.pass = .main) (hi : liftedCell e s.line.cells = some i) :
    (completeLift r e s).line.cells = s.line.cells.eraseIdx i
      ∧ (completeLift r e s).line.generation = (s.line.generation + 1) % 65536
      ∧ (completeLift r e s).line.cursor = directCursor (s.line.cells.eraseIdx i) s.composer.position := by
  have hline : (withdrawLifted (j.serial.getD 0) e.cell (lifted r e c j rest s)).line = s.line :=
    (lifted_frame r e c j rest s).same .line (by decide)
  have hcomposer : (withdrawLifted (j.serial.getD 0) e.cell (lifted r e c j rest s)).composer = s.composer :=
    (lifted_frame r e c j rest s).same .composer (by decide)
  have h := removeLiftedCell_line (serial := j.serial.getD 0) (e := e) (i := i)
    (s := withdrawLifted (j.serial.getD 0) e.cell (lifted r e c j rest s)) (by rw [hline]; exact hh)
    (by rw [hline]; exact hm) (by rw [hline]; exact hs) hp (by rw [hline]; exact hi)
  rw [hline, hcomposer] at h
  rw [completeLift_eq hq hc]; exact h

end

/-- Settles O52: the blow is counted and recorded, or the lifted entry taken away; then the next order begins. -/
theorem hammerReturnedRecordsTheStrike : Obligations.HammerReturnedRecordsTheStrike := by
  unfold Obligations.HammerReturnedRecordsTheStrike
  refine ⟨fun n j rest k k' s hh hs hq hcan hj ho hn => ?another, fun n j rest c r e d s hh hs hq hcan hj hc ho hn hd hr => ?lift,
    fun n j rest k s hh hs hq hcan hj ho => ?whatever⟩
  case another =>
    have hcur : currentOrder s = some (.strike k) := (currentOrder_cons hq).trans ho
    have hq' : (hammerRested s).engine.queue = j :: rest := hq
    have he := completeStrike_engine (k := k) hq'
    have hq1 := congrArg Engine.queue he
    obtain ⟨e, rt, hdone, hribbon, htape, hqueue, hstate, hplaten, -, hmap, -⟩ := orderDone_strikeNext
      (s := completeStrike k (hammerRested s)) (k := k') hq1 hcan hj hn
    refine ⟨_, congrArg Host.Outcome.next (hammerReturned_strike hh hcur), ?_⟩
    rw [hdone]
    have hframe := completeStrike_frame k (hammerRested s)
    refine ⟨?_, ?_, ?_, ?_, ?_, ?_, ?_, ?_, ?_⟩
    · rw [endStep_engine]; exact hribbon.trans (by rw [he]; rfl)
    · rw [endStep_engine]; exact htape.trans (by rw [he]; rfl)
    · rw [endStep_engine]; exact hqueue
    · rw [endStep_engine]
      refine hstate.trans ?_
      rw [he]
      show (if s.engine.ribbon - 1 = 0 then _ else s.engine.state) = _
      rw [hs]
      exact if_congr Nat.sub_eq_zero_iff_le rfl rfl
    · rw [endStep_lift]; exact completeStrike_lift hq'
    · rw [endStep_memory]
      refine (completeStrike_memory hq').trans ?_
      exact ((sameRecords.of_frame (engine_frame s _) (by decide) (by decide)).recordStrike _ _ _ _).1
    · rw [endStep_engine]; exact hplaten.trans (by rw [he]; rfl)
    · rw [endStep_engine]; exact hmap.trans (by rw [he]; rfl)
    · have hrested : changesOnly [.engine] s (hammerRested s) := engine_frame s _
      refine changesOnly.trans ?_ ((endStep_frame _).mono (by decide))
      refine changesOnly.trans ?_ ((engineRest_frame _ e rt).mono (by decide))
      exact (hrested.mono (by decide)).trans (hframe.mono (by decide))
  case lift =>
    have hcur : currentOrder s = some (.lift r e) := (currentOrder_cons hq).trans ho
    have hq' : (hammerRested s).engine.queue = j :: rest := hq
    have he := completeLift_engine (r := r) (e := e) hq' hc
    have hframe := completeLift_frame_of (r := r) (e := e) hq' hc
    have hun := completeLift_uncovered (r := r) (e := e) hq' hc
    have hdone := orderDone_feedNext (s := completeLift r e (hammerRested s)) (congrArg Engine.queue he) hcan hj hn hd
      (by rw [he]; exact hr)
    refine ⟨_, congrArg Host.Outcome.next (hammerReturned_lift hh hcur), ?_⟩
    rw [hdone]
    obtain ⟨words, joined, phase, hline⟩ := endStep_line_words { completeLift r e (hammerRested s) with
      engine := { (completeLift r e (hammerRested s)).engine with
        queue := { { j with correction := some (c.counting e) } with next := j.next + 1 } :: rest
        platenMove := some (.feed d) } }
    refine ⟨?_, ?_, ?_, ?_, ?_, fun h => ?_, fun i h1 h2 h3 h4 h5 => ?_, ?_⟩
    · rw [endStep_engine, he]; rfl
    · rw [endStep_memory]; exact completeLift_memory hq' hc
    · rw [endStep_lift]; exact hframe.same .lift (by decide)
    · rw [endStep_link]; exact completeLift_link hq' hc
    · rw [endStep_suspects, endStep_printWait]; exact hun
    · rw [hline]
      have hkept := completeLift_line_kept (r := r) hq' hc h
      have hcells := congrArg WorkingLine.cells hkept
      have hgeneration := congrArg WorkingLine.generation hkept
      exact ⟨hcells, hgeneration⟩
    · rw [hline]
      obtain ⟨hcells, hgeneration, hcursor⟩ := completeLift_line_cut (r := r) hq' hc h1 h2 h3 h4 h5
      refine ⟨hcells, hgeneration, hcursor.trans ?_⟩
      show directCursor (s.line.cells.eraseIdx i) s.composer.position
        = directCursor (completeLift r e (hammerRested s)).line.cells s.composer.position
      rw [hcells]; rfl
    · have hrested : changesOnly [.engine] s (hammerRested s) := engine_frame s _
      refine changesOnly.trans ?_ ((endStep_frame _).mono (by decide))
      refine changesOnly.trans ?_ ((engine_frame _ _).mono (by decide))
      exact (hrested.mono (by decide)).trans (hframe.mono (by decide))
  case whatever =>
    have hcur : currentOrder s = some (.strike k) := (currentOrder_cons hq).trans ho
    have hq' : (hammerRested s).engine.queue = j :: rest := hq
    have he := completeStrike_engine (k := k) hq'
    have hmemory : (completeStrike k (hammerRested s)).memory = (recordStrike (j.serial.getD 0) j.source s.engine.platen
        (strikeEntry k s.engine) s).memory := (completeStrike_memory hq').trans
      ((sameRecords.of_frame (engine_frame s _) (by decide) (by decide)).recordStrike _ _ _ _).1
    have hlift := completeStrike_lift (k := k) hq'
    have hline : (completeStrike k (hammerRested s)).line = s.line :=
      ((completeStrike_rest_frame hq').same .line (by decide)).trans ((strikeCounted_frame _).same .line (by decide))
    have hport (p : Port) : (completeStrike k (hammerRested s)).port p =
        if s.engine.ribbon = 501 then (s.port p).notice (Notice.supplyLow 500 s.engine.tape) else s.port p :=
      (completeStrike_port hq' p).trans (by cases p <;> rfl)
    have hreported {u : State} (h : changesOnly [.engine, .restTimer] (completeStrike k (hammerRested s)) u) :
        (endStep u).link = (if s.engine.ribbon = 501 then s.link.notice (Notice.supplyLow 500 s.engine.tape) else s.link)
        ∧ (s.line.phase ≠ .checking → (endStep u).console
          = (if s.engine.ribbon = 501 then s.console.notice (Notice.supplyLow 500 s.engine.tape) else s.console)) := by
      refine ⟨(endStep_link u).trans ((h.ports .link (by decide)).trans (hport .link)), fun hp => ?_⟩
      have hul : u.line = s.line := (h.same .line (by decide)).trans hline
      exact (endStep_port (by rw [hul]; exact hp) .console).trans ((h.ports .console (by decide)).trans (hport .console))
    refine ⟨_, congrArg Host.Outcome.next (hammerReturned_strike hh hcur), fun o hn hr ht => ?_, fun o hn hr => ?_,
      fun hn hk hl hrest howed => ?_⟩
    · rw [orderDone_begins (s := completeStrike k (hammerRested s)) (congrArg Engine.queue he) hcan hj hn
        (by rw [he]; exact Nat.sub_pos_of_lt hr) (by
          rw [← ht]
          exact o.takesTime_congr (by rw [he]; rfl) (by rw [he]; rfl) (by rw [he]; rfl) (by rw [he]; rfl) (by rw [he]; rfl)
            ((completeStrike_frame k (hammerRested s)).same .format (by decide)))]
      refine ⟨?_, (endStep_memory _).trans hmemory, (endStep_lift _).trans hlift,
        hreported ((engine_frame _ _).mono (by decide)), ?_⟩
      · rw [endStep_engine, steppedOn, he]; rfl
      · rw [endStep_restTimer]; exact (completeStrike_frame k (hammerRested s)).same .restTimer (by decide)
    · rw [orderDone_supplyOut (s := completeStrike k (hammerRested s)) (congrArg Engine.queue he) hcan hj hn
        (by rw [he]; exact Nat.sub_eq_zero_of_le hr)]
      refine ⟨?_, (endStep_memory _).trans hmemory, (endStep_lift _).trans hlift,
        hreported (engineRest_frame _ _ _), endStep_restTimer _⟩
      rw [endStep_engine, steppedOn, he]; rfl
    · subst hrest
      rw [orderDone_stroke (s := completeStrike k (hammerRested s)) (congrArg Engine.queue he)
        (by rw [hlift]; exact howed) hcan hj hn hk hl]
      refine ⟨?_, (endStep_memory _).trans hmemory, (endStep_lift _).trans hlift,
        hreported (engineRest_frame _ _ _), ?_⟩
      · rw [endStep_engine, he]; rfl
      · rw [endStep_restTimer]
        show restLength (completeStrike k (hammerRested s)).options = _
        rw [(completeStrike_frame k (hammerRested s)).same .options (by decide)]; rfl

end Sys2Proof.Machine

/-! SUPPORT. The end of a Feed and of an Eject (R74 to R76), and what it means for the job they belong to (R67, R68, R119,
R124). -/

namespace Sys2Proof.Machine

/-! ### A Feed that completes (R74, R75, R96) -/

/-- R96: the open record has closed and is the resume record. -/
def CorrectionMemory.fed (m : CorrectionMemory) : CorrectionMemory :=
  match m.openRecord with
  | none => m
  | some name => { m with openRecord := none, resumeRecord := some name }

theorem CorrectionMemory.fed_some {m : CorrectionMemory} {name : Nat} (h : m.openRecord = some name) :
    m.fed = { m with openRecord := none, resumeRecord := some name } := by unfold fed; rw [h]

theorem CorrectionMemory.fed_none {m : CorrectionMemory} (h : m.openRecord = none) : m.fed = m := by unfold fed; rw [h]

theorem CorrectionMemory.fed_eq (m : CorrectionMemory) : m.fed =
    { m with openRecord := none, resumeRecord := m.fed.resumeRecord } := by
  cases h : m.openRecord with
  | none => rw [fed_none h, ← h]
  | some name => rw [fed_some h]

theorem closeByFeed_eq (s : State) : closeByFeed s = { s with memory := s.memory.fed } := by
  cases h : s.memory.openRecord with
  | none => rw [CorrectionMemory.fed_none h]; simp only [closeByFeed, h]
  | some name => rw [CorrectionMemory.fed_some h]; simp only [closeByFeed, h]

/-- R74: where the platen comes to stand. -/
def Engine.fedTo (e : Engine) (n : Int) : Int := max (-64) (min 8191 (e.platen + n))

/-- R75: the Feed ends the page. -/
def pageEnds (n : Int) (s : State) : Bool :=
  decide (s.engine.pageLines < s.engine.fedTo n) && decide (s.format.pageLength ≤ s.engine.fedTo n) && !s.engine.pageEnd

theorem pageEnds_iff {n : Int} {s : State} : pageEnds n s = true ↔
    s.engine.pageLines < s.engine.fedTo n ∧ s.format.pageLength ≤ s.engine.fedTo n ∧ s.engine.pageEnd = false := by
  simp [pageEnds, and_assoc]

/-- The platen has turned and the open record is closed. -/
def fed (n : Int) (s : State) : State :=
  { s with
    engine := { s.engine with
      platen := s.engine.fedTo n
      pageLines := max s.engine.pageLines (s.engine.fedTo n)
      pageEnd := s.engine.pageEnd || pageEnds n s }
    memory := s.memory.fed }

theorem fed_frame (n : Int) (s : State) : changesOnly [.engine, .memory] s (fed n s) := by
  intro q hq; cases q <;> first | exact absurd hq (by decide) | rfl

section
variable {n : Int} {s : State} {j : Job} {rest : List Job}

theorem completeFeed_eq (hq : s.engine.queue = j :: rest) : completeFeed n s =
    if pageEnds n s then (fed n s).notice j.source (Notice.pageEnd (j.serial.getD 0) (s.engine.fedTo n)) else fed n s := by
  have hlines : (if s.engine.pageLines < s.engine.fedTo n then s.engine.fedTo n else s.engine.pageLines)
      = max s.engine.pageLines (s.engine.fedTo n) := (max_def_lt _ _).symm
  have hends : (decide (s.engine.pageLines < s.engine.fedTo n)
      && decide ((s.format.pageLength : Int) ≤ max s.engine.pageLines (s.engine.fedTo n)) && !s.engine.pageEnd)
      = pageEnds n s := by
    unfold pageEnds
    by_cases h : s.engine.pageLines < s.engine.fedTo n
    · rw [max_eq_right h.le]
    · rw [decide_eq_false h]; rfl
  have hstate : closeByFeed { s with engine := { s.engine with
      platen := s.engine.fedTo n, pageLines := max s.engine.pageLines (s.engine.fedTo n),
      pageEnd := s.engine.pageEnd || pageEnds n s } } = fed n s := closeByFeed_eq _
  have hto : clampInt (-64) 8191 (s.engine.platen + n) = s.engine.fedTo n := rfl
  unfold completeFeed
  simp only [hto, hlines, hends, hstate]
  cases h : pageEnds n s with
  | false => rfl
  | true =>
    obtain ⟨hraised, -, -⟩ := pageEnds_iff.1 h
    split
    · rename_i i tail _ hcons
      obtain ⟨rfl, -⟩ := List.cons.inj (hq.symm.trans hcons)
      rw [max_eq_right hraised.le]; rfl
    · rename_i hno
      exact absurd hq (hno j rest rfl)

theorem completeFeed_ends (hq : s.engine.queue = j :: rest) (h : pageEnds n s = true) : completeFeed n s =
    (fed n s).notice j.source (Notice.pageEnd (j.serial.getD 0) (s.engine.fedTo n)) :=
  (completeFeed_eq hq).trans (if_pos h)

theorem completeFeed_within (hq : s.engine.queue = j :: rest) (h : pageEnds n s = false) : completeFeed n s = fed n s :=
  (completeFeed_eq hq).trans (if_neg (by rw [h]; decide))

/-- What a completed Feed leaves of the state, wherever the page ends. -/
theorem completeFeed_fed (hq : s.engine.queue = j :: rest) :
    changesOnly [.console, .link] (fed n s) (completeFeed n s) := by
  rw [completeFeed_eq hq]
  exact .ite ((State.notice_frame _ _ _).mono (by cases j.source <;> decide)) (.refl _ _)

end

/-- The platen is at rest. -/
def platenRested (s : State) : State := { s with engine := { s.engine with platenMove := none } }

/-- The platen has turned on a page that goes further down. -/
def fedLow (n : Int) (s : State) : State :=
  { s with
    engine := { s.engine with platen := s.engine.fedTo n, platenMove := none }
    memory := s.memory.fed }

section
variable {n : Int} {s : State} {j : Job} {rest : List Job}

theorem platenStopped_feed (hm : s.engine.platenMove = some (.feed n)) :
    platenStopped s = endStep (orderDone (completeFeed n (platenRested s))) := by
  unfold platenStopped; rw [hm]; rfl

theorem platenStopped_eject (hm : s.engine.platenMove = some .eject) :
    platenStopped s = endStep (orderDone (completeEject (platenRested s))) := by
  unfold platenStopped; rw [hm]; rfl

/-- R75: a Feed that does not raise the page line count does not end the page. -/
theorem platenStopped_low (hm : s.engine.platenMove = some (.feed n)) (hq : s.engine.queue = j :: rest)
    (hlow : max (-64) (min 8191 (s.engine.platen + n)) ≤ s.engine.pageLines) :
    platenStopped s = endStep (orderDone (fedLow n s)) := by
  have hto : (platenRested s).engine.fedTo n ≤ (platenRested s).engine.pageLines := hlow
  have hends : pageEnds n (platenRested s) = false := by
    rw [Bool.eq_false_iff]; intro h
    obtain ⟨hraised, -, -⟩ := pageEnds_iff.1 h
    exact absurd hraised (not_lt.2 hto)
  have hfed : fed n (platenRested s) = fedLow n s := by
    unfold fed
    rw [hends, max_eq_left hto, Bool.or_false]; rfl
  rw [platenStopped_feed hm, completeFeed_within (s := platenRested s) (j := j) (rest := rest) hq hends, hfed]

end

/-! ### An Eject that completes (R76, R108) -/

theorem dropRecord_names (name : Nat) (s : State) : (dropRecord name s).memory.nextRecord = s.memory.nextRecord
    ∧ (dropRecord name s).memory.nextEntry = s.memory.nextEntry := by
  unfold dropRecord; split <;> exact ⟨rfl, rfl⟩

/-- R108: no record and no reference is left; the names go on. -/
theorem emptyMemory_memory (s : State) : (emptyMemory s).memory =
    { s.memory with records := [], openRecord := none, resumeRecord := none, returnRecord := none } := by
  have hnames : ∀ (l : List LineRecord) (t : State),
      (l.foldl (fun t r => dropRecord r.name t) t).memory.nextRecord = t.memory.nextRecord
      ∧ (l.foldl (fun t r => dropRecord r.name t) t).memory.nextEntry = t.memory.nextEntry := by
    intro l
    induction l with
    | nil => exact fun t => ⟨rfl, rfl⟩
    | cons r l ih =>
      intro t
      obtain ⟨h1, h2⟩ := ih (dropRecord r.name t)
      obtain ⟨k1, k2⟩ := dropRecord_names r.name t
      exact ⟨h1.trans k1, h2.trans k2⟩
  obtain ⟨h1, h2⟩ := hnames s.memory.records s
  show ({ records := [], openRecord := none, resumeRecord := none, returnRecord := none, nextRecord := _, nextEntry := _ }
    : CorrectionMemory) = _
  rw [h1, h2]

/-- R120: the Relocate Point goes with the records. -/
theorem emptyMemory_lift (s : State) : (emptyMemory s).lift = { s.lift with point := none } := by
  have h : (s.memory.records.foldl (fun t r => dropRecord r.name t) s).lift = s.lift :=
    (changesOnly.foldl (fun t (r : LineRecord) => dropRecord r.name t) (fun t r => dropRecord_frame r.name t) _ s).same
      .lift (by decide)
  unfold emptyMemory; dsimp only; rw [h]

/-- R76: the platen stands at a new top of page. -/
def ejected (s : State) : State :=
  { s with engine := { s.engine with platen := 0, pageLines := 0, pageEnd := false, platenMove := none } }

theorem completeEject_eq (s : State) : completeEject (platenRested s) = emptyMemory (ejected s) := rfl

/-! ### Line Done (R68, R140, R168) -/

theorem lineDone_frame_of (source : Port) (serial struck dropped : Nat) (s : State) :
    changesOnly [.ofPort source, .spelling, .tones] s (lineDone source serial struck dropped s) := by
  have h : changesOnly [.ofPort source, .spelling, .tones] s
      (examinePrinting serial (s.notice source (Notice.lineDone serial struck dropped))) :=
    (State.notice_frame _ _ _).then (examinePrinting_frame _ _) (by cases source <;> decide) (by cases source <;> decide)
  unfold lineDone; dsimp only; split
  · exact h.trans ((State.tone_frame _ _).mono (by cases source <;> decide))
  · exact h

theorem placeOnPaper_printing (x : Suspect) (s : State) : (placeOnPaper x s).spelling.printing = s.spelling.printing := by
  unfold placeOnPaper; split <;> rfl

/-- R140: the serial is no longer printing. -/
theorem examinePrinting_printing (serial : Nat) (s : State) :
    (examinePrinting serial s).spelling.printing = s.spelling.printing.filter (· ≠ serial) := by
  unfold examinePrinting
  split
  · dsimp only
    refine List.foldlRecOn (motive := fun t => t.spelling.printing = s.spelling.printing.filter (· ≠ serial)) _ _ ?_
      fun t ht x _ => (placeOnPaper_printing x t).trans ht
    exact List.filter_congr fun x _ => by rw [bne, beq_eq_decide, decide_not]
  · rename_i h
    refine (List.filter_eq_self.2 fun x hx => ?_).symm
    simp only [ne_eq, decide_not, Bool.not_eq_true', decide_eq_false_iff_not]
    rintro rfl
    exact h (List.contains_iff_mem.2 hx)

theorem lineDone_printing (source : Port) (serial struck dropped : Nat) (s : State) :
    (lineDone source serial struck dropped s).spelling.printing = s.spelling.printing.filter (· ≠ serial) := by
  have h : (examinePrinting serial (s.notice source (Notice.lineDone serial struck dropped))).spelling.printing
      = s.spelling.printing.filter (· ≠ serial) := by
    rw [examinePrinting_printing, (State.notice_frame _ _ _).same .spelling (by cases source <;> decide)]
  unfold lineDone; dsimp only; split
  · exact h
  · exact h

/-- R168: Line Done of a console line asks for the Done tone. -/
theorem lineDone_tones (source : Port) (serial struck dropped : Nat) (s : State) :
    (lineDone source serial struck dropped s).tones =
      if source = .console ∧ serial ≠ 0 ∧ s.options.doneTone = true then s.tones.request .done else s.tones := by
  have hframe : changesOnly [.console, .link, .spelling] s
      (examinePrinting serial (s.notice source (Notice.lineDone serial struck dropped))) :=
    (State.notice_frame _ _ _).then (examinePrinting_frame _ _) (by cases source <;> decide) (by decide)
  have hcond : (source == .console && serial != 0 && s.options.doneTone) = true ↔
      source = .console ∧ serial ≠ 0 ∧ s.options.doneTone = true := by simp [and_assoc]
  unfold lineDone; dsimp only
  rw [hframe.same .options (by decide)]
  by_cases h : source = .console ∧ serial ≠ 0 ∧ s.options.doneTone = true
  · rw [if_pos (hcond.2 h), if_pos h]
    exact congrArg (·.request .done) (hframe.same .tones (by decide))
  · rw [if_neg (mt hcond.1 h), if_neg h]
    exact hframe.same .tones (by decide)

theorem endStep_tones {s : State} (h : s.line.phase ≠ .checking) : (endStep s).tones = s.tones :=
  (endStep_unheld h).same .tones (by decide)

theorem endStep_printing_any (s : State) : (endStep s).spelling.printing = s.spelling.printing := by
  obtain ⟨_, _, h⟩ := endStep_spelling s; rw [h]

/-! ### The end of a Correction job (R119) -/

theorem consoleDirect_iff {s : State} : consoleDirect s = true ↔ (s.line.holder = some .console ∧ s.line.mode = .direct)
    ∨ (s.line.phase = .free ∧ s.options.entryMode = .direct) := by simp [consoleDirect]

section
variable {source : Port} {c : Correction} {outcome : Nat} {s : State}

theorem liftDone_kept : changesOnly [.console, .link] s (liftDone source c outcome s) :=
  (State.notice_frame _ _ _).mono (by cases source <;> decide)

/-- R119: the compose position goes to the leftmost lifted character. -/
theorem endCorrection_composer_set {x : Nat} (hx : c.leftmost = some x)
    (hc : c.command = .last ∨ c.command = .word ∨ c.command = .line) (hd : consoleDirect s = true)
    (hq : s.engine.queue.any (·.consoleStroke) = false) :
    (endCorrection source c outcome s).composer = { s.composer with position := x } := by
  have hdone : consoleDirect (liftDone source c outcome s) = true := by cases source <;> exact hd
  have hqueue : (liftDone source c outcome s).engine.queue.any (·.consoleStroke) = false := by cases source <;> exact hq
  have hpos : positionAfterLift c (liftDone source c outcome s) = setPosition x (liftDone source c outcome s) := by
    unfold positionAfterLift
    rw [hx]
    refine if_pos ?_
    rw [hdone, hqueue]
    rcases hc with h | h | h <;> rw [h] <;> rfl
  refine ((reopenAfter_frame c _).same .composer (by decide)).trans ?_
  rw [hpos]
  cases source <;> rfl

/-- Else it stays. -/
theorem endCorrection_composer_kept (h : c.leftmost = none ∨ c.command = .back ∨ c.command = .retract
    ∨ consoleDirect s = false ∨ s.engine.queue.any (·.consoleStroke) = true) :
    (endCorrection source c outcome s).composer = s.composer := by
  have hcomposer : (liftDone source c outcome s).composer = s.composer := liftDone_kept.same .composer (by decide)
  have hpos : positionAfterLift c (liftDone source c outcome s) = liftDone source c outcome s := by
    unfold positionAfterLift
    cases hx : c.leftmost with
    | none => rfl
    | some x =>
      refine if_neg ?_
      have hdirect : consoleDirect (liftDone source c outcome s) = consoleDirect s := by cases source <;> rfl
      have hqueue : (liftDone source c outcome s).engine.queue = s.engine.queue := by cases source <;> rfl
      rw [hdirect, hqueue]
      rcases h with h | h | h | h | h
      · rw [hx] at h; cases h
      all_goals rw [h]; simp
  refine ((reopenAfter_frame c _).same .composer (by decide)).trans ?_
  rw [hpos, hcomposer]

theorem endCorrection_memory : (endCorrection source c outcome s).memory = (reopenAfter c s).memory := by
  have hmemory : (positionAfterLift c (liftDone source c outcome s)).memory = s.memory :=
    ((positionAfterLift_frame _ _).same .memory (by decide)).trans (liftDone_kept.same .memory (by decide))
  have hreopen {t u : State} (name : Nat) (h : u.memory = t.memory) : (reopen name u).memory = (reopen name t).memory := by
    unfold reopen; rw [h]; split
    · exact h
    · rfl
  unfold endCorrection reopenAfter
  split
  · exact hreopen _ hmemory
  · exact hmemory

theorem endCorrection_engine : (endCorrection source c outcome s).engine = s.engine :=
  (endCorrection_frame _ _ _ _).same .engine (by decide)

theorem endCorrection_port (p : Port) : (endCorrection source c outcome s).port p = if source = p then
    (s.port p).notice (Notice.liftDone c.command.code outcome c.lifted (c.leftmost.getD 0)) else s.port p := by
  have hports : changesOnly [.line, .composer, .memory] (liftDone source c outcome s) (endCorrection source c outcome s) :=
    ((positionAfterLift_frame _ _).mono (by decide)).trans ((reopenAfter_frame _ _).mono (by decide))
  rw [hports.ports p (by decide)]
  exact State.notice_port_ite s source p _

/-- R119: the compose position takes the cursor of a Direct-mode line along. -/
theorem endCorrection_line : ∃ cursor, (endCorrection source c outcome s).line = { s.line with cursor := cursor } := by
  have hset (x : Nat) (t : State) : ∃ cursor, (setPosition x t).line = { t.line with cursor := cursor } := by
    show ∃ cursor, (if t.line.isDirect then _ else t.line) = _
    split <;> exact ⟨_, rfl⟩
  have hafter : (endCorrection source c outcome s).line = (positionAfterLift c (liftDone source c outcome s)).line :=
    (reopenAfter_frame _ _).same .line (by decide)
  have hdone : (liftDone source c outcome s).line = s.line := liftDone_kept.same .line (by decide)
  rw [hafter, ← hdone]
  unfold positionAfterLift
  split
  · exact ⟨_, rfl⟩
  · split
    · exact hset _ _
    · exact ⟨_, rfl⟩

theorem reopenAfter_kept (h : c.command ≠ .back ∨ c.target = none) : reopenAfter c s = s := by
  unfold reopenAfter
  split
  · rename_i hback htarget
    rcases h with h | h
    · exact absurd hback h
    · rw [htarget] at h; cases h
  · rfl

/-- R106: the target of a Lift Back is open again. -/
theorem reopenAfter_back {name : Nat} (hc : c.command = .back) (ht : c.target = some name)
    (hr : s.memory.records.any (·.name == name) = true) : (reopenAfter c s).memory = { s.memory with
      openRecord := some name
      returnRecord := match s.memory.openRecord with | some o => some o | none => s.memory.resumeRecord
      resumeRecord := none } := by
  have hheld : (s.memory.record name).isSome = true := by
    unfold CorrectionMemory.record; rw [List.find?_isSome]; simpa using hr
  obtain ⟨r, hrecord⟩ := Option.isSome_iff_exists.1 hheld
  unfold reopenAfter; rw [hc, ht]
  show (reopen name s).memory = _
  cases ho : s.memory.openRecord <;> simp only [reopen, hrecord, ho]

/-- R119: a lone Correction job that has nothing more to do. -/
theorem orderDone_correction {j : Job} (hq : s.engine.queue = [j]) (hw : s.lift.owed = false) (hc : j.cancelled = false)
    (hs : j.started = true) (ho : j.orders[j.next + 1]? = none) (hk : j.kind = .correction) (hcor : j.correction = some c) :
    orderDone s = enterReady (endCorrection j.source c 0 { s with engine := { s.engine with queue := [] } }) := by
  have he : completeHead { j with next := j.next + 1 } (steppedOn j [] s)
      = endCorrection j.source c 0 { s with engine := { s.engine with queue := [] } } :=
    completeHead_correction (s := steppedOn j [] s) rfl hw hk hcor
  rw [orderDone_ended hq hc hs ho (by rw [he, endCorrection_engine]), he]

end

/-! ### The end of a lone Line or Stroke Job (R67, R68) -/

section
variable {s : State} {j : Job} (hq : s.engine.queue = [j]) (hw : s.lift.owed = false) (hc : j.cancelled = false)
  (hs : j.started = true) (ho : j.orders[j.next + 1]? = none)
include hq hw hc hs ho

theorem orderDone_line (hk : j.kind = .line) : orderDone s = enterReady
    (lineDone j.source (j.serial.getD 0) j.struck j.dropped { s with engine := { s.engine with queue := [] } }) := by
  have he : completeHead { j with next := j.next + 1 } (steppedOn j [] s)
      = lineDone j.source (j.serial.getD 0) j.struck j.dropped { s with engine := { s.engine with queue := [] } } :=
    completeHead_line (s := steppedOn j [] s) rfl hw hk
  rw [orderDone_ended hq hc hs ho (by rw [he, lineDone_engine]), he]

/-- R68: the Stroke Job of a line end reports the tally. -/
theorem orderDone_lineEnding (hk : j.kind = .stroke) (hl : j.lineEnding = true) : orderDone s = enterReady
    (lineDone j.source (j.serial.getD 0) (s.engine.tally.adding (j.serial.getD 0) j).struck
      (s.engine.tally.adding (j.serial.getD 0) j).dropped
      { s with engine := { s.engine with queue := [], tally := .clear } }) := by
  have he : completeHead { j with next := j.next + 1 } (steppedOn j [] s)
      = lineDone j.source (j.serial.getD 0) (s.engine.tally.adding (j.serial.getD 0) j).struck
        (s.engine.tally.adding (j.serial.getD 0) j).dropped
        { s with engine := { s.engine with queue := [], tally := .clear } } := by
    refine (completeHead_stroke (j := { j with next := j.next + 1 }) (s := steppedOn j [] s) rfl hw hk).trans ?_
    exact (tallyStroke_eq _ _).trans (if_pos hl)
  rw [orderDone_ended hq hc hs ho (by rw [he, lineDone_engine]), he]

end

/-- What a report of Line Done leaves when no job is left behind it. -/
theorem doneReport_outcome {s u : State} {source : Port} {serial a b : Nat} (h : changesOnly [.engine, .memory] s u)
    (hq : u.engine.queue = []) : let t := endStep (enterReady (lineDone source serial a b u))
    t.engine = { u.engine with state := .ready } ∧ t.restTimer = restLength s.options
      ∧ (source = .link ∨ s.line.phase ≠ .checking → t.port source = (s.port source).notice (Notice.lineDone serial a b))
      ∧ t.spelling.printing = s.spelling.printing.filter (· ≠ serial)
      ∧ (s.line.phase ≠ .checking → t.tones =
          if source = .console ∧ serial ≠ 0 ∧ s.options.doneTone = true then s.tones.request .done else s.tones) := by
  have hdone := lineDone_frame source serial a b u
  have hline : (lineDone source serial a b u).line = s.line :=
    (hdone.same .line (by decide)).trans (h.same .line (by decide))
  obtain ⟨hengine, hrest, hreport⟩ := readyReport_outcome (s := s) (u := lineDone source serial a b u) (source := source)
    (b := Notice.lineDone serial a b) (by rw [lineDone_engine, hq])
    ((hdone.same .options (by decide)).trans (h.same .options (by decide))) hline
    (by rw [lineDone_port, if_pos rfl, h.ports source (by decide)])
  refine ⟨hengine.trans (by rw [lineDone_engine]), hrest, hreport, ?_, fun hp => ?_⟩
  · rw [endStep_printing_any]
    exact (lineDone_printing _ _ _ _ _).trans (by rw [h.same .spelling (by decide)])
  · rw [endStep_tones (by show (lineDone source serial a b u).line.phase ≠ _; rw [hline]; exact hp)]
    exact (lineDone_tones _ _ _ _ _).trans (by rw [h.same .options (by decide), h.same .tones (by decide)])

end Sys2Proof.Machine

/-! SUPPORT. The end of a Relocate (R124): Away ends, the Stroke Jobs of the reopened line leave, and the queue goes on. -/

namespace Sys2Proof.Machine

/-! ### The end of a Relocate (R124) -/

/-- R124: a Stroke Job of the reopened line. -/
def stale (s : State) (i : Job) : Bool := s.lift.away && i.kind == .stroke && i.serial == some s.line.serial

/-- R124: the jobs that leave. -/
def staleJobs (s : State) : List Job := s.engine.queue.filter (stale s)

/-- R124: the engine without them. -/
def withoutStale (s : State) : Engine :=
  { s.engine with
    queue := s.engine.queue.filter (!stale s ·)
    tally := if (staleJobs s).isEmpty then s.engine.tally else .clear }

/-- R124: the records are restored and the jobs that leave are reported. -/
def staleReported (s : State) : State :=
  (staleJobs s).foldl (fun u j => reportCancelled j u) { restore s with engine := withoutStale s }

/-- R124: Away has ended. -/
def awayEnded (s : State) : State := if s.lift.away then endAway (staleReported s) else restore s

/-- R124, R125: the Relocate is done with. -/
def relocateDone (s : State) : State := { s with lift := { s.lift with point := none, owed := false } }

section
variable {s : State} {x : Nat}

theorem endRelocate_eq (x : Nat) (s : State) : endRelocate x s = relocateDone
    (if consoleDirect (awayEnded s) then setPosition x (awayEnded s) else awayEnded s) := by
  have haway : awayEnded s = if s.lift.away then endAway ((s.engine.queue.filter fun j =>
      j.kind == .stroke && j.serial == some s.line.serial).foldl (fun u j => reportCancelled j u) { restore s with
        engine := { s.engine with
          queue := s.engine.queue.filter fun j => !(j.kind == .stroke && j.serial == some s.line.serial)
          tally := if (s.engine.queue.filter fun j => j.kind == .stroke && j.serial == some s.line.serial).isEmpty
            then s.engine.tally else .clear } }) else restore s := by
    unfold awayEnded
    split
    · rename_i h
      have hstale : stale s = fun j => j.kind == .stroke && j.serial == some s.line.serial := by
        funext j; unfold stale; rw [h, Bool.true_and]
      unfold staleReported withoutStale staleJobs
      rw [hstale]
    · rfl
  rw [haway]; rfl

theorem stale_home (h : s.lift.away = false) (i : Job) : stale s i = false := by unfold stale; rw [h]; rfl

theorem staleJobs_home (h : s.lift.away = false) : staleJobs s = [] :=
  List.filter_eq_nil_iff.2 fun i _ => by rw [stale_home h]; decide

theorem withoutStale_home (h : s.lift.away = false) : withoutStale s = s.engine := by
  unfold withoutStale
  rw [staleJobs_home h, List.filter_eq_self.2 fun i _ => by rw [stale_home h]; decide]; rfl

theorem awayEnded_home (h : s.lift.away = false) : awayEnded s = restore s := by
  unfold awayEnded; rw [if_neg (by rw [h]; decide)]

theorem awayEnded_away (h : s.lift.away = true) : awayEnded s = endAway (staleReported s) := if_pos h

theorem staleReported_kept : changesOnly [.console, .link, .line, .composer, .memory, .spelling]
    { restore s with engine := withoutStale s } (staleReported s) :=
  .foldl _ (fun t j => reportCancelled_frame j t) _ _

theorem awayEnded_frame (s : State) : changesOnly [.console, .link, .line, .composer, .engine, .memory, .lift, .spelling,
    .display] s (awayEnded s) := by
  unfold awayEnded; split
  · refine changesOnly.trans (changesOnly.trans ?_ (staleReported_kept.mono (by decide))) ((endAway_frame _).mono (by decide))
    intro q hq; cases q <;> first | exact absurd hq (by decide) | rfl
  · exact (restore_frame s).mono (by decide)

theorem awayEnded_engine (s : State) : (awayEnded s).engine = withoutStale s := by
  cases h : s.lift.away with
  | false => rw [awayEnded_home h, withoutStale_home h]; rfl
  | true =>
    rw [awayEnded_away h]
    exact ((endAway_frame _).same .engine (by decide)).trans (staleReported_kept.same .engine (by decide))

theorem awayEnded_lift_away (s : State) : (awayEnded s).lift.away = false := by
  cases h : s.lift.away with
  | false => rw [awayEnded_home h]; exact h
  | true => rw [awayEnded_away h]; rfl

theorem awayEnded_port (s : State) (p : Port) : (awayEnded s).port p = (s.port p).afterCancel p (staleJobs s) := by
  cases h : s.lift.away with
  | false => rw [awayEnded_home h, staleJobs_home h]; cases p <;> rfl
  | true =>
    rw [awayEnded_away h, (endAway_frame _).ports p (by decide)]
    unfold staleReported
    rw [reportCancelled_foldl_port]
    cases p <;> rfl

/-- With only Stroke Jobs among the jobs that leave, their reports change no record and no position. -/
theorem staleReported_plain (h : ∀ i ∈ staleJobs s, i.correction = none) : changesOnly [.console, .link, .spelling]
    { restore s with engine := withoutStale s } (staleReported s) := by
  have hfold : ∀ (l : List Job) (t : State), (∀ i ∈ l, i.correction = none) →
      changesOnly [.console, .link, .spelling] t (l.foldl (fun u j => reportCancelled j u) t) := by
    intro l
    induction l with
    | nil => exact fun t _ => .refl _ t
    | cons i l ih =>
      intro t hl
      have hreport : reportCancelled i t = lineCancelled i.source (i.serial.getD 0) i.struck t := by
        unfold reportCancelled; rw [hl i List.mem_cons_self]
      refine changesOnly.trans ?_ (ih (reportCancelled i t) fun k hk => hl k (List.mem_cons_of_mem _ hk))
      rw [hreport]; exact lineCancelled_frame _ _ _ _
  exact hfold _ _ h

theorem awayEnded_memory (h : ∀ i ∈ staleJobs s, i.correction = none) : (awayEnded s).memory = (restore s).memory := by
  cases ha : s.lift.away with
  | false => rw [awayEnded_home ha]
  | true =>
    rw [awayEnded_away ha]
    exact ((endAway_frame _).same .memory (by decide)).trans ((staleReported_plain h).same .memory (by decide))

theorem awayEnded_composer (ha : s.lift.away = true) (h : ∀ i ∈ staleJobs s, i.correction = none) :
    (awayEnded s).composer = { s.composer with lastHolder := some .console } := by
  rw [awayEnded_away ha]
  show { (staleReported s).composer with lastHolder := some Port.console } = _
  rw [(staleReported_plain h).same .composer (by decide)]; rfl

/-! ### What the whole of it leaves -/

/-- The compose position may be set last. -/
theorem endRelocate_frame_after (x : Nat) (s : State) :
    changesOnly [.line, .composer, .lift] (awayEnded s) (endRelocate x s) := by
  rw [endRelocate_eq]
  refine changesOnly.trans (changesOnly.ite (t := setPosition x (awayEnded s)) (c := consoleDirect (awayEnded s) = true)
    ((setPosition_frame _ _).mono (by decide)) (.refl _ _)) ?_
  intro q hq; cases q <;> first | exact absurd hq (by decide) | rfl

theorem endRelocate_engine (x : Nat) (s : State) : (endRelocate x s).engine = withoutStale s :=
  ((endRelocate_frame_after x s).same .engine (by decide)).trans (awayEnded_engine s)

theorem endRelocate_port (x : Nat) (s : State) (p : Port) : (endRelocate x s).port p = (s.port p).afterCancel p (staleJobs s) :=
  ((endRelocate_frame_after x s).ports p (by decide)).trans (awayEnded_port s p)

theorem endRelocate_lift (x : Nat) (s : State) : (endRelocate x s).lift.away = false ∧ (endRelocate x s).lift.point = none
    ∧ (endRelocate x s).lift.owed = false := by
  rw [endRelocate_eq]
  refine ⟨?_, rfl, rfl⟩
  show (if consoleDirect (awayEnded s) then setPosition x (awayEnded s) else awayEnded s).lift.away = false
  split
  · exact awayEnded_lift_away s
  · exact awayEnded_lift_away s

theorem endRelocate_line (x : Nat) (s : State) : ∃ cursor,
    (endRelocate x s).line = { (awayEnded s).line with cursor := cursor } := by
  rw [endRelocate_eq]
  show ∃ cursor, (if consoleDirect (awayEnded s) then setPosition x (awayEnded s) else awayEnded s).line = _
  split
  · show ∃ cursor, (if (awayEnded s).line.isDirect then _ else (awayEnded s).line) = _
    split <;> exact ⟨_, rfl⟩
  · exact ⟨_, rfl⟩

/-- A line that is not in Checking does not come to it. -/
theorem endRelocate_phase (x : Nat) (h : s.line.phase ≠ .checking) : (endRelocate x s).line.phase ≠ .checking := by
  obtain ⟨cursor, hcursor⟩ := endRelocate_line x s
  rw [hcursor]
  show (awayEnded s).line.phase ≠ .checking
  cases ha : s.lift.away with
  | false => rw [awayEnded_home ha]; exact h
  | true => rw [awayEnded_away ha]; show Phase.free ≠ .checking; decide

theorem endRelocate_composer (x : Nat) (s : State) : (endRelocate x s).composer =
    { (awayEnded s).composer with
      position := if consoleDirect (awayEnded s) then x else (awayEnded s).composer.position } := by
  rw [endRelocate_eq]
  show (if consoleDirect (awayEnded s) then setPosition x (awayEnded s) else awayEnded s).composer = _
  split <;> rfl

/-- R124: after Away the line is Free. -/
theorem endRelocate_line_away (ha : s.lift.away = true) : (endRelocate x s).line = .free := by
  have hfree : (awayEnded s).line = .free := by rw [awayEnded_away ha]; rfl
  rw [endRelocate_eq]
  show (if consoleDirect (awayEnded s) then setPosition x (awayEnded s) else awayEnded s).line = _
  split
  · exact setPosition_line_free hfree
  · exact hfree

/-- At home the line keeps its cells and its holder, and the compose position moves when the console composes there. -/
theorem endRelocate_home (ha : s.lift.away = false) : (endRelocate x s).line.cells = s.line.cells
    ∧ (endRelocate x s).line.holder = s.line.holder ∧ (endRelocate x s).composer = { s.composer with
      position := if (s.line.holder = some .console ∧ s.line.mode = .direct)
          ∨ (s.line.phase = .free ∧ s.options.entryMode = .direct) then x else s.composer.position } := by
  obtain ⟨cursor, hcursor⟩ := endRelocate_line x s
  have hdirect : consoleDirect (restore s) = true ↔ _ := consoleDirect_iff
  rw [hcursor, endRelocate_composer, awayEnded_home ha]
  exact ⟨rfl, rfl, by rw [if_congr hdirect rfl rfl]; rfl⟩

theorem endRelocate_composer_away (ha : s.lift.away = true) (h : ∀ i ∈ staleJobs s, i.correction = none) :
    (endRelocate x s).composer = { s.composer with
      lastHolder := some .console
      position := if s.options.entryMode = .direct then x else s.composer.position } := by
  have hfree : (awayEnded s).line = .free := by rw [awayEnded_away ha]; rfl
  have hdirect : consoleDirect (awayEnded s) = true ↔ s.options.entryMode = .direct := by
    rw [consoleDirect_iff, hfree, (awayEnded_frame s).same .options (by decide)]
    exact ⟨fun h => h.elim (fun h => by cases h.1) fun h => h.2, fun h => .inr ⟨rfl, h⟩⟩
  rw [endRelocate_composer, awayEnded_composer ha h]
  dsimp only
  rw [if_congr hdirect rfl rfl]

end

/-! ### A Relocate job whose last Feed has completed -/

theorem completeHead_relocate {s : State} {j head : Job} {rest : List Job} (hq : s.engine.queue = head :: rest)
    (hk : j.kind = .motion) (hr : j.relocate = true) : completeHead j s = endRelocate (moveTarget j)
      (lineDone j.source 0 0 0 { s with engine := { s.engine with queue := rest } }) := by
  unfold completeHead; rw [hk, popHead_cons hq]
  dsimp only
  rw [if_pos hr]
  exact appendOwed_none (endRelocate_lift _ _).2.2

theorem orderDone_relocate {s : State} {j : Job} {rest : List Job} (hq : s.engine.queue = j :: rest)
    (hk : j.kind = .motion) (hr : j.relocate = true) (hs : j.started = true) (hc : j.cancelled = false)
    (ho : j.orders[j.next + 1]? = none) : ∃ fuel, orderDone s = runQueue (fuel + 63) (endRelocate (moveTarget j)
      (lineDone j.source 0 0 0 { s with engine := { s.engine with queue := rest } })) := by
  obtain ⟨fuel, hfuel⟩ := goOn_fuel (steppedOn j rest s)
  refine ⟨fuel, ?_⟩
  rw [orderDone_goesOn hq hc, hfuel, show fuel + 64 = fuel + 63 + 1 from rfl,
    runQueue_ended (s := steppedOn j rest s) rfl hs ho,
    completeHead_relocate (j := { j with next := j.next + 1 }) (s := steppedOn j rest s) rfl hk hr]
  rfl

/-- The Relocate job has left the queue and is reported. -/
def relocateReported (n : Int) (rest : List Job) (s : State) : State :=
  lineDone .console 0 0 0 { fedLow n s with engine := { (fedLow n s).engine with queue := rest } }

section
variable (n : Int) (rest : List Job) (s : State)

theorem relocateReported_frame :
    changesOnly [.console, .engine, .memory, .spelling, .tones] s (relocateReported n rest s) := by
  have h : changesOnly [.engine, .memory] s { fedLow n s with engine := { (fedLow n s).engine with queue := rest } } := by
    intro q hq; cases q <;> first | exact absurd hq (by decide) | rfl
  exact (h.mono (by decide)).trans ((lineDone_frame_of _ _ _ _ _).mono (by decide))

theorem relocateReported_engine :
    (relocateReported n rest s).engine = { (fedLow n s).engine with queue := rest } := lineDone_engine _ _ _ _ _

theorem relocateReported_memory : (relocateReported n rest s).memory = s.memory.fed := lineDone_memory _ _ _ _ _

theorem relocateReported_console :
    (relocateReported n rest s).console = s.console.notice (Notice.lineDone 0 0 0) :=
  lineDone_port .console 0 0 0 _ .console

theorem relocateReported_stale : stale (relocateReported n rest s) = stale s := by
  have h := relocateReported_frame n rest s
  funext i
  unfold stale
  rw [h.same .lift (by decide), h.same .line (by decide)]

theorem relocateReported_staleJobs : staleJobs (relocateReported n rest s) = rest.filter (stale s) := by
  unfold staleJobs; rw [relocateReported_stale, relocateReported_engine]

theorem relocateReported_withoutStale : withoutStale (relocateReported n rest s) = { s.engine with
    platen := s.engine.fedTo n, platenMove := none, queue := rest.filter (!stale s ·)
    tally := if (rest.filter (stale s)).isEmpty then s.engine.tally else .clear } := by
  unfold withoutStale
  rw [relocateReported_staleJobs, relocateReported_stale, relocateReported_engine]; rfl

/-- R106, R124: the records are as they were before Away. -/
theorem relocateReported_restored : (restore (relocateReported n rest s)).memory =
    { s.memory with openRecord := s.memory.returnRecord, resumeRecord := none, returnRecord := none } := by
  show { (relocateReported n rest s).memory with
    openRecord := (relocateReported n rest s).memory.returnRecord, returnRecord := none, resumeRecord := none } = _
  rw [relocateReported_memory, CorrectionMemory.fed_eq]

end

/-- The Relocate has ended. -/
def relocated (n : Int) (x : Nat) (rest : List Job) (s : State) : State := endRelocate x (relocateReported n rest s)

section
variable (n : Int) (x : Nat) (rest : List Job) (s : State)

theorem platenStopped_relocate {s : State} {j : Job} {n : Int} {x : Nat} {rest : List Job}
    (hm : s.engine.platenMove = some (.feed n)) (hq : s.engine.queue = j :: rest) (hk : j.kind = .motion)
    (hr : j.relocate = true) (hsrc : j.source = .console) (hs : j.started = true) (hc : j.cancelled = false)
    (hnext : j.next = 1) (hord : j.orders = [.move x, .feed n])
    (hlow : max (-64) (min 8191 (s.engine.platen + n)) ≤ s.engine.pageLines) :
    ∃ fuel, platenStopped s = endStep (runQueue (fuel + 3) (relocated n x rest s)) := by
  obtain ⟨fuel, hdone⟩ := orderDone_relocate (s := fedLow n s) hq hk hr hs hc (by rw [hord, hnext]; rfl)
  have hto : moveTarget j = x := by unfold moveTarget; rw [hord]
  rw [hto, hsrc] at hdone
  exact ⟨fuel + 60, (platenStopped_low hm hq hlow).trans (congrArg endStep hdone)⟩

theorem relocated_engine : (relocated n x rest s).engine = { s.engine with
    platen := s.engine.fedTo n, platenMove := none, queue := rest.filter (!stale s ·)
    tally := if (rest.filter (stale s)).isEmpty then s.engine.tally else .clear } :=
  (endRelocate_engine _ _).trans (relocateReported_withoutStale n rest s)

theorem relocated_lift : (relocated n x rest s).lift.away = false ∧ (relocated n x rest s).lift.point = none
    ∧ (relocated n x rest s).lift.owed = false := endRelocate_lift _ _

theorem relocated_options : (relocated n x rest s).options = s.options :=
  ((endRelocate_frame _ _).same .options (by decide)).trans ((relocateReported_frame n rest s).same .options (by decide))

theorem relocated_format : (relocated n x rest s).format = s.format :=
  ((endRelocate_frame _ _).same .format (by decide)).trans ((relocateReported_frame n rest s).same .format (by decide))

theorem relocated_port (p : Port) : (relocated n x rest s).port p =
    ((relocateReported n rest s).port p).afterCancel p (rest.filter (stale s)) := by
  unfold relocated; rw [endRelocate_port, relocateReported_staleJobs]

theorem relocated_console : (relocated n x rest s).console =
    (s.console.notice (Notice.lineDone 0 0 0)).afterCancel .console (rest.filter (stale s)) := by
  rw [← relocateReported_console n rest s]; exact relocated_port n x rest s .console

theorem relocated_link : (relocated n x rest s).link = s.link.afterCancel .link (rest.filter (stale s)) := by
  rw [← (relocateReported_frame n rest s).same .link (by decide)]; exact relocated_port n x rest s .link

theorem relocated_memory (h : ∀ i ∈ rest.filter (stale s), i.correction = none) : (relocated n x rest s).memory =
    { s.memory with openRecord := s.memory.returnRecord, resumeRecord := none, returnRecord := none } := by
  unfold relocated
  rw [(endRelocate_frame_after _ _).same .memory (by decide),
    awayEnded_memory (by rw [relocateReported_staleJobs]; exact h), relocateReported_restored]

theorem relocated_phase (h : s.line.phase ≠ .checking) : (relocated n x rest s).line.phase ≠ .checking :=
  endRelocate_phase x (by rw [(relocateReported_frame n rest s).same .line (by decide)]; exact h)

section
variable {n x rest s} (ha : s.lift.away = true)
include ha

theorem relocated_line_away : (relocated n x rest s).line = .free :=
  endRelocate_line_away (by rw [(relocateReported_frame n rest s).same .lift (by decide)]; exact ha)

theorem relocated_composer_away (h : ∀ i ∈ rest.filter (stale s), i.correction = none) : (relocated n x rest s).composer =
    { s.composer with
      lastHolder := some .console
      position := if s.options.entryMode = .direct then x else s.composer.position } := by
  have hr := relocateReported_frame n rest s
  unfold relocated
  rw [endRelocate_composer_away (by rw [hr.same .lift (by decide)]; exact ha) (by rw [relocateReported_staleJobs]; exact h),
    hr.same .composer (by decide), hr.same .options (by decide)]

end

theorem relocated_home {n : Int} {x : Nat} {rest : List Job} {s : State} (ha : s.lift.away = false) :
    (relocated n x rest s).line.cells = s.line.cells ∧ (relocated n x rest s).line.holder = s.line.holder
    ∧ (relocated n x rest s).composer = { s.composer with
      position := if (s.line.holder = some .console ∧ s.line.mode = .direct)
          ∨ (s.line.phase = .free ∧ s.options.entryMode = .direct) then x else s.composer.position } := by
  have hr := relocateReported_frame n rest s
  have h := endRelocate_home (x := x) (s := relocateReported n rest s) (by rw [hr.same .lift (by decide)]; exact ha)
  rw [hr.same .line (by decide), hr.same .composer (by decide), hr.same .options (by decide)] at h
  exact h

end

/-- R67: a job that is no Correction job starts with its orders, a Relocate job too when there is no Relocate Point. -/
theorem startHead_plain {i : Job} {behind rest : List Job} {s : State} (hq : s.engine.queue = i :: rest)
    (hc : i.correction = none) (hp : i.relocate = true → s.lift.point = none) : startHead i behind s = { s with
      engine := { s.engine with queue := { i with started := true } :: rest, state := .working }, restTimer := none } := by
  have hstart : startWith id s = { s with
      engine := { s.engine with queue := { i with started := true } :: rest, state := .working }, restTimer := none } := by
    unfold startWith; rw [setHead_cons hq]; rfl
  have hhead : startHead i behind s = startWith id s := by
    unfold startHead; rw [hc]; dsimp only
    cases hr : i.relocate with
    | false => rfl
    | true => simp only [hp hr, ite_self]
  exact hhead.trans hstart

/-! ### The platen has stopped -/

/-- A notice at the port that a job came from. -/
theorem noticed_at {s t : State} {p q : Port} {b : Block} (h : q = p) (e : t.port q = (s.port q).notice b) :
    t.port p = (s.port p).notice b := h ▸ e

/-- Settles O54: what the platen's stop completes, and what the next order, the end of the job or the end of Away makes
of it. -/
theorem platenStoppedMovesThePage : Obligations.PlatenStoppedMovesThePage := by
  unfold Obligations.PlatenStoppedMovesThePage
  refine ⟨fun n j rest k s hm hs hq hcan hj hn hr => ?strike, fun j s hm hq hk hord hnext hj hcan hrel hw => ?eject,
    fun n j c s hm hq hk hc hj hcan hlen hw hlow => ?correction,
    fun n x j s hm hq hk hrel hsrc hj hcan hnext hord hlow => ?relocate,
    fun n j rest o s hm hs hq hcan hj hn hr => ?next, fun n j s hm hs hq hcan hj hn hw hk hlow => ?ended,
    fun n x j rest s hm hs hq hk hrel hsrc hj hcan hnext hord hlow => ?behind⟩
  case strike =>
    have hq' : (platenRested s).engine.queue = j :: rest := hq
    have hfed := completeFeed_fed (n := n) hq'
    have he : (completeFeed n (platenRested s)).engine = (fed n (platenRested s)).engine := hfed.same .engine (by decide)
    have hmemory : (completeFeed n (platenRested s)).memory = s.memory.fed := hfed.same .memory (by decide)
    obtain ⟨e, rt, hdone, -, -, hqueue, hstate, hplaten, hlines, -, hmove, hrt⟩ := orderDone_strikeNext
      (s := completeFeed n (platenRested s)) (k := k) (by rw [he]; exact hq) hcan hj hn
    have hribbon : (completeFeed n (platenRested s)).engine.ribbon = s.engine.ribbon := by rw [he]; rfl
    rw [hrt (by rw [hribbon]; exact hr)] at hdone
    refine ⟨_, congrArg Host.Outcome.next (platenStopped_feed hm), ?_⟩
    rw [hdone]
    refine ⟨?_, ?_, ?_, ?_, ?_, fun name h => ?_, fun h => ?_, ?_⟩
    · rw [endStep_engine]; exact hplaten.trans (by rw [he]; rfl)
    · rw [endStep_engine]; exact hlines.trans (by rw [he]; rfl)
    · rw [endStep_engine]; exact hqueue
    · rw [endStep_engine]
      refine hstate.trans ?_
      rw [hribbon, if_neg hr.ne', he]; exact hs
    · rw [endStep_engine]; exact hmove.trans (by rw [he]; rfl)
    · rw [endStep_memory]; exact hmemory.trans (CorrectionMemory.fed_some h)
    · rw [endStep_memory]; exact hmemory.trans (CorrectionMemory.fed_none h)
    · refine eventFrame_of (changesOnly.trans ?_ ((engine_frame (completeFeed n (platenRested s)) e).mono (by decide)))
        (by decide) (by decide) (by decide) (by decide) (by decide)
      exact (((engine_frame s _).mono (by decide)).trans ((fed_frame n (platenRested s)).mono (by decide))).trans
        (hfed.mono (by decide))
  case eject =>
    have hframe : changesOnly [.memory, .spelling, .lift] (ejected s) (completeEject (platenRested s)) := emptyMemory_frame _
    have hcompleted : changesOnly [.memory, .spelling, .lift, .engine] s (completeEject (platenRested s)) :=
      ((engine_frame s _).mono (by decide)).trans (hframe.mono (by decide))
    have he : (completeEject (platenRested s)).engine = (ejected s).engine := hframe.same .engine (by decide)
    have hlift : (completeEject (platenRested s)).lift = { s.lift with point := none } := emptyMemory_lift _
    have hport (p : Port) : (completeEject (platenRested s)).port p = s.port p := hcompleted.ports p (by decide)
    refine ⟨_, congrArg Host.Outcome.next (platenStopped_eject hm), ?_⟩
    rw [orderDone_motion (s := completeEject (platenRested s)) (j := j) (by rw [he]; exact hq) (by rw [hlift]; exact hw)
      hcan hj (by rw [hord, hnext]; rfl) hk hrel]
    generalize hu : completeEject (platenRested s) = u at hcompleted he hlift hport
    have hdone := lineDone_frame_of j.source 0 0 0 { u with engine := { u.engine with queue := [] } }
    have hall : changesOnly [.ofPort j.source, .engine, .memory, .lift, .spelling, .tones] s
        (lineDone j.source 0 0 0 { u with engine := { u.engine with queue := [] } }) :=
      ((hcompleted.mono (by cases j.source <;> decide)).trans ((engine_frame u _).mono (by cases j.source <;> decide))).trans
        (hdone.mono (by cases j.source <;> decide))
    obtain ⟨hengine, hrest, hreport⟩ := readyReport_outcome (s := s) (source := j.source) (b := Notice.lineDone 0 0 0)
      (u := lineDone j.source 0 0 0 { u with engine := { u.engine with queue := [] } }) (by rw [lineDone_engine])
      (hall.same .options (by cases j.source <;> decide)) (hall.same .line (by cases j.source <;> decide)) (by
        rw [lineDone_port, if_pos rfl, ← hport j.source]; cases j.source <;> rfl)
    refine ⟨hengine.trans ?_, ?_, ?_, hrest, fun h => ?_, fun h hp => ?_, ?_⟩
    · rw [lineDone_engine, he]; rfl
    · rw [endStep_memory]
      refine (lineDone_memory _ _ _ _ _).trans ?_
      rw [← hu]; exact emptyMemory_memory _
    · rw [endStep_lift]; exact (lineDone_lift _ _ _ _ _).trans hlift
    · exact noticed_at h (hreport (.inl h))
    · exact noticed_at h (hreport (.inr hp))
    · refine changesOnly.trans (changesOnly.trans (hall.mono (by cases j.source <;> decide))
        ((enterReady_frame _).mono (by cases j.source <;> decide))) ((endStep_frame _).mono (by cases j.source <;> decide))
  case correction =>
    refine ⟨_, congrArg Host.Outcome.next (platenStopped_low hm hq hlow), ?_⟩
    rw [orderDone_correction (s := fedLow n s) hq hw hcan hj (List.getElem?_eq_none hlen.le) hk hc]
    have hkept : changesOnly [.engine, .memory] s { fedLow n s with engine := { (fedLow n s).engine with queue := [] } } := by
      intro q hq; cases q <;> first | exact absurd hq (by decide) | rfl
    have hcomposing : consoleDirect { fedLow n s with engine := { (fedLow n s).engine with queue := [] } } = true ↔
        (s.line.holder = some .console ∧ s.line.mode = .direct)
          ∨ (s.line.phase = .free ∧ s.options.entryMode = .direct) := consoleDirect_iff
    have hmemory : ({ fedLow n s with engine := { (fedLow n s).engine with queue := [] } } : State).memory = s.memory.fed := rfl
    have hengine : ({ fedLow n s with engine := { (fedLow n s).engine with queue := [] } } : State).engine = { s.engine with
      platen := max (-64) (min 8191 (s.engine.platen + n)), platenMove := none, queue := [] } := rfl
    generalize ({ fedLow n s with engine := { (fedLow n s).engine with queue := [] } } : State) = v at *
    have hended : changesOnly [.console, .link, .line, .composer, .memory] v (endCorrection j.source c 0 v) :=
      endCorrection_frame _ _ _ _
    have hqueue : v.engine.queue.any (·.consoleStroke) = false := by rw [hengine]; rfl
    refine ⟨?_, ?_, fun h => ?_, fun x hx hcom hdir => ?_, fun h => ?_, fun h => ?_, fun name h1 h2 h3 => ?_, ?_⟩
    · rw [endStep_engine]
      show { (endCorrection j.source c 0 v).engine with state := .ready } = _
      rw [endCorrection_engine, hengine]
    · rw [endStep_restTimer]
      show (if (endCorrection j.source c 0 v).engine.queue.isEmpty then restLength (endCorrection j.source c 0 v).options
        else none) = _
      rw [endCorrection_engine, hengine, hended.same .options (by decide), hkept.same .options (by decide)]; rfl
    · obtain ⟨cursor, hcursor⟩ := endCorrection_line (source := j.source) (c := c) (outcome := 0) (s := v)
      have hphase : (enterReady (endCorrection j.source c 0 v)).line.phase = s.line.phase :=
        (congrArg WorkingLine.phase hcursor).trans (by rw [hkept.same .line (by decide)])
      rw [endStep_port_of (by rw [hphase]; exact h), (enterReady_frame _).ports j.source (by decide), endCorrection_port,
        if_pos rfl, hkept.ports j.source (by decide)]
    · rw [endStep_composer]
      exact (endCorrection_composer_set hx hcom (hcomposing.2 hdir) hqueue).trans (by rw [hkept.same .composer (by decide)])
    · rw [endStep_composer]
      refine (endCorrection_composer_kept ?_).trans (hkept.same .composer (by decide))
      rcases h with h | h | h | h
      · exact .inl h
      · exact .inr (.inl h)
      · exact .inr (.inr (.inl h))
      · exact .inr (.inr (.inr (.inl (Bool.eq_false_iff.2 (mt hcomposing.1 h)))))
    · rw [endStep_memory]
      have hm' : (endCorrection j.source c 0 v).memory = s.memory.fed := by
        rw [endCorrection_memory, reopenAfter_kept h, hmemory]
      exact ⟨fun name h => hm'.trans (CorrectionMemory.fed_some h), fun h => hm'.trans (CorrectionMemory.fed_none h)⟩
    · rw [endStep_memory]
      refine endCorrection_memory.trans ((reopenAfter_back h1 h2 ?_).trans ?_)
      · rw [hmemory, CorrectionMemory.fed_eq]; exact h3
      · rw [hmemory]
        cases ho : s.memory.openRecord with
        | none => rw [CorrectionMemory.fed_none ho]; simp only [ho]
        | some o => rw [CorrectionMemory.fed_some ho]
    · rw [endStep_lift]; exact (hended.same .lift (by decide)).trans (hkept.same .lift (by decide))
  case relocate =>
    obtain ⟨fuel, hstops⟩ := platenStopped_relocate hm hq hk hrel hsrc hj hcan hnext hord hlow
    have hengine : (relocated n x [] s).engine = { s.engine with
        platen := max (-64) (min 8191 (s.engine.platen + n)), platenMove := none, queue := [] } := relocated_engine n x [] s
    obtain ⟨haway, hpoint, howed⟩ := relocated_lift n x [] s
    have hnone : ∀ i ∈ ([] : List Job).filter (stale s), i.correction = none := by simp
    have hmemory := relocated_memory n x [] s hnone
    rw [runQueue_empty (n := fuel + 2) (congrArg Engine.queue hengine)] at hstops
    refine ⟨_, congrArg Host.Outcome.next hstops, ?_, ?_, ?_, ?_, ?_, fun hp => ?_, fun ha => ⟨?_, ?_⟩, fun ha => ?_⟩
    · rw [endStep_engine]
      show { (relocated n x [] s).engine with state := .ready } = _
      rw [hengine]
    · rw [endStep_memory]; exact hmemory
    · rw [endStep_lift]; exact haway
    · rw [endStep_lift]; exact hpoint
    · rw [endStep_lift]; exact howed
    · exact (endStep_port (s := enterReady (relocated n x [] s)) (relocated_phase n x [] s hp) .console).trans
        (relocated_console n x [] s)
    · have hfree : (enterReady (relocated n x [] s)).line = .free := relocated_line_away ha
      rw [endStep_line (by rw [hfree]; decide), hfree]
    · rw [endStep_composer]; exact relocated_composer_away (n := n) ha hnone
    · obtain ⟨hcells, hholder, hcomposer⟩ := relocated_home (n := n) (x := x) (rest := []) ha
      obtain ⟨words, joined, phase, hafter⟩ := endStep_line_words (enterReady (relocated n x [] s))
      refine ⟨?_, ?_, ?_⟩
      · rw [hafter]; exact hcells
      · rw [hafter]; exact hholder
      · rw [endStep_composer]; exact hcomposer
  case next =>
    intro p ends turned ht
    have hq' : (platenRested s).engine.queue = j :: rest := hq
    have hfed := completeFeed_fed (n := n) hq'
    have he : (completeFeed n (platenRested s)).engine = (fed n (platenRested s)).engine := hfed.same .engine (by decide)
    have hends : ends ↔ pageEnds n (platenRested s) = true := pageEnds_iff.symm
    have hturned : (steppedOn j rest (completeFeed n (platenRested s))).engine = turned := by
      unfold steppedOn
      rw [he]
      have hflag : decide ends = pageEnds n (platenRested s) := Bool.eq_iff_iff.2 (decide_eq_true_iff.trans hends)
      show _ = ({ s.engine with
        platen := p, pageLines := max s.engine.pageLines p, pageEnd := s.engine.pageEnd || decide ends,
        platenMove := none, queue := { j with next := j.next + 1 } :: rest } : Engine)
      rw [hflag]; rfl
    refine ⟨_, congrArg Host.Outcome.next (platenStopped_feed hm), ?_⟩
    rw [orderDone_begins (s := completeFeed n (platenRested s)) (j := j) (rest := rest) (by rw [he]; exact hq) hcan hj hn
      (by rw [he]; exact hr) (by
        rw [← ht]
        refine o.takesTime_congr ?_ ?_ ?_ ?_ ?_ (hfed.same .format (by decide)) <;> (rw [he]; rfl)), hturned]
    have hbegun (u : State) (e : Engine) : changesOnly [.engine] u { u with engine := e } := engine_frame u e
    have hrested : changesOnly [.engine, .memory] s (fed n (platenRested s)) :=
      ((engine_frame s _).mono (by decide)).trans (fed_frame n (platenRested s))
    refine ⟨endStep_engine _, fun h hp => ?_, fun h => ?_, fun h => ?_⟩
    · have hline : (completeFeed n (platenRested s)).line = s.line :=
        (hfed.same .line (by decide)).trans (hrested.same .line (by decide))
      rw [endStep_port_of (by show _ ∨ (completeFeed n (platenRested s)).line.phase ≠ _; rw [hline]; exact hp),
        (hbegun _ _).ports j.source (by decide), completeFeed_ends hq' (hends.1 h), State.notice_port_ite, if_pos rfl,
        hrested.ports j.source (by decide)]; rfl
    · have hnoticed : changesOnly [.engine, .memory, .ofPort j.source] s (completeFeed n (platenRested s)) := by
        rw [completeFeed_ends hq' (hends.1 h)]
        exact (hrested.mono (by cases j.source <;> decide)).trans
          ((State.notice_frame _ _ _).mono (by cases j.source <;> decide))
      exact eventFrame_of (hnoticed.trans ((hbegun _ _).mono (by cases j.source <;> decide))) (by cases j.source <;> decide)
        (by cases j.source <;> decide) (by cases j.source <;> decide) (by cases j.source <;> decide)
        (by cases j.source <;> decide)
    · rw [completeFeed_within hq' (Bool.eq_false_iff.2 (mt hends.2 h))]
      exact eventFrame_of (hrested.trans ((hbegun _ _).mono (by decide))) (by decide) (by decide) (by decide) (by decide)
        (by decide)
  case ended =>
    intro serial sums reports done
    have hlow' (e : Engine) : changesOnly [.engine, .memory] s { fedLow n s with engine := e } := by
      intro q hq; cases q <;> first | exact absurd hq (by decide) | rfl
    refine ⟨_, congrArg Host.Outcome.next (platenStopped_low hm hq hlow), ?_⟩
    have hcases : j.kind = .line ∨ (j.kind = .stroke ∧ j.lineEnding = true) ∨ (j.kind = .stroke ∧ j.lineEnding = false) := by
      rcases hk with hk | hk
      · exact .inl hk
      · cases hl : j.lineEnding
        · exact .inr (.inr ⟨hk, rfl⟩)
        · exact .inr (.inl ⟨hk, rfl⟩)
    rcases hcases with hk | ⟨hk, hl⟩ | ⟨hk, hl⟩
    · have hreports : reports := .inl hk
      rw [orderDone_line (s := fedLow n s) hq hw hcan hj hn hk]
      obtain ⟨hengine, hrest, hport, hprinting, htones⟩ := doneReport_outcome (source := j.source) (serial := serial)
        (a := j.struck) (b := j.dropped) (hlow' { (fedLow n s).engine with queue := [] }) rfl
      refine ⟨hengine.trans ?_, hrest, fun _ hp => (hport hp).trans ?_, fun _ => hprinting, fun hp => (htones hp).trans ?_,
        fun h => absurd hreports h⟩
      · rw [if_pos hk]; rfl
      · show _ = PortState.notice _ (if j.kind = .line then _ else _)
        rw [if_pos hk]
      · exact if_congr (by simp only [hreports, true_and]) rfl rfl
    · have hreports : reports := .inr hl
      have hline : j.kind ≠ .line := by rw [hk]; decide
      rw [orderDone_lineEnding (s := fedLow n s) hq hw hcan hj hn hk hl]
      obtain ⟨hengine, hrest, hport, hprinting, htones⟩ := doneReport_outcome (source := j.source) (serial := serial)
        (a := sums.struck) (b := sums.dropped) (hlow' { (fedLow n s).engine with queue := [], tally := .clear }) rfl
      refine ⟨hengine.trans ?_, hrest, fun _ hp => (hport hp).trans ?_, fun _ => hprinting, fun hp => (htones hp).trans ?_,
        fun h => absurd hreports h⟩
      · rw [if_neg hline, if_pos hl]; rfl
      · show _ = PortState.notice _ (if j.kind = .line then _ else _)
        rw [if_neg hline]
      · exact if_congr (by simp only [hreports, true_and]) rfl rfl
    · have hreports : ¬ reports := by
        rintro (h | h)
        · rw [hk] at h; cases h
        · rw [hl] at h; cases h
      have hline : j.kind ≠ .line := by rw [hk]; decide
      rw [orderDone_stroke (s := fedLow n s) hq hw hcan hj hn hk hl]
      have hready : changesOnly [.engine, .memory, .restTimer] s (enterReady { fedLow n s with engine := { (fedLow n s).engine with
          queue := [], tally := (fedLow n s).engine.tally.adding (j.serial.getD 0) j } }) :=
        ((hlow' _).mono (by decide)).trans ((enterReady_frame _).mono (by decide))
      refine ⟨?_, ?_, fun h => absurd h hreports, fun h => absurd h hreports, fun hp => ?_, fun _ => ?_⟩
      · rw [endStep_engine, if_neg hline, if_neg (by rw [hl]; decide)]; rfl
      · rw [endStep_restTimer]; rfl
      · rw [if_neg fun h => hreports h.1, endStep_tones (by rw [hready.same .line (by decide)]; exact hp),
          hready.same .tones (by decide)]
      · exact eventFrame_of hready (by decide) (by decide) (by decide) (by decide) (by decide)
  case behind =>
    intro leaves gone left turned settled
    obtain ⟨fuel, hstops⟩ := platenStopped_relocate hm hq hk hrel hsrc hj hcan hnext hord hlow
    have hengine : (relocated n x rest s).engine = turned := relocated_engine n x rest s
    obtain ⟨haway, hpoint, howed⟩ := relocated_lift n x rest s
    have hsettled {u : State} (h : changesOnly [.engine, .restTimer] (relocated n x rest s) u) : settled (endStep u) := by
      have hfree (ha : s.lift.away = true) : u.line = .free :=
        (h.same .line (by decide)).trans (relocated_line_away ha)
      have hphase (hp : s.line.phase ≠ .checking) : u.line.phase ≠ .checking := by
        rw [h.same .line (by decide)]; exact relocated_phase n x rest s hp
      have hul : u.lift = (relocated n x rest s).lift := h.same .lift (by decide)
      refine ⟨?_, ?_, ?_, fun ha => ?_, fun hg => ⟨?_, fun ha => ?_⟩, fun hp => ⟨?_, ?_⟩⟩
      · rw [endStep_lift, hul]; exact haway
      · rw [endStep_lift, hul]; exact hpoint
      · rw [endStep_lift, hul]; exact howed
      · rw [endStep_line (by rw [hfree ha]; decide), hfree ha]
      · rw [endStep_memory, h.same .memory (by decide)]; exact relocated_memory n x rest s hg
      · rw [endStep_composer, h.same .composer (by decide)]; exact relocated_composer_away ha hg
      · exact (endStep_port (hphase hp) .console).trans ((h.same .console (by decide)).trans (relocated_console n x rest s))
      · exact (endStep_link u).trans ((h.same .link (by decide)).trans (relocated_link n x rest s))
    have hoptions := relocated_options n x rest s
    have hformat := relocated_format n x rest s
    generalize relocated n x rest s = w at *
    refine ⟨_, congrArg Host.Outcome.next hstops, fun hleft => ?_, fun i hi hns hcor hr => ?_,
      fun i hi hns hcor hr o ho ht => ?_⟩
    · have hempty : w.engine.queue = [] := by rw [hengine]; exact hleft
      rw [runQueue_empty (n := fuel + 2) hempty]
      refine ⟨?_, ?_, hsettled (enterReady_frame _)⟩
      · rw [endStep_engine]
        show { w.engine with state := .ready } = _
        rw [hengine]
      · rw [endStep_restTimer]
        show (if w.engine.queue.isEmpty then restLength w.options else none) = _
        rw [hempty, hoptions]; rfl
    · obtain ⟨tail, hleft⟩ := List.head?_eq_some_iff.1 hi
      have hqueue : w.engine.queue = i :: tail := by rw [hengine]; exact hleft
      rw [runQueue_waits (n := fuel + 2) hqueue hns hcor (by rw [hengine]; exact hr)]
      refine ⟨?_, endStep_restTimer _, hsettled (enterSupplyOut_frame _)⟩
      rw [endStep_engine]
      show { w.engine with state := .supplyOut } = _
      rw [hengine]
    · obtain ⟨tail, hleft⟩ := List.head?_eq_some_iff.1 hi
      have hqueue : w.engine.queue = i :: tail := by rw [hengine]; exact hleft
      have hr' : 0 < w.engine.ribbon := by rw [hengine]; exact hr
      rw [runQueue_starts (n := fuel + 2) hqueue hns (.inr hr'),
        startHead_plain hqueue hcor fun _ => hpoint]
      rw [runQueue_begins (n := fuel + 1) (s := { w with
        engine := { w.engine with queue := { i with started := true } :: tail, state := .working }, restTimer := none })
        rfl rfl ho hr' (by
          rw [← ht]
          exact o.takesTime_congr (by rw [hengine]) (by rw [hengine]) (by rw [hengine]) (by rw [hengine]) (by rw [hengine]) hformat)]
      refine ⟨?_, endStep_restTimer _, hsettled (engineRest_frame _ _ _)⟩
      rw [endStep_engine]
      show orderBegun o { w.engine with queue := { i with started := true } :: tail, state := .working } = _
      rw [hengine, hleft]
      exact congrArg (fun st => orderBegun o { turned with queue := { i with started := true } :: tail, state := st }) hs.symm

end Sys2Proof.Machine

/-! SUPPORT. Cancel Printing (R90): what leaves the queue, what is reported, and what a removed Stroke Job takes along. -/

namespace Sys2Proof.Machine

/-! ### What the report of a removed job leaves -/

/-- The console composes a line of its own in Direct mode. -/
def composesDirect (s : State) : Prop := s.line.holder = some .console ∧ s.line.mode = .direct

theorem composesDirect.consoleDirect {s : State} (h : composesDirect s) : consoleDirect s = true :=
  consoleDirect_iff.2 (.inl h)

theorem reportCancelled_line (j : Job) (s : State) : ∃ cursor,
    (reportCancelled j s).line = { s.line with cursor := cursor } := by
  unfold reportCancelled
  split
  · exact endCorrection_line
  · exact ⟨_, (lineCancelled_frame _ _ _ _).same .line (by decide)⟩

theorem endCorrection_composer {source : Port} {c : Correction} {outcome : Nat} {s : State} : ∃ x,
    (endCorrection source c outcome s).composer = { s.composer with position := x } := by
  have hafter : (endCorrection source c outcome s).composer = (positionAfterLift c (liftDone source c outcome s)).composer :=
    (reopenAfter_frame _ _).same .composer (by decide)
  have hdone : (liftDone source c outcome s).composer = s.composer := liftDone_kept.same .composer (by decide)
  rw [hafter, ← hdone]
  unfold positionAfterLift
  split
  · exact ⟨_, rfl⟩
  · split <;> exact ⟨_, rfl⟩

theorem reportCancelled_composer (j : Job) (s : State) : ∃ x,
    (reportCancelled j s).composer = { s.composer with position := x } := by
  unfold reportCancelled
  split
  · exact endCorrection_composer
  · exact ⟨_, (lineCancelled_frame _ _ _ _).same .composer (by decide)⟩

/-- Jobs are reported, oldest first. -/
def reportedAll (gone : List Job) (s : State) : State := gone.foldl (fun t j => reportCancelled j t) s

theorem reportedAll_cons (j : Job) (gone : List Job) (s : State) :
    reportedAll (j :: gone) s = reportedAll gone (reportCancelled j s) := rfl

theorem reportedAll_frame (gone : List Job) (s : State) :
    changesOnly [.console, .link, .line, .composer, .memory, .spelling] s (reportedAll gone s) :=
  .foldl _ (fun t j => reportCancelled_frame j t) gone s

theorem reportedAll_line (gone : List Job) (s : State) : ∃ cursor,
    (reportedAll gone s).line = { s.line with cursor := cursor } := by
  induction gone generalizing s with
  | nil => exact ⟨_, rfl⟩
  | cons j gone ih =>
    obtain ⟨c1, h1⟩ := reportCancelled_line j s
    obtain ⟨c2, h2⟩ := ih (reportCancelled j s)
    exact ⟨c2, by rw [reportedAll_cons, h2, h1]⟩

theorem reportedAll_composer (gone : List Job) (s : State) : ∃ x,
    (reportedAll gone s).composer = { s.composer with position := x } := by
  induction gone generalizing s with
  | nil => exact ⟨_, rfl⟩
  | cons j gone ih =>
    obtain ⟨x1, h1⟩ := reportCancelled_composer j s
    obtain ⟨x2, h2⟩ := ih (reportCancelled j s)
    exact ⟨x2, by rw [reportedAll_cons, h2, h1]⟩

theorem reportedAll_port (gone : List Job) (s : State) (p : Port) :
    (reportedAll gone s).port p = (s.port p).afterCancel p gone := reportCancelled_foldl_port gone s p

/-- R119, R125: the leftmost lifted character of the only lift that leaves sets the compose position. -/
theorem reportedAll_lift {j : Job} {c : Correction} {x : Nat} (hj : j.correction = some c) (hx : c.leftmost = some x)
    (hc : c.command = .last ∨ c.command = .word ∨ c.command = .line) {gone : List Job}
    (hall : ∀ i ∈ gone, i = j ∨ i.correction = none) {s : State} (hd : composesDirect s)
    (hq : s.engine.queue.any (·.consoleStroke) = false)
    (h : j ∈ gone ∨ s.composer = { s.composer with position := x }) :
    (reportedAll gone s).composer = { s.composer with position := x } := by
  induction gone generalizing s with
  | nil => exact h.resolve_left (List.not_mem_nil)
  | cons i gone ih =>
    have hrest : ∀ k ∈ gone, k = j ∨ k.correction = none := fun k hk => hall k (List.mem_cons_of_mem _ hk)
    obtain ⟨cursor, hline⟩ := reportCancelled_line i s
    have hd' : composesDirect (reportCancelled i s) := by unfold composesDirect; rw [hline]; exact hd
    have hq' : (reportCancelled i s).engine.queue.any (·.consoleStroke) = false := by
      rw [(reportCancelled_frame i s).same .engine (by decide)]; exact hq
    obtain ⟨y, hy⟩ := reportCancelled_composer i s
    rw [reportedAll_cons]
    by_cases hi : i.correction = none
    · have hkept : (reportCancelled i s).composer = s.composer := by
        unfold reportCancelled; rw [hi]; exact (lineCancelled_frame _ _ _ _).same .composer (by decide)
      refine (ih hrest hd' hq' ?_).trans (by rw [hkept])
      rw [hkept]
      refine h.imp_left fun hmem => (List.mem_cons.1 hmem).resolve_left ?_
      rintro rfl
      rw [hj] at hi; cases hi
    · obtain rfl := (hall i List.mem_cons_self).resolve_right hi
      have hset : (reportCancelled i s).composer = { s.composer with position := x } := by
        unfold reportCancelled; rw [hj]; exact endCorrection_composer_set hx hc hd.consoleDirect hq
      refine (ih hrest hd' hq' (.inr ?_)).trans (by rw [hset])
      rw [hset]

/-! ### What a removed Stroke Job takes along -/

section
variable {removed : List Job} {s : State}

/-- R68, R90: a removed Stroke Job clears the Direct tally. -/
def tallyCleared (removed : List Job) (s : State) : State :=
  { s with engine := { s.engine with tally := if removed.any (·.kind == .stroke) then .clear else s.engine.tally } }

/-- R90: a removed Stroke Job of the line that the console holds in Direct mode. -/
def strokeOfLine (removed : List Job) (s : State) : Bool :=
  removed.any (fun j => j.kind == .stroke && j.serial == some s.line.serial)

/-- R90, R125: the line has been released, and taken again while Away. -/
def lineReleased (s : State) : State :=
  if s.lift.away then { discardLine s with line := awayLine s.line.serial } else discardLine s

theorem releaseCancelled_eq (removed : List Job) (s : State) : releaseCancelled removed s =
    if strokeOfLine removed s && s.line.holder == some .console && s.line.mode == .direct then
      setPosition s.engine.standing (lineReleased (tallyCleared removed s))
    else tallyCleared removed s := by
  have htally : (if removed.any (·.kind == .stroke) then { s with engine := { s.engine with tally := .clear } } else s)
      = tallyCleared removed s := by unfold tallyCleared; split <;> rfl
  unfold releaseCancelled
  rw [htally]; rfl

theorem releaseCancelled_kept (h : strokeOfLine removed s = false) : releaseCancelled removed s = tallyCleared removed s := by
  rw [releaseCancelled_eq, if_neg (by rw [h]; simp)]

theorem lineReleased_frame (s : State) : changesOnly [.line, .composer, .display, .spelling] s (lineReleased s) := by
  unfold lineReleased; split
  · refine (discardLine_frame s).trans ?_
    intro q hq; cases q <;> first | exact absurd hq (by decide) | rfl
  · exact discardLine_frame s

theorem releaseCancelled_after (removed : List Job) (s : State) :
    changesOnly [.line, .composer, .display, .spelling] (tallyCleared removed s) (releaseCancelled removed s) := by
  rw [releaseCancelled_eq]
  exact .ite ((lineReleased_frame _).trans ((setPosition_frame _ _).mono (by decide))) (.refl _ _)

theorem releaseCancelled_frame_of (removed : List Job) (s : State) :
    changesOnly [.line, .composer, .engine, .display, .spelling] s (releaseCancelled removed s) :=
  ((engine_frame s _).mono (by decide)).trans ((releaseCancelled_after removed s).mono (by decide))

theorem releaseCancelled_engine (removed : List Job) (s : State) : (releaseCancelled removed s).engine =
    { s.engine with tally := if removed.any (·.kind == .stroke) then .clear else s.engine.tally } :=
  (releaseCancelled_after removed s).same .engine (by decide)

/-- R90: the line goes, or while Away is taken again, with the compose position where the carrier will stand. -/
theorem releaseCancelled_direct (h : strokeOfLine removed s = true) (hd : composesDirect s) :
    (releaseCancelled removed s).line = (if s.lift.away then awayLine s.line.serial else .free)
      ∧ (releaseCancelled removed s).composer = { s.composer with
          lastHolder := some .console, position := s.engine.standing } := by
  obtain ⟨hh, hm⟩ := hd
  have heq : releaseCancelled removed s = setPosition s.engine.standing (lineReleased (tallyCleared removed s)) := by
    rw [releaseCancelled_eq, if_pos (by rw [h, hh, hm]; rfl)]
  have hcomposer : (lineReleased (tallyCleared removed s)).composer = { s.composer with lastHolder := some .console } := by
    unfold lineReleased
    split <;> exact discardLine_direct_composer (s := tallyCleared removed s) hh hm
  have hline : (lineReleased (tallyCleared removed s)).line
      = (if s.lift.away then awayLine s.line.serial else .free) := by
    unfold lineReleased
    by_cases ha : s.lift.away = true
    · rw [if_pos ha, if_pos (show (tallyCleared removed s).lift.away = true from ha)]; rfl
    · rw [if_neg ha, if_neg (show ¬ (tallyCleared removed s).lift.away = true from ha)]
      exact discardLine_direct_line (s := tallyCleared removed s) hh hm
  rw [heq]
  constructor
  · show (if (lineReleased (tallyCleared removed s)).line.isDirect then { (lineReleased (tallyCleared removed s)).line with
      cursor := directCursor (lineReleased (tallyCleared removed s)).line.cells s.engine.standing }
      else (lineReleased (tallyCleared removed s)).line) = _
    rw [hline]
    split <;> rfl
  · rw [setPosition_composer, hcomposer]

/-- A line that is not in Checking does not come to it. -/
theorem releaseCancelled_phase (h : s.line.phase ≠ .checking) : (releaseCancelled removed s).line.phase ≠ .checking := by
  by_cases hd : strokeOfLine removed s = true ∧ composesDirect s
  · rw [(releaseCancelled_direct hd.1 hd.2).1]
    split <;> nofun
  · have hkept : releaseCancelled removed s = tallyCleared removed s := by
      rw [releaseCancelled_eq, if_neg]
      intro hall
      simp only [Bool.and_eq_true, beq_iff_eq] at hall
      exact hd ⟨hall.1.1, hall.1.2, hall.2⟩
    rw [hkept]; exact h

end

/-! ### Cancel Printing (R90) -/

/-- R90: the jobs that a Cancel Printing from this port removes. -/
def cancels (p : Port) (j : Job) : Bool := (p == .console || j.source == .link) && !j.cancelled

/-- R90: what stays in the queue, a head job in flight marked (log entry 14). -/
def cancelLeft (p : Port) (e : Engine) : List Job :=
  match e.state, e.queue with
  | .working, j :: rest => (if cancels p j then { j with cancelled := true } else j) :: rest.filter (!cancels p ·)
  | _, all => all.filter (!cancels p ·)

/-- R90: what leaves at once. -/
def cancelGone (p : Port) (e : Engine) : List Job :=
  match e.state, e.queue with
  | .working, _ :: rest => rest.filter (cancels p)
  | _, all => all.filter (cancels p)

theorem cancelLeft_idle {p : Port} {e : Engine} (h : e.state ≠ .working) :
    cancelLeft p e = e.queue.filter (!cancels p ·) := by
  unfold cancelLeft; split
  · rename_i hs _; exact absurd hs h
  · rfl

theorem cancelLeft_working {p : Port} {e : Engine} {j : Job} {rest : List Job} (h : e.state = .working)
    (hq : e.queue = j :: rest) : cancelLeft p e =
      (if cancels p j then { j with cancelled := true } else j) :: rest.filter (!cancels p ·) := by
  unfold cancelLeft; rw [h, hq]

/-- The jobs are out of the queue. -/
def cancelStruck (p : Port) (s : State) : State :=
  { s with engine := { s.engine with queue := cancelLeft p s.engine } }

/-- The jobs have left and are reported, and what belongs to them is released. -/
def cancelReleased (p : Port) (s : State) : State :=
  releaseCancelled (s.engine.queue.filter (cancels p)) (reportedAll (cancelGone p s.engine) (cancelStruck p s))

theorem cancelJobs_eq (p : Port) (s : State) : cancelJobs p s =
    (appendOwed (cancelReleased p s), (s.engine.queue.filter (cancels p)).length) := by
  unfold cancelJobs cancelReleased cancelStruck cancelLeft cancelGone
  cases s.engine.state <;> cases s.engine.queue <;> rfl

section
variable (p : Port) (s : State)

theorem cancelStruck_frame : changesOnly [.engine] s (cancelStruck p s) := engine_frame s _

theorem cancelReported_frame : changesOnly [.console, .link, .line, .composer, .engine, .memory, .spelling] s
    (reportedAll (cancelGone p s.engine) (cancelStruck p s)) :=
  ((cancelStruck_frame p s).mono (by decide)).trans ((reportedAll_frame _ _).mono (by decide))

theorem cancelReported_engine : (reportedAll (cancelGone p s.engine) (cancelStruck p s)).engine =
    { s.engine with queue := cancelLeft p s.engine } := (reportedAll_frame _ _).same .engine (by decide)

theorem cancelReleased_frame : changesOnly [.console, .link, .line, .composer, .engine, .memory, .spelling, .display] s
    (cancelReleased p s) :=
  ((cancelReported_frame p s).mono (by decide)).trans ((releaseCancelled_frame_of _ _).mono (by decide))

theorem cancelReleased_engine : (cancelReleased p s).engine = { s.engine with
    queue := cancelLeft p s.engine
    tally := if (s.engine.queue.filter (cancels p)).any (·.kind == .stroke) then .clear else s.engine.tally } := by
  unfold cancelReleased
  rw [releaseCancelled_engine, cancelReported_engine]

theorem cancelReleased_port (q : Port) :
    (cancelReleased p s).port q = (s.port q).afterCancel q (cancelGone p s.engine) := by
  unfold cancelReleased
  rw [(releaseCancelled_frame_of _ _).ports q (by decide), reportedAll_port]
  cases q <;> rfl

theorem cancelReleased_phase (h : s.line.phase ≠ .checking) : (cancelReleased p s).line.phase ≠ .checking := by
  obtain ⟨cursor, hline⟩ := reportedAll_line (cancelGone p s.engine) (cancelStruck p s)
  exact releaseCancelled_phase (by rw [hline]; exact h)

/-- R90: a removed Stroke Job of the console's Direct-mode line releases it. -/
theorem cancelReleased_direct (hd : composesDirect s)
    (h : strokeOfLine (s.engine.queue.filter (cancels p)) s = true) :
    (cancelReleased p s).line = (if s.lift.away then awayLine s.line.serial else .free)
      ∧ (cancelReleased p s).composer = { s.composer with
          lastHolder := some .console, position := s.engine.standing } := by
  obtain ⟨cursor, hline⟩ := reportedAll_line (cancelGone p s.engine) (cancelStruck p s)
  obtain ⟨x, hcomposer⟩ := reportedAll_composer (cancelGone p s.engine) (cancelStruck p s)
  have hframe := cancelReported_frame p s
  obtain ⟨hl, hc⟩ := releaseCancelled_direct (removed := s.engine.queue.filter (cancels p))
    (s := reportedAll (cancelGone p s.engine) (cancelStruck p s)) (by unfold strokeOfLine; rw [hline]; exact h)
    (by unfold composesDirect; rw [hline]; exact hd)
  refine ⟨hl.trans ?_, hc.trans ?_⟩
  · rw [hframe.same .lift (by decide), hline]; rfl
  · rw [hcomposer, cancelReported_engine]; rfl

/-- R119, R125: the lift that leaves sets the compose position. -/
theorem cancelReleased_lift {j : Job} {c : Correction} {x : Nat} (hj : j ∈ cancelGone p s.engine)
    (hall : ∀ i ∈ cancelGone p s.engine, i = j ∨ i.correction = none) (hcor : j.correction = some c)
    (hx : c.leftmost = some x) (hc : c.command = .last ∨ c.command = .word ∨ c.command = .line) (hd : composesDirect s)
    (h : strokeOfLine (s.engine.queue.filter (cancels p)) s = false)
    (hq : (cancelLeft p s.engine).any (·.consoleStroke) = false) :
    (cancelReleased p s).composer = { s.composer with position := x } := by
  obtain ⟨cursor, hline⟩ := reportedAll_line (cancelGone p s.engine) (cancelStruck p s)
  unfold cancelReleased
  rw [releaseCancelled_kept (by unfold strokeOfLine; rw [hline]; exact h)]
  exact reportedAll_lift hcor hx hc hall (s := cancelStruck p s) hd hq (.inl hj)

end

/-! ### The Relocate that is owed (R125) -/

theorem appendJob_tally (j : Job) (s : State) : (appendJob j s).engine.tally = s.engine.tally := by
  unfold appendJob; dsimp only; split <;> rfl

section
variable {s : State}

theorem appendOwed_kept (h : s.lift.owed = false ∨ 4 ≤ s.engine.queue.length) : appendOwed s = s := by
  unfold appendOwed
  refine if_neg ?_
  rw [Bool.and_eq_true, Engine.room_iff]
  rintro ⟨howed, hroom⟩
  rcases h with h | h
  · rw [h] at howed; cases howed
  · exact absurd hroom (not_lt.2 h)

theorem appendOwed_joins (h : s.lift.owed = true) (hroom : s.engine.queue.length < 4) :
    appendOwed s = appendJob (relocateJob (relocateTarget s)) { s with lift := { s.lift with owed := false } } := by
  unfold appendOwed
  exact if_pos (by rw [h, (Engine.room_iff _).2 hroom]; rfl)

theorem appendOwed_tally : (appendOwed s).engine.tally = s.engine.tally := by
  unfold appendOwed; split
  · exact appendJob_tally _ _
  · rfl

end

/-- R68, R90, R125: the cancelled jobs have left; the Relocate that is owed has joined if there is room. -/
def cancelled (p : Port) (s : State) : State := appendOwed (cancelReleased p s)

/-! ### What a port keeps -/

/-- R174, R179: reports at a port do not depend on the block that has been taken there. -/
theorem PortState.reported_taken (report : Job → Block) (p : Port) (gone : List Job) (v : PortState) :
    ({ v with assembly := [], gap := none, inHand := true } : PortState).reported report p gone
      = { v.reported report p gone with assembly := [], gap := none, inHand := true } := by
  unfold PortState.reported
  induction gone.filter (·.source == p) generalizing v with
  | nil => rfl
  | cons j l ih => rw [List.foldl_cons, List.foldl_cons, PortState.notice_taken, ih]

@[simp] theorem PortState.reported_inHand (report : Job → Block) (v : PortState) (p : Port) (gone : List Job) :
    (v.reported report p gone).inHand = v.inHand := by
  unfold PortState.reported
  induction gone.filter (·.source == p) generalizing v with
  | nil => rfl
  | cons j l ih => rw [List.foldl_cons, ih, PortState.notice_inHand]

/-- The settling at the end of a step sends at most Line Held, which leaves the command in hand. -/
theorem settle_inHand (s : State) (p : Port) : ((settle s).port p).inHand = (s.port p).inHand := by
  have hhold (u : State) : ((holdTest u).port p).inHand = (u.port p).inHand := by
    unfold holdTest
    split
    · split
      · cases p
        · exact PortState.notice_inHand _ _
        · rfl
      · cases p <;> rfl
    · rfl
  have hfill : (fillFromQueries (fillFromChecking s)).port p = s.port p :=
    ((fillQueries_frame _ _ _).ports p (by decide)).trans ((fillFromChecking_frame s).ports p (by decide))
  unfold settle
  rw [(arbitrate_frame _).ports p (by decide), ← hfill]
  exact hhold _

/-! ### The command -/

/-- A command that is answered after the Spelling Unit and the arbiter have settled. -/
def settledReply (p : Port) (code : Byte) (r : Reply) (s : State) : State := finish ((settle s).reply p code r)

section
variable (p : Port) (code : Byte) (r : Reply) (s : State)

theorem settledReply_frame : changesOnly [.console, .link, .line, .tones, .spelling, .store, .display, .holdTimer] s
    (settledReply p code r s) :=
  (((settle_frame s).mono (by decide)).trans ((State.reply_frame _ _ _ _).mono (by cases p <;> decide))).trans
    ((finish_frame _).mono (by decide))

theorem settledReply_port : (settledReply p code r s).port p =
    { (settle s).port p with queue := ((settle s).port p).queue ++ [r.block code] } := by
  unfold settledReply
  rw [(finish_frame _).ports p (by decide)]
  cases p <;> rfl

theorem settledReply_other : (settledReply p code r s).port (Port.other p) = (settle s).port (Port.other p) := by
  unfold settledReply
  rw [(finish_frame _).ports _ (by decide)]
  cases p <;> rfl

theorem settledReply_line {s : State} (h : s.line.phase ≠ .checking) : (settledReply p code r s).line = s.line := by
  have hreply : ((settle s).reply p code r).line = (settle s).line :=
    (State.reply_frame _ _ _ _).same .line (by cases p <;> decide)
  exact ((finish_frame _).same .line (by decide)).trans (hreply.trans (settle_line h))

end

/-- The state that Cancel Printing leaves. -/
def printingCancelled (p : Port) (s : State) : State :=
  settledReply p 0x32 { status := .done, data := [byte (s.engine.queue.filter (cancels p)).length] } (cancelled p (taken p s))

theorem exec_cancelPrinting {p : Port} {s : State} (hf : portFree p s) :
    exec (.cancelPrinting p) s = .next (printingCancelled p s) := by
  have hcmd : cmdCancelPrinting p (taken p s) = (settle (cancelled p (taken p s)),
      { status := .done, data := [byte (s.engine.queue.filter (cancels p)).length] }) := by
    unfold cmdCancelPrinting
    rw [cancelJobs_eq, taken_engine]; rfl
  refine (runBlock_taken (code := 0x32) (count := 0) (owner := cmdCancelPrinting p) hf (by decide)
    (by cases p <;> rfl)).trans ?_
  rw [hcmd]; rfl

section
variable {p : Port} {s : State}

theorem cancelled_of_full (h : s.lift.owed = false ∨ 4 ≤ (cancelLeft p s.engine).length) :
    cancelled p s = cancelReleased p s := by
  refine appendOwed_kept ?_
  rw [(cancelReleased_frame p s).same .lift (by decide), cancelReleased_engine]
  exact h

theorem cancelled_frame (p : Port) (s : State) : changesOnly [.engine, .restTimer, .lift] (cancelReleased p s) (cancelled p s) :=
  appendOwed_frame _

theorem cancelled_phase (h : s.line.phase ≠ .checking) : (cancelled p s).line.phase ≠ .checking := by
  rw [(cancelled_frame p s).same .line (by decide)]; exact cancelReleased_phase p s h

theorem cancelled_port (q : Port) : (cancelled p s).port q = (s.port q).afterCancel q (cancelGone p s.engine) :=
  ((cancelled_frame p s).ports q (by decide)).trans (cancelReleased_port p s q)

/-- R174, R175: the reply stands last in the queue of the port. -/
theorem printingCancelled_reply : ((printingCancelled p s).port p).queue.getLast? = some (({ status := .done, data :=
    [BitVec.ofNat 8 (s.engine.queue.filter (cancels p)).length] } : Reply).block 0x32) := by
  unfold printingCancelled
  rw [settledReply_port]
  exact List.getLast?_concat

theorem printingCancelled_inHand : ((printingCancelled p s).port p).inHand = true := by
  unfold printingCancelled
  rw [settledReply_port]
  show ((settle _).port p).inHand = true
  rw [settle_inHand, cancelled_port]
  unfold PortState.afterCancel
  rw [PortState.reported_inHand, taken_port]

theorem printingCancelled_engine : (printingCancelled p s).engine = (cancelled p (taken p s)).engine :=
  (settledReply_frame _ _ _ _).same .engine (by decide)

theorem printingCancelled_lift : (printingCancelled p s).lift = (cancelled p (taken p s)).lift :=
  (settledReply_frame _ _ _ _).same .lift (by decide)

theorem printingCancelled_composer : (printingCancelled p s).composer = (cancelReleased p (taken p s)).composer :=
  ((settledReply_frame _ _ _ _).same .composer (by decide)).trans ((cancelled_frame _ _).same .composer (by decide))

/-- R179: with no line in Checking each port holds the reports of its jobs, and then the reply. -/
theorem printingCancelled_ports (h : s.line.phase ≠ .checking) :
    ((printingCancelled p s).port p).queue = ((s.port p).afterCancel p (cancelGone p s.engine)).queue
        ++ [({ status := .done, data := [BitVec.ofNat 8 (s.engine.queue.filter (cancels p)).length] } : Reply).block 0x32]
      ∧ (printingCancelled p s).port (Port.other p)
        = (s.port (Port.other p)).afterCancel (Port.other p) (cancelGone p s.engine) := by
  have hphase : (cancelled p (taken p s)).line.phase ≠ .checking := cancelled_phase (by rw [taken_line]; exact h)
  have hsettle (q : Port) : (settle (cancelled p (taken p s))).port q
      = ((taken p s).port q).afterCancel q (cancelGone p s.engine) := by
    rw [(settle_unheld hphase).ports q (by decide), cancelled_port, taken_engine]
  unfold printingCancelled
  constructor
  · rw [settledReply_port, hsettle, taken_port]
    dsimp only
    unfold PortState.afterCancel
    rw [PortState.reported_taken]; rfl
  · rw [settledReply_other, hsettle, taken_port_other]

end

/-- With no job marked yet, a job is cancelled for where it comes from alone. -/
theorem cancels_unmarked {p : Port} {j : Job} (h : j.cancelled = false) : cancels p j = (p == .console || j.source == .link) := by
  unfold cancels; rw [h, Bool.not_false, Bool.and_true]

/-- Settles O35: the jobs leave and are reported; what the reports and a removed Stroke Job change is told part by part. -/
theorem cancelPrintingRemovesJobs : Obligations.CancelPrintingRemovesJobs := by
  unfold Obligations.CancelPrintingRemovesJobs
  refine ⟨fun p s hf howed hnone => ?unmarked, fun p s hf => ?general⟩
  case unmarked =>
    have hmine : ∀ j ∈ s.engine.queue, cancels p j = (p == .console || j.source == .link) :=
      fun j hj => cancels_unmarked (hnone j hj)
    have hw : cancelled p (taken p s) = cancelReleased p (taken p s) :=
      cancelled_of_full (.inl (by rw [taken_lift]; exact howed))
    have hengine : (printingCancelled p s).engine = { s.engine with
        queue := cancelLeft p s.engine
        tally := if (s.engine.queue.filter (cancels p)).any (·.kind == .stroke) then .clear else s.engine.tally } := by
      rw [printingCancelled_engine, hw, cancelReleased_engine, taken_engine]
    refine ⟨_, exec_cancelPrinting hf, printingCancelled_inHand, ?_, fun hs => ?_, fun j rest hs hq => ?_, ?_, ?_, ?_, ?_⟩
    · rw [printingCancelled_reply, List.filter_congr hmine]
    · rw [hengine]
      refine (cancelLeft_idle hs).trans (List.filter_congr fun j hj => ?_)
      rw [hmine j hj]
    · have hj : cancels p j = (p == .console || j.source == .link) := hmine j (by rw [hq]; exact List.mem_cons_self)
      rw [hengine]
      refine (cancelLeft_working hs hq).trans (congrArg₂ List.cons ?_ (List.filter_congr fun i hi => ?_))
      · rw [hj]
        exact if_congr (by simp) rfl rfl
      · rw [hmine i (by rw [hq]; exact List.mem_cons_of_mem _ hi)]
    · rw [hengine]
    · rw [hengine]
    · rw [hengine]
    · unfold printingCancelled
      rw [hw]
      exact (((taken_frame p s).mono (by cases p <;> decide)).trans ((cancelReleased_frame _ _).mono (by decide))).trans
        ((settledReply_frame _ _ _ _).mono (by decide))
  case general =>
    intro mine removed left gone
    have hlift : (cancelReleased p (taken p s)).lift = s.lift :=
      ((cancelReleased_frame _ _).same .lift (by decide)).trans (taken_lift p s)
    have hengine : (cancelReleased p (taken p s)).engine = { s.engine with
        queue := left, tally := if removed.any (·.kind == .stroke) then .clear else s.engine.tally } := by
      have h := cancelReleased_engine p (taken p s)
      rw [taken_engine] at h
      exact h
    refine ⟨_, exec_cancelPrinting hf, printingCancelled_reply, fun h => ?_, fun howed hroom => ?_, fun hp _ => ?_, ?_,
      fun hh hm h => ?_, fun j hj hall c hc x hx hno hcom hh hm hq => ?_⟩
    · have hw : cancelled p (taken p s) = cancelReleased p (taken p s) :=
        cancelled_of_full (by rw [taken_lift, taken_engine]; exact h)
      exact ⟨by rw [printingCancelled_engine, hw, hengine], by rw [printingCancelled_lift, hw, hlift]⟩
    · have hw : cancelled p (taken p s) = appendJob (relocateJob (relocateTarget (cancelReleased p (taken p s))))
          { cancelReleased p (taken p s) with lift := { (cancelReleased p (taken p s)).lift with owed := false } } :=
        appendOwed_joins (by rw [hlift]; exact howed) (by rw [hengine]; exact hroom)
      have htarget : relocateTarget (cancelReleased p (taken p s))
          = match s.lift.point with | some q => q.1 | none => (printingCancelled p s).composer.position := by
        rw [printingCancelled_composer]
        unfold relocateTarget
        rw [hlift]
        cases s.lift.point <;> rfl
      constructor
      · rw [printingCancelled_lift, hw, (appendJob_frame _ _).same .lift (by decide)]
      · rw [printingCancelled_engine, hw]
        exact (appendJob_queue _ _).trans (congrArg₂ (· ++ [relocateJob ·]) (congrArg Engine.queue hengine) htarget)
    · exact printingCancelled_ports hp
    · rw [printingCancelled_engine]
      exact appendOwed_tally.trans (congrArg Engine.tally hengine)
    · obtain ⟨hl, hcomposer⟩ := cancelReleased_direct p (taken p s) (by unfold composesDirect; rw [taken_line]; exact ⟨hh, hm⟩)
        (by unfold strokeOfLine; rw [taken_line, taken_engine]; exact h)
      rw [taken_lift, taken_line] at hl
      rw [taken_composer, taken_engine] at hcomposer
      have hline : (cancelled p (taken p s)).line = (if s.lift.away then awayLine s.line.serial else .free) :=
        ((cancelled_frame _ _).same .line (by decide)).trans hl
      refine ⟨(settledReply_line _ _ _ ?_).trans hline, ?_⟩
      · rw [hline]; split <;> nofun
      · rw [printingCancelled_composer, hcomposer]; rfl
    · rw [printingCancelled_composer]
      refine (cancelReleased_lift p (taken p s) (j := j) (by rw [taken_engine]; exact hj) (by rw [taken_engine]; exact hall)
        hc hx hcom (by unfold composesDirect; rw [taken_line]; exact ⟨hh, hm⟩)
        (by unfold strokeOfLine; rw [taken_line, taken_engine]; exact hno) (by rw [taken_engine]; exact hq)).trans ?_
      rw [taken_composer]

end Sys2Proof.Machine

/-! SUPPORT. Homing (R79, R81, R82): the answers to a table request (R8), the table itself (R9), and what a wake finds. -/

namespace Sys2Proof.Machine

/-! ### How a homing ends (R82) -/

/-- R88: with no ribbon the engine is out of supply, else it is Ready. -/
def Engine.atRest (e : Engine) : EngineState := if e.ribbon = 0 then .supplyOut else .ready

section
variable (m : PetalMap) (announce : Bool) (s : State)

/-- The state once the engine stands at rest with its map. -/
def mapLoaded : State :=
  let u : State := { s with
    engine := { s.engine with petalMap := some m, homing := none, homingLimit := none }
    display := { s.display with live := true } }
  if u.engine.ribbon = 0 then enterSupplyOut u else enterReady u

theorem homingLoaded_eq : homingLoaded m announce s = relayLine
    (if announce then (mapLoaded m s).noticeBoth (Notice.wheelLoaded m.wheelId m.pitch.code) else mapLoaded m s) := rfl

theorem mapLoaded_frame : changesOnly [.engine, .display, .restTimer] s (mapLoaded m s) := by
  refine changesOnly.trans (t := { s with
    engine := { s.engine with petalMap := some m, homing := none, homingLimit := none }
    display := { s.display with live := true } }) ?_ ?_
  · intro q hq; cases q <;> first | exact absurd hq (by decide) | rfl
  · exact (changesOnly.ite (enterSupplyOut_frame _) (enterReady_frame _)).mono (by decide)

theorem mapLoaded_engine : (mapLoaded m s).engine = { s.engine with
    petalMap := some m, homing := none, homingLimit := none, state := s.engine.atRest } := by
  unfold mapLoaded Engine.atRest
  dsimp only
  split <;> rfl

theorem mapLoaded_live : (mapLoaded m s).display.live = true := by
  unfold mapLoaded
  dsimp only
  split <;> rfl

theorem homingLoaded_after : changesOnly [.console, .link, .line, .composer] (mapLoaded m s) (homingLoaded m announce s) := by
  rw [homingLoaded_eq]
  exact (changesOnly.ite (c := announce = true) ((State.noticeBoth_frame _ _).mono (by decide)) (.refl _ _)).trans
    ((relayLine_frame _).mono (by decide))

theorem homingLoaded_engine : (homingLoaded m announce s).engine = { s.engine with
    petalMap := some m, homing := none, homingLimit := none, state := s.engine.atRest } :=
  ((homingLoaded_after m announce s).same .engine (by decide)).trans (mapLoaded_engine m s)

theorem homingLoaded_live : (homingLoaded m announce s).display.live = true := by
  rw [(homingLoaded_after m announce s).same .display (by decide)]; exact mapLoaded_live m s

theorem homingLoaded_frame_of : changesOnly [.console, .link, .line, .composer, .engine, .display, .restTimer] s
    (homingLoaded m announce s) :=
  ((mapLoaded_frame m s).mono (by decide)).trans ((homingLoaded_after m announce s).mono (by decide))

/-- R81: a wake that kept its map announces nothing. -/
theorem homingLoaded_quiet : changesOnly [.line, .composer, .engine, .display, .restTimer] s (homingLoaded m false s) := by
  rw [homingLoaded_eq]
  exact ((mapLoaded_frame m s).mono (by decide)).trans ((relayLine_frame _).mono (by decide))

/-- A Free line stays Free, and its last holder stays known. -/
theorem homingLoaded_free (h : s.line = .free) : (homingLoaded m announce s).line = .free
    ∧ (homingLoaded m announce s).composer.lastHolder = s.composer.lastHolder := by
  have hbefore : changesOnly [.console, .link, .engine, .display, .restTimer] s (if announce then (mapLoaded m s).noticeBoth
      (Notice.wheelLoaded m.wheelId m.pitch.code) else mapLoaded m s) := by
    refine ((mapLoaded_frame m s).mono (by decide)).trans ?_
    exact .ite ((State.noticeBoth_frame _ _).mono (by decide)) (.refl _ _)
  rw [homingLoaded_eq]
  have hline := (hbefore.same .line (by decide)).trans h
  obtain ⟨x, d, hcomposer⟩ := relayLine_composer (if announce then (mapLoaded m s).noticeBoth
      (Notice.wheelLoaded m.wheelId m.pitch.code) else mapLoaded m s)
  refine ⟨(relayLine_line_nil (by rw [hline]; rfl)).trans hline, ?_⟩
  rw [hcomposer]
  show (if announce then _ else _ : State).composer.lastHolder = _
  rw [hbefore.same .composer (by decide)]

end

section
variable (hub reason : Nat) (s : State)

theorem homingRefused_engine : (homingRefused hub reason s).engine = { s.engine with
    petalMap := none, homing := none, homingLimit := none, state := .wheelFault } := rfl

theorem homingRefused_frame_of : changesOnly [.console, .link, .engine, .display, .restTimer] s (homingRefused hub reason s) := by
  intro q hq; cases q <;> first | exact absurd hq (by decide) | rfl

end

/-! ### The answer to a table request (R8) -/

/-- The request waits for its table. -/
def Store.waiting (v : Store) (hub : Nat) : Store := { v with wheelRequest := some hub }

/-- R8: the state in which it does. -/
def tableAwaited (hub : Nat) (s : State) : State := { s with store := s.store.waiting hub }

section
variable {hub : Nat} {s : State}

theorem askTable_noHub : askTable 0 s = homingRefused 0 2 s := rfl

theorem askTable_request (h : hub ≠ 0) : askTable hub s = requestTable hub s := if_neg h

theorem askTable_starting (h : hub ≠ 0) (hs : s.store.state = .starting) : askTable hub s = tableAwaited hub s := by
  rw [askTable_request h]; simp only [requestTable, if_neg h, hs, tableAwaited, Store.waiting]

/-- R8, R10: without a store, or without a Wheel Set in it, the fallback map is taken. -/
theorem askTable_fallback (h : hub ≠ 0) (hs : s.store.state = .absent ∨ s.store.state = .faulted
    ∨ (s.store.state = .present ∧ s.store.flags.noWheelSet = true)) :
    askTable hub s = homingLoaded (fallbackMap hub) true s := by
  rw [askTable_request h]
  rcases hs with hs | hs | ⟨hs, hf⟩
  · simp only [requestTable, if_neg h, hs]
  · simp only [requestTable, if_neg h, hs]
  · simp only [requestTable, if_neg h, hs, hf, if_true]

theorem askTable_missing (h : hub ≠ 0) (hs : s.store.state = .present) (hf : s.store.flags.noWheelSet = false)
    (ht : s.store.table hub = none) : askTable hub s = homingRefused hub 0 s := by
  rw [askTable_request h]
  simp only [requestTable, if_neg h, hs, hf, ht, Bool.false_eq_true, if_false]

theorem askTable_present (h : hub ≠ 0) (hs : s.store.state = .present) (hf : s.store.flags.noWheelSet = false) {n : Nat}
    (ht : s.store.table hub = some n) : askTable hub s = tableAwaited hub s := by
  rw [askTable_request h]
  simp only [requestTable, if_neg h, hs, hf, ht, Bool.false_eq_true, if_false, tableAwaited, Store.waiting]

/-- R8: a table request is answered, refused, or waits. -/
theorem askTable_cases (hub : Nat) (s : State) : (∃ reason, askTable hub s = homingRefused hub reason s)
    ∨ askTable hub s = homingLoaded (fallbackMap hub) true s ∨ askTable hub s = tableAwaited hub s := by
  by_cases h : hub = 0
  · subst h; exact .inl ⟨2, rfl⟩
  · cases hs : s.store.state with
    | starting => exact .inr (.inr (askTable_starting h hs))
    | absent => exact .inr (.inl (askTable_fallback h (.inl hs)))
    | faulted => exact .inr (.inl (askTable_fallback h (.inr (.inl hs))))
    | present =>
      cases hf : s.store.flags.noWheelSet with
      | true => exact .inr (.inl (askTable_fallback h (.inr (.inr ⟨hs, hf⟩))))
      | false =>
        cases ht : s.store.table hub with
        | none => exact .inl ⟨0, askTable_missing h hs hf ht⟩
        | some n => exact .inr (.inr (askTable_present h hs hf ht))

theorem askTable_frame (hub : Nat) (s : State) :
    changesOnly [.console, .link, .line, .composer, .engine, .store, .display, .restTimer] s (askTable hub s) := by
  rcases askTable_cases hub s with ⟨reason, h⟩ | h | h
  · rw [h]; exact (homingRefused_frame_of _ _ _).mono (by decide)
  · rw [h]; exact (homingLoaded_frame_of _ _ _).mono (by decide)
  · rw [h]
    intro q hq; cases q <;> first | exact absurd hq (by decide) | rfl

/-- What the answer leaves of the engine. -/
theorem askTable_engine (hub : Nat) (s : State) (hl : s.engine.homingLimit = none) : ∃ map homing state,
    (askTable hub s).engine = { s.engine with petalMap := map, homing := homing, state := state } := by
  rcases askTable_cases hub s with ⟨reason, h⟩ | h | h
  · exact ⟨_, _, _, by rw [h, homingRefused_engine, ← hl]⟩
  · exact ⟨_, _, _, by rw [h, homingLoaded_engine, ← hl]⟩
  · exact ⟨_, _, _, by rw [h]; rfl⟩

/-- A Free line stays Free. -/
theorem askTable_free (hub : Nat) {s : State} (hl : s.line = .free) : (askTable hub s).line = .free
    ∧ (askTable hub s).composer.lastHolder = s.composer.lastHolder := by
  rcases askTable_cases hub s with ⟨reason, h⟩ | h | h
  · rw [h]; exact ⟨hl, rfl⟩
  · rw [h]; exact homingLoaded_free _ _ _ hl
  · rw [h]; exact ⟨hl, rfl⟩

end

/-- A wheel request that waits is read as soon as the link is free (R16). -/
theorem endStep_tableAwaited_store {hub n : Nat} {w : StoreSection} {s : State} (hs : s.store.state = .present)
    (hw : s.store.wheelSet = some w) (ht : s.store.table hub = some n) :
    (endStep (tableAwaited hub s)).store = { s.store with
      wheelRequest := some hub
      link := match s.store.link with
        | some x => some x
        | none => some { owner := .wheel, op := .straightRead (w.base + 4 + 392 * n) 392, limit := none } } := by
  cases hl : s.store.link with
  | some x =>
    refine (endStep_store_idle (.inl ?_)).trans ?_
    · show s.store.link.isSome = true
      rw [hl]; rfl
    · show s.store.waiting hub = { s.store.waiting hub with link := some x }
      rw [← hl]; rfl
  | none =>
    have hop : (settleSpelling (tableAwaited hub s)).store.wheelOp = some (.straightRead (w.base + 4 + 392 * n) 392) := by
      rw [settleSpelling_store]
      show (match some hub, s.store.wheelSet with
        | some h, some w => (s.store.table h).map fun t => StoreOp.straightRead (w.base + 4 + 392 * t) 392
        | _, _ => none) = _
      rw [hw]
      show (s.store.table hub).map _ = _
      rw [ht]; rfl
    have hgrant : arbitrate (settleSpelling (tableAwaited hub s)) = putOnLink .wheel
        (.straightRead (w.base + 4 + 392 * n) 392) (settleSpelling (tableAwaited hub s)) := by
      unfold arbitrate
      rw [if_pos (by rw [settleSpelling_store]; simp [tableAwaited, Store.waiting, hl, hs]), hop]
    rw [endStep_store_eq, hgrant]
    exact congrArg (fun v : Store => { v with link := some ⟨.wheel, .straightRead (w.base + 4 + 392 * n) 392, none⟩ })
      (settleSpelling_store _)

/-- The display stays live. -/
theorem endStep_live (s : State) : (endStep s).display.live = s.display.live := by
  have h : (settle s).display = s.display := (settle_frame s).same .display (by decide)
  show (displayNow _).live = _
  rw [displayNow_live]; exact congrArg Display.live h

/-! ### The step in which a table is asked for -/

section
variable {hub : Nat} {s : State}

theorem askStep_noHub : (endStep (askTable 0 s)).engine = { s.engine with
      petalMap := none, homing := none, homingLimit := none, state := .wheelFault }
    ∧ (endStep (askTable 0 s)).link = s.link.notice (Notice.wheelFault 0 2) :=
  ⟨endStep_engine _, endStep_link _⟩

theorem askStep_missing (h : hub ≠ 0) (hs : s.store.state = .present) (hf : s.store.flags.noWheelSet = false)
    (ht : s.store.table hub = none) : (endStep (askTable hub s)).engine = { s.engine with
      petalMap := none, homing := none, homingLimit := none, state := .wheelFault }
    ∧ (endStep (askTable hub s)).link = s.link.notice (Notice.wheelFault hub 0) := by
  rw [askTable_missing h hs hf ht]; exact ⟨endStep_engine _, endStep_link _⟩

theorem askStep_fallback (h : hub ≠ 0) (hs : s.store.state = .absent ∨ s.store.state = .faulted
    ∨ (s.store.state = .present ∧ s.store.flags.noWheelSet = true)) :
    (endStep (askTable hub s)).engine = { s.engine with
      petalMap := some (fallbackMap hub), homing := none, homingLimit := none, state := s.engine.atRest }
    ∧ (endStep (askTable hub s)).link = s.link.notice (Notice.wheelLoaded hub 12)
    ∧ (endStep (askTable hub s)).display.live = true := by
  rw [askTable_fallback h hs]
  refine ⟨?_, ?_, ?_⟩
  · rw [endStep_engine, homingLoaded_engine]
  · rw [endStep_link]; exact (homingLoaded_outcome (fallbackMap hub) s).2 .link
  · rw [endStep_live, homingLoaded_live]

theorem askStep_starting (h : hub ≠ 0) (hs : s.store.state = .starting) :
    (endStep (askTable hub s)).engine = s.engine ∧ (endStep (askTable hub s)).store.wheelRequest = some hub := by
  rw [askTable_starting h hs]
  refine ⟨endStep_engine _, ?_⟩
  rw [endStep_store]; rfl

theorem askStep_present (h : hub ≠ 0) (hs : s.store.state = .present) (hf : s.store.flags.noWheelSet = false) {n : Nat}
    {w : StoreSection} (ht : s.store.table hub = some n) (hw : s.store.wheelSet = some w) :
    (endStep (askTable hub s)).engine = s.engine
    ∧ (endStep (askTable hub s)).store = { s.store with
        wheelRequest := some hub
        link := match s.store.link with
          | some x => some x
          | none => some { owner := .wheel, op := .straightRead (w.base + 4 + 392 * n) 392, limit := none } } := by
  rw [askTable_present h hs hf ht]
  exact ⟨endStep_engine _, endStep_tableAwaited_store hs hw ht⟩

/-- What the step leaves, whatever the answer. -/
theorem askStep_frame (hub : Nat) (s : State) : changesOnly [.console, .link, .line, .composer, .engine, .spelling, .store,
    .display, .tones, .holdTimer, .restTimer] s (endStep (askTable hub s)) :=
  ((askTable_frame hub s).mono (by decide)).trans ((endStep_frame _).mono (by decide))

theorem askStep_engine (hub : Nat) (s : State) (hl : s.engine.homingLimit = none) : ∃ map homing state,
    (endStep (askTable hub s)).engine = { s.engine with petalMap := map, homing := homing, state := state } := by
  rw [endStep_engine]; exact askTable_engine hub s hl

end

theorem toNat_ne_zero {n : Nat} {x : BitVec n} (h : x ≠ 0) : x.toNat ≠ 0 := fun e => h (BitVec.eq_of_toNat_eq (by simpa using e))

/-! ### The index has been found (R79, R81) -/

/-- R79: petal 0 is at the print point and the table is asked for. -/
def indexed (h : Homing) (s : State) : State :=
  { s with engine := { s.engine with petal := 0, homing := some { h with stage := .table }, homingLimit := none } }

section
variable {hub : BitVec 6} {h : Homing} {s : State} (hh : s.engine.homing = some h) (hs : h.stage = .wheel)
include hh hs

theorem exec_indexFound : exec (.indexFound hub) s = .next (endStep (hubRead h hub.toNat s)) := by
  show Host.Outcome.next (indexFound hub s) = _
  simp only [indexFound, hh, hs, if_true]

theorem exec_indexFound_full (hf : h.full = true) :
    exec (.indexFound hub) s = .next (endStep (askTable hub.toNat (newPage (indexed h s)))) := by
  have hread : hubRead h hub.toNat s = askTable hub.toNat (newPage (indexed h s)) := if_pos hf
  rw [exec_indexFound hh hs, hread]

theorem exec_indexFound_wheel (hf : h.full = false) (hw : h.wake = false) :
    exec (.indexFound hub) s = .next (endStep (askTable hub.toNat (indexed h s))) := by
  have hread : hubRead h hub.toNat s = askTable hub.toNat (indexed h s) :=
    (if_neg (by rw [hf]; decide)).trans (if_neg (by rw [hw]; decide))
  rw [exec_indexFound hh hs, hread]

theorem exec_indexFound_wake (hf : h.full = false) (hw : h.wake = true) :
    exec (.indexFound hub) s = .next (endStep (wakeFound hub.toNat (indexed h s))) := by
  have hread : hubRead h hub.toNat s = wakeFound hub.toNat (indexed h s) := (if_neg (by rw [hf]; decide)).trans (if_pos hw)
  rw [exec_indexFound hh hs, hread]

end

theorem newPage_frame_of (s : State) : changesOnly [.engine, .memory, .lift, .spelling] s (newPage s) :=
  ((engine_frame s _).mono (by decide)).trans ((emptyMemory_frame _).mono (by decide))

theorem newPage_engine (s : State) : (newPage s).engine = { s.engine with platen := 0, pageLines := 0, pageEnd := false } :=
  (emptyMemory_frame _).same .engine (by decide)

/-! ### A wheel table (R9) -/

/-- R9: what a petal record makes of a petal. -/
def Glyph.sound (g : Glyph) : Prop :=
  0x21 ≤ g.code.toNat ∧ g.code.toNat ≤ 0xFE ∧ 4 ≤ g.width ∧ g.width ≤ 24 ∧ 1 ≤ g.cls ∧ g.cls ≤ 4

theorem clamp_bounds {a b : Nat} (h : a ≤ b) (n : Nat) : a ≤ clamp a b n ∧ clamp a b n ≤ b := by
  unfold clamp; omega

theorem petalOf_sound {k : Nat} {code width cls flags : Byte} {g : Glyph} (h : petalOf k code width cls flags = some g) :
    g.sound ∧ g.petal = k := by
  unfold petalOf at h
  split at h
  · rename_i hcond
    simp only [Bool.and_eq_true, decide_eq_true_eq] at hcond
    obtain ⟨⟨hlow, hhigh⟩, -⟩ := hcond
    obtain rfl := Option.some.inj h
    obtain ⟨hw1, hw2⟩ := clamp_bounds (show 4 ≤ 24 by decide) width.toNat
    obtain ⟨hc1, hc2⟩ := clamp_bounds (show 1 ≤ 4 by decide) cls.toNat
    exact ⟨⟨hlow, hhigh, hw1, hw2, hc1, hc2⟩, rfl⟩
  · cases h

/-- R9: the petals of a table are sound, and no petal lies beyond its records. -/
theorem petalsFrom_sound (k : Nat) (bytes : List Byte) {g : Glyph} (h : g ∈ petalsFrom k bytes) :
    g.sound ∧ 4 * g.petal < 4 * k + bytes.length := by
  fun_induction petalsFrom k bytes with
  | case1 k a b c d rest ih =>
    rcases List.mem_append.1 h with h | h
    · obtain ⟨hsound, hpetal⟩ := petalOf_sound (Option.mem_toList.1 h)
      exact ⟨hsound, by rw [hpetal]; simp only [List.length_cons]; omega⟩
    · obtain ⟨hsound, hpetal⟩ := ih h
      exact ⟨hsound, by simp only [List.length_cons]; omega⟩
  | case2 => cases h

theorem firstOfCode_subset (l : List Glyph) : firstOfCode l ⊆ l := by
  induction l with
  | nil => exact List.Subset.refl _
  | cons g l ih =>
    intro x hx
    rcases List.mem_cons.1 hx with rfl | hx
    · exact List.mem_cons_self
    · exact List.mem_cons_of_mem _ (ih (List.mem_filter.1 hx).1)

/-- R9: a type code names one petal. -/
theorem firstOfCode_pairwise (l : List Glyph) : (firstOfCode l).Pairwise (fun a b => a.code ≠ b.code) := by
  induction l with
  | nil => exact .nil
  | cons g l ih =>
    refine .cons (fun x hx => ?_) (ih.filter _)
    have hne := (List.mem_filter.1 hx).2
    intro heq
    rw [heq] at hne
    simp at hne

/-- R8, R9: what a table must be to pass, and what is read from it. -/
theorem mapOfTable_some {h : Nat} {bytes : List Byte} {m : PetalMap} (hm : mapOfTable h bytes = some m) :
    number (bytes.drop 388) = byteSum (bytes.take 388) ∧ bytes.head?.map (·.toNat) = some h ∧ m.wheelId = h
      ∧ 4 ≤ m.spaceWidth ∧ m.spaceWidth ≤ 24 ∧ (∀ g ∈ m.underscore :: m.glyphs, g.sound ∧ g.petal < 96)
      ∧ m.glyphs.Pairwise (fun a b => a.code ≠ b.code) := by
  unfold mapOfTable at hm
  split at hm
  · rename_i id pitch space under rest
    dsimp only at hm
    split at hm
    · cases hm
    · rename_i hcheck
      simp only [Bool.or_eq_true, bne_iff_ne, ne_eq, not_or, Decidable.not_not] at hcheck
      obtain ⟨hsum, hid⟩ := hcheck
      split at hm
      · rename_i c u _ hu
        obtain rfl := Option.some.inj hm
        have hpetals {g : Glyph} (hg : g ∈ petalsFrom 0 (rest.take 384)) : g.sound ∧ g.petal < 96 := by
          obtain ⟨hsound, hpetal⟩ := petalsFrom_sound _ _ hg
          have hlen : (rest.take 384).length ≤ 384 := List.length_take_le _ _
          exact ⟨hsound, by omega⟩
        obtain ⟨hw1, hw2⟩ := clamp_bounds (show 4 ≤ 24 by decide) space.toNat
        refine ⟨hsum, congrArg some hid, rfl, hw1, hw2, fun g hg => ?_, firstOfCode_pairwise _⟩
        rcases List.mem_cons.1 hg with rfl | hg
        · exact hpetals (List.mem_of_find?_eq_some hu)
        · exact hpetals (firstOfCode_subset _ hg)
      · cases hm
  · cases hm

/-! ### The table has been read (R8) -/

theorem exec_storeOpComplete_wheel {x : LinkOp} {bytes : List Byte} {s : State} (hl : s.store.link = some x)
    (ho : x.owner = .wheel) (hb : bytes.length = x.op.answer) :
    exec (.storeOpComplete bytes) s = .next (endStep (wheelRead bytes (unlinked s))) := by
  show Host.Outcome.next (storeOpDone bytes s) = _
  simp [storeOpDone, hl, ho, hb, unlinked]

/-- The wheel request has been answered with the table. -/
def requestAnswered (s : State) : State := withoutRequest (unlinked s)

theorem requestAnswered_frame (s : State) : changesOnly [.store] s (requestAnswered s) := by
  intro q hq; cases q <;> first | exact absurd hq (by decide) | rfl

section
variable {h : Nat} {bytes : List Byte} {s : State} (hr : s.store.wheelRequest = some h)
include hr

theorem wheelRead_loaded {m : PetalMap} (hm : mapOfTable h bytes = some m) :
    wheelRead bytes (unlinked s) = homingLoaded m true (requestAnswered s) := by
  have hr' : (unlinked s).store.wheelRequest = some h := hr
  simp only [wheelRead, hr', hm]; rfl

theorem wheelRead_refused (hm : mapOfTable h bytes = none) :
    wheelRead bytes (unlinked s) = homingRefused h 1 (requestAnswered s) := by
  have hr' : (unlinked s).store.wheelRequest = some h := hr
  simp only [wheelRead, hr', hm]; rfl

end

/-! ### A wake that finds another wheel (R81) -/

/-- R81: the queue has been discarded and the map is Unloaded. -/
def wakeCancelled (s : State) : State :=
  let u := keepColumn (cancelReleased .console s)
  { u with engine := { u.engine with petalMap := none } }

section
variable {hub : Nat} {m : PetalMap} {s : State}

theorem wakeFound_kept (hm : s.engine.petalMap = some m) (hid : m.wheelId = hub) :
    wakeFound hub s = homingLoaded m false s := by
  unfold wakeFound; rw [hm]; exact if_pos hid

theorem wakeFound_other (hm : s.engine.petalMap = some m) (hid : m.wheelId ≠ hub) (ho : s.lift.owed = false) :
    wakeFound hub s = askTable hub (wakeCancelled s) := by
  have hjobs : (cancelJobs .console s).1 = cancelReleased .console s := by
    rw [cancelJobs_eq]; exact cancelled_of_full (.inl ho)
  unfold wakeFound; rw [hm]
  refine (if_neg hid).trans ?_
  rw [hjobs]; rfl

theorem wakeCancelled_frame (s : State) : changesOnly [.console, .link, .line, .composer, .engine, .memory, .spelling,
    .display] s (wakeCancelled s) := by
  refine (cancelReleased_frame .console s).trans ?_
  intro q hq; cases q <;> first | exact absurd hq (by decide) | rfl

variable (hw : s.engine.state ≠ .working) (hc : ∀ j ∈ s.engine.queue, j.cancelled = false)
include hc

/-- R90: the console cancels every job. -/
theorem cancels_all : s.engine.queue.filter (cancels .console) = s.engine.queue :=
  List.filter_eq_self.2 fun j hj => by rw [cancels_unmarked (hc j hj)]; rfl

theorem wakeCancelled_line (hd : composesDirect s) (ha : s.lift.away = false) (h : strokeOfLine s.engine.queue s = true) :
    (wakeCancelled s).line = .free ∧ (wakeCancelled s).composer.lastHolder = some .console := by
  obtain ⟨hline, hcomposer⟩ := cancelReleased_direct .console s hd (by rw [cancels_all hc]; exact h)
  refine ⟨hline.trans (if_neg (by rw [ha]; decide)), congrArg Composer.lastHolder hcomposer⟩

include hw

theorem cancelGone_all : cancelGone .console s.engine = s.engine.queue := by
  refine Eq.trans ?_ (cancels_all hc)
  unfold cancelGone
  split
  · rename_i hs _; exact absurd hs hw
  · rfl

theorem wakeCancelled_engine : (wakeCancelled s).engine = { s.engine with
    queue := [], petalMap := none, tally := if s.engine.queue.any (·.kind == .stroke) then .clear else s.engine.tally } := by
  have hleft : cancelLeft .console s.engine = [] := (cancelLeft_idle hw).trans
    (List.filter_eq_nil_iff.2 fun j hj => by rw [cancels_unmarked (hc j hj)]; simp)
  show { (cancelReleased .console s).engine with petalMap := none } = _
  rw [cancelReleased_engine, hleft, cancels_all hc]

theorem wakeCancelled_link : (wakeCancelled s).link = s.link.afterCancel .link s.engine.queue := by
  have h := cancelReleased_port .console s .link
  rw [cancelGone_all hw hc] at h
  exact h

end

/-- Settles O55: each report of a homing, with every answer that its table request may get. -/
theorem homingFindsCarrierAndWheel : Obligations.HomingFindsCarrierAndWheel := by
  unfold Obligations.HomingFindsCarrierAndWheel
  refine ⟨fun h s hh => ?home, fun hub h s hh hs hf => ?full, fun hub h m s hh hs hf hw hm hid => ?kept,
    fun x h bytes s hl ho hb hr => ?read, fun h bytes m hm => ?table, fun hub h s hh hs hfw hub0 hst => ?present,
    fun hub h s hh hs hf hw => ?mounted, fun hub h m s hh hs hf hw hm hid hstate ho hc => ?other⟩
  case home =>
    refine ⟨fun hs => ?_, fun hs => ?_⟩
    · show Host.Outcome.next (homeReached s) = _
      simp only [homeReached, hh, hs, if_true]
    · show Host.Outcome.next (homeReached s) = _
      simp only [homeReached, hh, if_neg hs]
  case full =>
    have hpage := newPage_frame_of (indexed h s)
    have hengine := newPage_engine (indexed h s)
    have hu : changesOnly [.engine, .memory, .lift, .spelling] s (newPage (indexed h s)) :=
      ((engine_frame s _).mono (by decide)).trans hpage
    have hstore : (newPage (indexed h s)).store = s.store := hu.same .store (by decide)
    have hlink : (newPage (indexed h s)).link = s.link := hu.same .link (by decide)
    have hafter := askStep_frame hub.toNat (newPage (indexed h s))
    obtain ⟨map, homing, state, he⟩ := askStep_engine hub.toNat (newPage (indexed h s)) (by rw [hengine]; rfl)
    refine ⟨_, exec_indexFound_full hh hs hf, ?_, ?_, ?_, ?_, ?_, ?_, ?_, ?_, ?_, fun h0 => ?_, fun h0 hst => ?_,
      fun h0 hst => ?_, fun h0 hst hfl ht => ?_⟩
    · rw [he, hengine]; rfl
    · rw [he, hengine]
    · rw [he, hengine]
    · rw [he, hengine]
    · rw [he, hengine]; rfl
    · rw [he, hengine]; rfl
    · rw [hafter.same .memory (by decide)]; rfl
    · rw [hafter.same .lift (by decide)]; rfl
    · exact (hu.mono (by decide)).trans (hafter.mono (by decide))
    · subst h0
      obtain ⟨hrefused, hnotice⟩ := askStep_noHub (s := newPage (indexed h s))
      exact ⟨congrArg Engine.state hrefused, congrArg Engine.petalMap hrefused, hnotice.trans (by rw [hlink])⟩
    · obtain ⟨hkept, hrequest⟩ := askStep_starting (toNat_ne_zero h0) (by rw [hstore]; exact hst)
      rw [hkept, hengine]
      exact ⟨rfl, rfl, hrequest⟩
    · obtain ⟨hloaded, hnotice, hlive⟩ := askStep_fallback (toNat_ne_zero h0) (s := newPage (indexed h s))
        (by rw [hstore]; exact hst.imp_right .inl)
      rw [hengine] at hloaded
      exact ⟨congrArg Engine.petalMap hloaded, congrArg Engine.state hloaded, hnotice.trans (by rw [hlink]), hlive⟩
    · obtain ⟨hrefused, hnotice⟩ := askStep_missing (toNat_ne_zero h0) (s := newPage (indexed h s)) (by rw [hstore]; exact hst)
        (by rw [hstore]; exact hfl) (by rw [hstore]; exact ht)
      exact ⟨congrArg Engine.state hrefused, congrArg Engine.petalMap hrefused, hnotice.trans (by rw [hlink])⟩
  case kept =>
    have hwake : wakeFound hub.toNat (indexed h s) = homingLoaded m false (indexed h s) := wakeFound_kept hm hid
    refine ⟨_, exec_indexFound_wake hh hs hf hw, ?_, ?_⟩
    · rw [hwake, endStep_engine, homingLoaded_engine, ← hm]; rfl
    · rw [hwake]
      exact (((engine_frame s _).mono (by decide)).trans ((homingLoaded_quiet m (indexed h s)).mono (by decide))).trans
        ((endStep_frame _).mono (by decide))
  case read =>
    have hanswered := requestAnswered_frame s
    have hengine : (requestAnswered s).engine = s.engine := hanswered.same .engine (by decide)
    have hlink : (requestAnswered s).link = s.link := hanswered.same .link (by decide)
    refine ⟨_, exec_storeOpComplete_wheel hl ho hb, ?_⟩
    cases hm : mapOfTable h bytes with
    | some m =>
      have hwheel := (mapOfTable_some hm).2.2.1
      rw [wheelRead_loaded hr hm]
      have hloaded := homingLoaded_frame_of m true (requestAnswered s)
      have he : (endStep (homingLoaded m true (requestAnswered s))).engine = { s.engine with
          petalMap := some m, homing := none, homingLimit := none, state := s.engine.atRest } := by
        rw [endStep_engine, homingLoaded_engine, hengine]
      refine ⟨?_, ?_, ?_, ?_, fun m' hm' => ?_, nofun, ?_⟩
      · rw [he]
      · rw [he]
      · rw [endStep_store, hloaded.same .store (by decide)]; rfl
      · rw [endStep_live, homingLoaded_live]
      · obtain rfl := Option.some.inj hm'
        refine ⟨by rw [he], by rw [he]; rfl, ?_⟩
        rw [endStep_link, ← hwheel, ← hlink]
        exact (homingLoaded_outcome m (requestAnswered s)).2 .link
      · exact ((hanswered.mono (by decide)).trans (hloaded.mono (by decide))).trans ((endStep_frame _).mono (by decide))
    | none =>
      rw [wheelRead_refused hr hm]
      have hrefused := homingRefused_frame_of h 1 (requestAnswered s)
      have he : (endStep (homingRefused h 1 (requestAnswered s))).engine = { s.engine with
          petalMap := none, homing := none, homingLimit := none, state := .wheelFault } := by
        rw [endStep_engine, homingRefused_engine, hengine]
      refine ⟨?_, ?_, ?_, ?_, nofun, fun _ => ⟨?_, ?_, ?_⟩, ?_⟩
      · rw [he]
      · rw [he]
      · rw [endStep_store, hrefused.same .store (by decide)]; rfl
      · rw [endStep_live]; rfl
      · rw [he]
      · rw [he]
      · rw [endStep_link, ← hlink]; rfl
      · exact ((hanswered.mono (by decide)).trans (hrefused.mono (by decide))).trans ((endStep_frame _).mono (by decide))
  case table =>
    obtain ⟨hsum, hid, hwheel, hlow, hhigh, hglyphs, hcodes⟩ := mapOfTable_some hm
    refine ⟨hsum, hid, hwheel, hlow, hhigh, fun g hg => ?_, hcodes⟩
    obtain ⟨⟨h1, h2, h3, h4, h5, h6⟩, hpetal⟩ := hglyphs g hg
    exact ⟨h1, h2, hpetal, h3, h4, h5, h6⟩
  case present =>
    obtain ⟨u, hexec, hu, e, he, hstate, hmap, hhoming, hlimit, hribbon⟩ : ∃ u,
        exec (.indexFound hub) s = .next (endStep (askTable hub.toNat u)) ∧ changesOnly [.engine, .memory, .lift, .spelling] s u
        ∧ ∃ e, u.engine = e ∧ e.state = s.engine.state ∧ e.petalMap = s.engine.petalMap
        ∧ e.homing = some { h with stage := .table } ∧ e.homingLimit = none ∧ e.ribbon = s.engine.ribbon := by
      have hindexed : changesOnly [.engine] s (indexed h s) := engine_frame s _
      rcases Bool.eq_false_or_eq_true h.full with hfull | hfull
      · exact ⟨_, exec_indexFound_full hh hs hfull, (hindexed.mono (by decide)).trans (newPage_frame_of _), _,
          newPage_engine _, rfl, rfl, rfl, rfl, rfl⟩
      · have hwake : h.wake = false := hfw.resolve_left (by rw [hfull]; decide)
        exact ⟨_, exec_indexFound_wheel hh hs hfull hwake, hindexed.mono (by decide), _, rfl, rfl, rfl, rfl, rfl, rfl⟩
    have hstore : u.store = s.store := hu.same .store (by decide)
    have hlink : u.link = s.link := hu.same .link (by decide)
    refine ⟨_, hexec, fun hfl => ?_, fun n hn w hw hfl => ?_⟩
    · obtain ⟨hloaded, hnotice, -⟩ := askStep_fallback (toNat_ne_zero hub0) (s := u)
        (.inr (.inr (by rw [hstore]; exact ⟨hst, hfl⟩)))
      refine ⟨by rw [hloaded], by rw [hloaded], ?_, fun _ => hnotice.trans (by rw [hlink])⟩
      rw [hloaded]
      show (if u.engine.ribbon = 0 then _ else _) = _
      rw [he, hribbon]
    · obtain ⟨hkept, htable⟩ := askStep_present (toNat_ne_zero hub0) (s := u) (by rw [hstore]; exact hst)
        (by rw [hstore]; exact hfl) (by rw [hstore]; exact hn) (by rw [hstore]; exact hw)
      rw [hkept, he, htable, hstore]
      exact ⟨hstate, hmap, hhoming, hlimit, rfl⟩
  case mounted =>
    have hstore : (indexed h s).store = s.store := rfl
    have hafter := askStep_frame hub.toNat (indexed h s)
    obtain ⟨map, homing, state, he⟩ := askStep_engine hub.toNat (indexed h s) rfl
    refine ⟨_, exec_indexFound_wheel hh hs hf hw, ?_, ?_, ?_, ?_, ?_, ?_, ?_, ?_, fun h0 => ?_, fun h0 hst => ?_,
      fun h0 hst => ?_, fun h0 hst hfl ht => ?_⟩
    · rw [he]; rfl
    · rw [he]; rfl
    · rw [he]; rfl
    · rw [he]; rfl
    · rw [he]; rfl
    · rw [he]; rfl
    · rw [he]; rfl
    · exact ((engine_frame s _).mono (by decide)).trans (hafter.mono (by decide))
    · subst h0
      obtain ⟨hrefused, -⟩ := askStep_noHub (s := indexed h s)
      exact ⟨congrArg Engine.state hrefused, congrArg Engine.petalMap hrefused⟩
    · obtain ⟨hkept, hrequest⟩ := askStep_starting (toNat_ne_zero h0) (s := indexed h s) hst
      rw [hkept]
      exact ⟨rfl, rfl, hrequest⟩
    · obtain ⟨hloaded, -, -⟩ := askStep_fallback (toNat_ne_zero h0) (s := indexed h s) (hst.imp_right .inl)
      exact ⟨congrArg Engine.petalMap hloaded, congrArg Engine.state hloaded⟩
    · obtain ⟨hrefused, -⟩ := askStep_missing (toNat_ne_zero h0) (s := indexed h s) hst hfl ht
      exact ⟨congrArg Engine.petalMap hrefused, congrArg Engine.state hrefused⟩
  case other =>
    intro cancelled
    have hworking : (indexed h s).engine.state ≠ .working := by
      show s.engine.state ≠ .working
      rw [hstate]; decide
    have hwake : wakeFound hub.toNat (indexed h s) = askTable hub.toNat (wakeCancelled (indexed h s)) :=
      wakeFound_other hm hid ho
    have hengine := wakeCancelled_engine hworking (s := indexed h s) hc
    have hlink : (wakeCancelled (indexed h s)).link = cancelled := wakeCancelled_link hworking (s := indexed h s) hc
    have hstore : (wakeCancelled (indexed h s)).store = s.store := (wakeCancelled_frame (indexed h s)).same .store (by decide)
    have hribbon : (wakeCancelled (indexed h s)).engine.atRest = s.engine.atRest := by rw [hengine]; rfl
    obtain ⟨map, homing, state, he⟩ := askStep_engine hub.toNat (wakeCancelled (indexed h s)) (by rw [hengine]; rfl)
    refine ⟨_, exec_indexFound_wake hh hs hf hw, ?_⟩
    rw [hwake]
    refine ⟨?_, ?_, ?_, ?_, ?_, fun h1 h2 h3 h4 => ?_, fun h0 => ?_, fun h0 hst => ?_, fun h0 hst => ?_,
      fun n hn w hset h0 hst hfl => ?_⟩
    · rw [he, hengine]
    · rw [he, hengine]; rfl
    · rw [he, hengine]; rfl
    · rw [he, hengine]; rfl
    · rw [he, hengine]; rfl
    · obtain ⟨hline, hlast⟩ := wakeCancelled_line (s := indexed h s) hc ⟨h1, h2⟩ h3 h4
      obtain ⟨hfree, hholder⟩ := askTable_free hub.toNat hline
      refine ⟨(endStep_line (by rw [hfree]; decide)).trans hfree, ?_⟩
      rw [endStep_composer, hholder]; exact hlast
    · subst h0
      obtain ⟨hrefused, hnotice⟩ := askStep_noHub (s := wakeCancelled (indexed h s))
      exact ⟨congrArg Engine.state hrefused, congrArg Engine.petalMap hrefused, hnotice.trans (by rw [hlink])⟩
    · obtain ⟨hkept, hrequest⟩ := askStep_starting (toNat_ne_zero h0) (s := wakeCancelled (indexed h s))
        (by rw [hstore]; exact hst)
      rw [hkept, hengine]
      exact ⟨hstate, rfl, rfl, hrequest⟩
    · obtain ⟨hloaded, -, -⟩ := askStep_fallback (toNat_ne_zero h0) (s := wakeCancelled (indexed h s))
        (by rw [hstore]; exact hst)
      rw [hribbon] at hloaded
      exact ⟨congrArg Engine.petalMap hloaded, congrArg Engine.state hloaded⟩
    · obtain ⟨hkept, htable⟩ := askStep_present (toNat_ne_zero h0) (s := wakeCancelled (indexed h s))
        (by rw [hstore]; exact hst) (by rw [hstore]; exact hfl) (by rw [hstore]; exact hn) (by rw [hstore]; exact hset)
      rw [hkept, hengine, htable, hstore]
      refine ⟨hstate, rfl, rfl, rfl, fun hl => ?_⟩
      rw [hl]

end Sys2Proof.Machine

/-! SUPPORT. The words on the paper (R101, R102): entries in order of position, the runs they form, and the word that an
underscore belongs to. -/

namespace Sys2Proof.Machine

/-! ### Entries in order of position (R101) -/

/-- Entries from left to right. -/
def byPosition (l : List StrikeEntry) : Prop := l.Pairwise fun a b => a.position ≤ b.position

theorem insertByPosition_perm (e : StrikeEntry) (l : List StrikeEntry) : (insertByPosition e l).Perm (e :: l) := by
  induction l with
  | nil => exact .refl _
  | cons x l ih =>
    unfold insertByPosition
    split
    · exact .refl _
    · exact (ih.cons x).trans (.swap e x l)

theorem insertByPosition_sorted {e : StrikeEntry} {l : List StrikeEntry} (h : byPosition l) :
    byPosition (insertByPosition e l) := by
  induction l with
  | nil => exact List.pairwise_singleton _ _
  | cons x l ih =>
    obtain ⟨hx, hl⟩ := List.pairwise_cons.1 h
    unfold insertByPosition
    split
    · rename_i hlt
      refine List.pairwise_cons.2 ⟨fun y hy => ?_, h⟩
      rcases List.mem_cons.1 hy with rfl | hy
      · exact hlt.le
      · exact hlt.le.trans (hx y hy)
    · rename_i hge
      refine List.pairwise_cons.2 ⟨fun y hy => ?_, ih hl⟩
      rcases List.mem_cons.1 ((insertByPosition_perm e l).mem_iff.1 hy) with rfl | hy
      · exact not_lt.1 hge
      · exact hx y hy

/-- R101: at equal position what is inserted comes after what is there. -/
theorem insertByPosition_filter {e : StrikeEntry} {l : List StrikeEntry} (h : byPosition l) (x : Nat) :
    (insertByPosition e l).filter (·.position == x) = l.filter (·.position == x) ++ [e].filter (·.position == x) := by
  induction l with
  | nil => rfl
  | cons y l ih =>
    obtain ⟨hy, hl⟩ := List.pairwise_cons.1 h
    unfold insertByPosition
    split
    · rename_i hlt
      by_cases hx : e.position = x
      · have hnone : (y :: l).filter (·.position == x) = [] := by
          refine List.filter_eq_nil_iff.2 fun z hz => ?_
          have hge : y.position ≤ z.position := by
            rcases List.mem_cons.1 hz with rfl | hz
            · exact le_refl _
            · exact hy z hz
          simp only [beq_iff_eq]; omega
        rw [List.filter_cons, hnone, List.filter_cons]; rfl
      · simp [List.filter_cons, hx]
    · rw [List.filter_cons, ih hl, List.filter_cons (x := y)]
      split <;> rfl

theorem sortFrom_sorted {acc : List StrikeEntry} (h : byPosition acc) (l : List StrikeEntry) :
    byPosition (l.foldl (fun acc e => insertByPosition e acc) acc) := by
  induction l generalizing acc with
  | nil => exact h
  | cons e l ih => exact ih (insertByPosition_sorted h)

theorem sortByPosition_sorted (l : List StrikeEntry) : byPosition (sortByPosition l) := sortFrom_sorted .nil l

theorem mem_sortByPosition {l : List StrikeEntry} {e : StrikeEntry} : e ∈ sortByPosition l ↔ e ∈ l := by
  have hfrom : ∀ (l acc : List StrikeEntry), e ∈ l.foldl (fun acc e => insertByPosition e acc) acc ↔ e ∈ acc ∨ e ∈ l := by
    intro l
    induction l with
    | nil => exact fun acc => by simp
    | cons x l ih =>
      intro acc
      refine (ih _).trans ?_
      rw [(insertByPosition_perm x acc).mem_iff, List.mem_cons, List.mem_cons]
      tauto
  exact (hfrom l []).trans (by simp)

/-- R101: at equal position the strike order stands. -/
theorem sortByPosition_filter (l : List StrikeEntry) (x : Nat) :
    (sortByPosition l).filter (·.position == x) = l.filter (·.position == x) := by
  have hfrom : ∀ (l acc : List StrikeEntry), byPosition acc →
      (l.foldl (fun acc e => insertByPosition e acc) acc).filter (·.position == x)
        = acc.filter (·.position == x) ++ l.filter (·.position == x) := by
    intro l
    induction l with
    | nil => exact fun acc _ => (List.append_nil _).symm
    | cons e l ih =>
      intro acc h
      refine (ih _ (insertByPosition_sorted h)).trans ?_
      rw [insertByPosition_filter h, List.append_assoc, ← List.filter_append]; rfl
  exact hfrom l [] .nil

/-! ### Runs of entries (R101) -/

/-- R101: the entries of a word run from its left end to its right end without a gap. -/
structure PaperWord.runs (w : PaperWord) : Prop where
  left : ∃ e ∈ w.entries, e.position = w.left
  right : ∃ e ∈ w.entries, e.position + e.width = w.right
  within : ∀ e ∈ w.entries, w.left ≤ e.position ∧ e.position + e.width ≤ w.right
  joined : ∀ e ∈ w.entries, e.position = w.left
    ∨ ∃ y ∈ w.entries, y.position < e.position ∧ e.position ≤ y.position + y.width

/-- A word of one entry. -/
def PaperWord.one (e : StrikeEntry) : PaperWord := ⟨[e], e.position, e.position + e.width⟩

/-- A word with one more entry. -/
def PaperWord.with (w : PaperWord) (e : StrikeEntry) : PaperWord :=
  ⟨w.entries ++ [e], w.left, max w.right (e.position + e.width)⟩

theorem PaperWord.one_runs (e : StrikeEntry) : (PaperWord.one e).runs := by
  have hmem {x : StrikeEntry} (h : x ∈ (PaperWord.one e).entries) : x = e := List.mem_singleton.1 h
  exact ⟨⟨e, List.mem_singleton_self e, rfl⟩, ⟨e, List.mem_singleton_self e, rfl⟩,
    fun x hx => by rw [hmem hx]; exact ⟨le_refl _, le_refl _⟩, fun x hx => .inl (by rw [hmem hx]; rfl)⟩

/-- An entry that lies no further right than the word reaches joins it. -/
theorem PaperWord.with_runs {w : PaperWord} {e : StrikeEntry} (h : w.runs) (hlast : ∀ x ∈ w.entries, x.position ≤ e.position)
    (hj : e.position ≤ w.right) : (w.with e).runs := by
  obtain ⟨a, ha, hal⟩ := h.left
  obtain ⟨b, hb, hbr⟩ := h.right
  have hleft : w.left ≤ e.position := hal ▸ hlast a ha
  have hmem {x : StrikeEntry} (hx : x ∈ w.entries) : x ∈ (w.with e).entries := List.mem_append_left _ hx
  have hcases {x : StrikeEntry} (hx : x ∈ (w.with e).entries) : x ∈ w.entries ∨ x = e :=
    (List.mem_append.1 hx).imp_right List.mem_singleton.1
  have hchain : ∀ x ∈ w.entries, x.position = w.left
      ∨ ∃ y ∈ (w.with e).entries, y.position < x.position ∧ x.position ≤ y.position + y.width := fun x hx =>
    (h.joined x hx).imp_right fun ⟨y, hy, hyx⟩ => ⟨y, hmem hy, hyx⟩
  refine ⟨⟨a, hmem ha, hal⟩, ?_, fun x hx => ?_, fun x hx => ?_⟩
  · show ∃ x ∈ (w.with e).entries, x.position + x.width = max w.right (e.position + e.width)
    rcases le_total w.right (e.position + e.width) with hle | hle
    · exact ⟨e, List.mem_append_right _ (List.mem_singleton_self e), (max_eq_right hle).symm⟩
    · exact ⟨b, hmem hb, hbr.trans (max_eq_left hle).symm⟩
  · rcases hcases hx with hx | rfl
    · obtain ⟨h1, h2⟩ := h.within x hx
      exact ⟨h1, h2.trans (le_max_left _ _)⟩
    · exact ⟨hleft, le_max_right _ _⟩
  · rcases hcases hx with hx | rfl
    · exact hchain x hx
    · rcases (hlast b hb).lt_or_eq with hlt | heq
      · exact .inr ⟨b, hmem hb, hlt, by omega⟩
      · rw [← heq]; exact hchain b hb

theorem groupWords_none (e : StrikeEntry) (l : List StrikeEntry) :
    groupWords none (e :: l) = groupWords (some (.one e)) l := by rw [groupWords]; rfl

theorem groupWords_some (w : PaperWord) (e : StrikeEntry) (l : List StrikeEntry) : groupWords (some w) (e :: l) =
    if e.position ≤ w.right then groupWords (some (w.with e)) l else w :: groupWords (some (.one e)) l := by
  rw [groupWords]; rfl

/-- What a word brings to the words behind it: it runs, and what follows does not lie left of it. -/
structure grouping (w : PaperWord) (l : List StrikeEntry) : Prop where
  runs : w.runs
  sorted : byPosition l
  last : ∀ x ∈ w.entries, ∀ e ∈ l, x.position ≤ e.position

section
variable {w : PaperWord} {e : StrikeEntry} {l : List StrikeEntry}

theorem grouping.with (h : grouping w (e :: l)) (hj : e.position ≤ w.right) : grouping (w.with e) l := by
  obtain ⟨he, hl⟩ := List.pairwise_cons.1 h.sorted
  refine ⟨w.with_runs h.runs (fun x hx => h.last x hx e List.mem_cons_self) hj, hl, fun x hx y hy => ?_⟩
  rcases List.mem_append.1 hx with hx | hx
  · exact h.last x hx y (List.mem_cons_of_mem _ hy)
  · rw [List.mem_singleton.1 hx]; exact he y hy

theorem grouping.one (h : byPosition (e :: l)) : grouping (.one e) l := by
  obtain ⟨he, hl⟩ := List.pairwise_cons.1 h
  refine ⟨PaperWord.one_runs e, hl, fun x hx y hy => ?_⟩
  rw [List.mem_singleton.1 hx]; exact he y hy

theorem grouping.left_le (h : grouping w l) : ∀ x ∈ l, w.left ≤ x.position := by
  obtain ⟨a, ha, hal⟩ := h.runs.left
  exact fun x hx => hal ▸ h.last a ha x hx

end

/-- R101: the words run, stand from left to right with gaps between them, and hold every entry. -/
theorem groupWords_spec {w : PaperWord} {l : List StrikeEntry} (h : grouping w l) :
    (∀ y ∈ groupWords (some w) l, y.runs ∧ w.left ≤ y.left)
      ∧ (groupWords (some w) l).Pairwise (fun a b => a.right < b.left)
      ∧ (groupWords (some w) l).flatMap (·.entries) = w.entries ++ l := by
  induction l generalizing w with
  | nil =>
    refine ⟨fun y hy => ?_, List.pairwise_singleton _ w, by simp [groupWords]⟩
    have hy : y = w := List.mem_singleton.1 hy
    rw [hy]; exact ⟨h.runs, le_refl _⟩
  | cons e l ih =>
    have hleft : w.left ≤ e.position := h.left_le e List.mem_cons_self
    rw [groupWords_some]
    split
    · rename_i hj
      obtain ⟨hruns, hpairs, hall⟩ := ih (h.with hj)
      exact ⟨hruns, hpairs, hall.trans (List.append_assoc _ _ _)⟩
    · rename_i hgap
      obtain ⟨hruns, hpairs, hall⟩ := ih (grouping.one h.sorted)
      refine ⟨fun y hy => ?_, List.pairwise_cons.2 ⟨fun y hy => ?_, hpairs⟩, ?_⟩
      · rcases List.mem_cons.1 hy with rfl | hy
        · exact ⟨h.runs, le_refl _⟩
        · obtain ⟨hy1, hy2⟩ := hruns y hy
          exact ⟨hy1, hleft.trans hy2⟩
      · exact (not_le.1 hgap).trans_le (hruns y hy).2
      · rw [List.flatMap_cons, hall]; rfl

/-! ### The words of a record (R101, R102) -/

section
variable (r : LineRecord)

theorem mem_visible {e : StrikeEntry} : e ∈ r.visible ↔ e ∈ r.entries ∧ e.pass ≠ .underscore := by
  unfold LineRecord.visible; rw [List.mem_filter]; simp

theorem visibleWords_spec : (∀ y ∈ r.visibleWords, y.runs) ∧ r.visibleWords.Pairwise (fun a b => a.right < b.left)
    ∧ r.visibleWords.flatMap (·.entries) = sortByPosition r.visible := by
  unfold LineRecord.visibleWords
  have hsorted := sortByPosition_sorted r.visible
  cases hl : sortByPosition r.visible with
  | nil => exact ⟨nofun, .nil, rfl⟩
  | cons e l =>
    rw [groupWords_none]
    obtain ⟨hruns, hpairs, hall⟩ := groupWords_spec (grouping.one (hl ▸ hsorted))
    exact ⟨fun y hy => (hruns y hy).1, hpairs, hall⟩

/-- R101: the visible entries are those of the words. -/
theorem mem_visibleWords {e : StrikeEntry} : (∃ v ∈ r.visibleWords, e ∈ v.entries) ↔ e ∈ r.entries ∧ e.pass ≠ .underscore := by
  rw [← mem_visible, ← mem_sortByPosition, ← (visibleWords_spec r).2.2, List.mem_flatMap]

/-- The ends of a word do not cross. -/
theorem PaperWord.runs.left_le_right {w : PaperWord} (h : w.runs) : w.left ≤ w.right := by
  obtain ⟨e, he, hl⟩ := h.left
  have h2 := (h.within e he).2
  omega

/-- Two words of a record stand apart. -/
theorem visibleWords_apart {a b : PaperWord} (ha : a ∈ r.visibleWords) (hb : b ∈ r.visibleWords) (hne : a ≠ b) :
    a.right < b.left ∨ b.right < a.left := by
  have hsymm : Std.Symm (fun a b : PaperWord => a.right < b.left ∨ b.right < a.left) := ⟨fun _ _ h => h.symm⟩
  have hpairs : r.visibleWords.Pairwise (fun a b => a.right < b.left ∨ b.right < a.left) :=
    (visibleWords_spec r).2.1.imp Or.inl
  exact hpairs.forall ha hb hne

/-- A word is known by its left end. -/
theorem visibleWords_left {a b : PaperWord} (ha : a ∈ r.visibleWords) (hb : b ∈ r.visibleWords) (h : a.left = b.left) :
    a = b := by
  by_contra hne
  have hal := ((visibleWords_spec r).1 a ha).left_le_right
  have hbl := ((visibleWords_spec r).1 b hb).left_le_right
  rcases visibleWords_apart r ha hb hne with hlt | hlt <;> omega

end

/-! ### The word of an underscore (R102) -/

/-- How much of an underscore lies under a word. -/
def shared (u : StrikeEntry) (w : PaperWord) : Nat := overlap u.position (u.position + u.width) w.left w.right

/-- R102: the word that this underscore overlaps most, the further left on a tie. -/
structure mostUnder (u : StrikeEntry) (words : List PaperWord) (b : PaperWord) : Prop where
  mem : b ∈ words
  overlaps : 0 < shared u b
  most : ∀ y ∈ words, shared u y ≤ shared u b
  tie : ∀ y ∈ words, shared u y = shared u b → b.left ≤ y.left

/-- What the search for the word has found among the words it has passed. -/
def foundUnder (u : StrikeEntry) (passed : List PaperWord) : Option PaperWord → Prop
  | none => ∀ y ∈ passed, shared u y = 0
  | some b => mostUnder u passed b

/-- How much of an underscore lies under the best word so far. -/
def bestShare (u : StrikeEntry) : Option PaperWord → Nat
  | none => 0
  | some b => shared u b

/-- The better of a word and the best before it. -/
def betterUnder (u : StrikeEntry) (best : Option PaperWord) (w : PaperWord) : Option PaperWord :=
  if bestShare u best < shared u w then some w else best

theorem wordOfUnderscore_eq (words : List PaperWord) (u : StrikeEntry) :
    wordOfUnderscore words u = words.foldl (betterUnder u) none := by
  unfold wordOfUnderscore
  refine congrArg (fun f => words.foldl f none) ?_
  funext best w
  cases best <;> rfl

theorem foundUnder.le {u : StrikeEntry} {passed : List PaperWord} {best : Option PaperWord}
    (h : foundUnder u passed best) : ∀ y ∈ passed, shared u y ≤ bestShare u best := by
  cases best with
  | none => exact fun y hy => (h y hy).le
  | some b => exact h.most

theorem betterUnder_found {u : StrikeEntry} {passed : List PaperWord} {best : Option PaperWord} {w : PaperWord}
    (h : foundUnder u passed best) (hw : ∀ y ∈ passed, y.left ≤ w.left) :
    foundUnder u (passed ++ [w]) (betterUnder u best w) := by
  have hcases {y : PaperWord} (hy : y ∈ passed ++ [w]) : y ∈ passed ∨ y = w :=
    (List.mem_append.1 hy).imp_right List.mem_singleton.1
  unfold betterUnder
  by_cases hlt : bestShare u best < shared u w
  · rw [if_pos hlt]
    have hless : ∀ y ∈ passed, shared u y < shared u w := fun y hy => (h.le y hy).trans_lt hlt
    refine ⟨List.mem_append_right _ (List.mem_singleton_self w), (Nat.zero_le _).trans_lt hlt, fun y hy => ?_,
      fun y hy he => ?_⟩
    · rcases hcases hy with hy | rfl
      · exact (hless y hy).le
      · exact le_refl _
    · rcases hcases hy with hy | rfl
      · exact absurd he (hless y hy).ne
      · exact le_refl _
  · rw [if_neg hlt]
    cases best with
    | none =>
      intro y hy
      rcases hcases hy with hy | rfl
      · exact h y hy
      · exact Nat.le_zero.1 (not_lt.1 hlt)
    | some b =>
      refine ⟨List.mem_append_left _ h.mem, h.overlaps, fun y hy => ?_, fun y hy he => ?_⟩
      · rcases hcases hy with hy | rfl
        · exact h.most y hy
        · exact not_lt.1 hlt
      · rcases hcases hy with hy | rfl
        · exact h.tie y hy he
        · exact hw b h.mem

theorem wordOfUnderscore_found {words : List PaperWord} (h : words.Pairwise (fun a b => a.left ≤ b.left)) (u : StrikeEntry) :
    foundUnder u words (wordOfUnderscore words u) := by
  have hfrom : ∀ (l passed : List PaperWord) (best : Option PaperWord), (passed ++ l).Pairwise (fun a b => a.left ≤ b.left) →
      foundUnder u passed best → foundUnder u (passed ++ l) (l.foldl (betterUnder u) best) := by
    intro l
    induction l with
    | nil => exact fun passed best _ hf => by rw [List.append_nil]; exact hf
    | cons w l ih =>
      intro passed best hp hf
      have hw : ∀ y ∈ passed, y.left ≤ w.left := fun y hy =>
        (List.pairwise_append.1 hp).2.2 y hy w List.mem_cons_self
      rw [List.append_cons] at hp ⊢
      exact ih _ _ hp (betterUnder_found hf hw)
  rw [wordOfUnderscore_eq]
  exact hfrom words [] none h nofun

/-! ### The words with their underscores (R102) -/

/-- A word of visible entries with the underscores of the record that belong to it. -/
def PaperWord.completed (r : LineRecord) (v : PaperWord) : PaperWord :=
  { v with entries := v.entries ++ r.entries.filter fun e =>
      e.pass == .underscore && (wordOfUnderscore r.visibleWords e).map (·.left) == some v.left }

section
variable {r : LineRecord}

theorem mem_words {w : PaperWord} : w ∈ r.words ↔ ∃ v ∈ r.visibleWords, v.completed r = w := List.mem_map

/-- A visible entry lies in a completed word as it lies in the word; an underscore when the word is found for it. -/
theorem mem_completed {v : PaperWord} {e : StrikeEntry} : e ∈ (v.completed r).entries ↔
    e ∈ v.entries ∨ (e ∈ r.entries ∧ e.pass = .underscore
      ∧ (wordOfUnderscore r.visibleWords e).map (·.left) = some v.left) := by
  unfold PaperWord.completed
  simp only [List.mem_append, List.mem_filter, Bool.and_eq_true, beq_iff_eq]

theorem visible_of_mem {v : PaperWord} (hv : v ∈ r.visibleWords) {e : StrikeEntry} (he : e ∈ v.entries) :
    e ∈ r.entries ∧ e.pass ≠ .underscore := (mem_visibleWords r).1 ⟨v, hv, he⟩

theorem completed_letters {v : PaperWord} (hv : v ∈ r.visibleWords) :
    (v.completed r).entries.filter (·.pass != .underscore) = v.entries := by
  have hletters : v.entries.filter (·.pass != .underscore) = v.entries :=
    List.filter_eq_self.2 fun e he => bne_iff_ne.2 (visible_of_mem hv he).2
  unfold PaperWord.completed
  refine List.filter_append .. |>.trans ?_
  rw [hletters, List.filter_filter, List.filter_eq_nil_iff.2, List.append_nil]
  intro e _ h
  simp only [Bool.and_eq_true, bne_iff_ne, beq_iff_eq] at h
  exact h.1 h.2.1

/-- The word found for an underscore is the one that it overlaps most. -/
theorem wordOfUnderscore_left_iff {v : PaperWord} (hv : v ∈ r.visibleWords) (u : StrikeEntry) :
    (wordOfUnderscore r.visibleWords u).map (·.left) = some v.left ↔ mostUnder u r.visibleWords v := by
  have hlefts : r.visibleWords.Pairwise (fun a b => a.left ≤ b.left) := by
    refine (visibleWords_spec r).2.1.imp_of_mem fun ha _ hlt => ?_
    exact ((visibleWords_spec r).1 _ ha).left_le_right.trans hlt.le
  have hfound := wordOfUnderscore_found hlefts u
  cases hw : wordOfUnderscore r.visibleWords u with
  | none =>
    rw [hw] at hfound
    exact ⟨nofun, fun h => absurd (hfound v hv) h.overlaps.ne'⟩
  | some b =>
    rw [hw] at hfound
    have hb : mostUnder u r.visibleWords b := hfound
    refine ⟨fun h => ?_, fun h => ?_⟩
    · rw [← visibleWords_left r hb.mem hv (Option.some.inj h)]; exact hb
    · have heq : shared u v = shared u b := (hb.most v hv).antisymm (h.most b hb.mem)
      exact congrArg some ((hb.tie v hv heq).antisymm (h.tie b hb.mem heq.symm))

/-- R101: a visible entry outside a word lies apart from it. -/
theorem visible_outside {v : PaperWord} (hv : v ∈ r.visibleWords) {e : StrikeEntry} (he : e ∈ r.entries)
    (hp : e.pass ≠ .underscore) (hout : e ∉ v.entries) :
    e.position + e.width < v.left ∨ v.right < e.position := by
  obtain ⟨b, hb, heb⟩ := (mem_visibleWords r).2 ⟨he, hp⟩
  obtain ⟨hl, hr⟩ := ((visibleWords_spec r).1 b hb).within e heb
  have hne : b ≠ v := fun h => hout (h ▸ heb)
  rcases visibleWords_apart r hb hv hne with h | h
  · exact .inl (hr.trans_lt h)
  · exact .inr (h.trans_le hl)

theorem words_apart : r.words.Pairwise (fun w y => w.right < y.left) :=
  List.pairwise_map.2 (visibleWords_spec r).2.1

/-- Every visible entry lies in a word. -/
theorem visible_in_words {e : StrikeEntry} (he : e ∈ r.entries) (hp : e.pass ≠ .underscore) :
    ∃ w ∈ r.words, e ∈ w.entries := by
  obtain ⟨v, hv, hev⟩ := (mem_visibleWords r).2 ⟨he, hp⟩
  exact ⟨_, mem_words.2 ⟨v, hv, rfl⟩, mem_completed.2 (.inl hev)⟩

/-- R102: an underscore lies in the word that it overlaps most. -/
theorem underscore_in_word {v : PaperWord} (hv : v ∈ r.visibleWords) {u : StrikeEntry} (hu : u ∈ r.entries)
    (hp : u.pass = .underscore) : u ∈ (v.completed r).entries ↔
      0 < shared u v ∧ ∀ y ∈ r.words, shared u y ≤ shared u v ∧ (shared u y = shared u v → v.left ≤ y.left) := by
  have hmost : u ∈ (v.completed r).entries ↔ mostUnder u r.visibleWords v := by
    rw [mem_completed, wordOfUnderscore_left_iff hv]
    exact ⟨fun h => h.elim (fun h => absurd hp (visible_of_mem hv h).2) (·.2.2), fun h => .inr ⟨hu, hp, h⟩⟩
  rw [hmost]
  refine ⟨fun h => ⟨h.overlaps, fun y hy => ?_⟩, fun ⟨h0, h⟩ => ⟨hv, h0, fun y hy => ?_, fun y hy => ?_⟩⟩
  · obtain ⟨b, hb, rfl⟩ := mem_words.1 hy
    exact ⟨h.most b hb, h.tie b hb⟩
  · exact (h _ (mem_words.2 ⟨y, hy, rfl⟩)).1
  · exact (h _ (mem_words.2 ⟨y, hy, rfl⟩)).2

/-- R101, R102: a word's letters run from its left end to its right end, no other visible entry touches it, and its
underscores are those that overlap it most. -/
theorem word_spec {w : PaperWord} (hw : w ∈ r.words) :
    let letters := w.entries.filter (·.pass != .underscore)
    (∀ e ∈ w.entries, e ∈ r.entries)
      ∧ (∃ e ∈ letters, e.position = w.left) ∧ (∃ e ∈ letters, e.position + e.width = w.right)
      ∧ (∀ e ∈ letters, w.left ≤ e.position ∧ e.position + e.width ≤ w.right
        ∧ (e.position = w.left ∨ ∃ y ∈ letters, y.position < e.position ∧ e.position ≤ y.position + y.width))
      ∧ (∀ e ∈ r.entries, e.pass ≠ .underscore → e ∉ w.entries →
        e.position + e.width < w.left ∨ w.right < e.position)
      ∧ (∀ u ∈ r.entries, u.pass = .underscore →
        let shared (y : PaperWord) := min (u.position + u.width) y.right - max u.position y.left
        (u ∈ w.entries ↔ 0 < shared w
          ∧ ∀ y ∈ r.words, shared y ≤ shared w ∧ (shared y = shared w → w.left ≤ y.left))) := by
  obtain ⟨v, hv, rfl⟩ := mem_words.1 hw
  obtain ⟨hleft, hright, hwithin, hjoined⟩ := (visibleWords_spec r).1 v hv
  dsimp only
  rw [completed_letters hv]
  refine ⟨fun e he => ?_, hleft, hright, fun e he => ⟨(hwithin e he).1, (hwithin e he).2, hjoined e he⟩,
    fun e he hp hout => visible_outside hv he hp fun hin => hout (mem_completed.2 (.inl hin)),
    fun u hu hp => underscore_in_word hv hu hp⟩
  exact (mem_completed.1 he).elim (fun h => (visible_of_mem hv h).1) (·.1)

end

end Sys2Proof.Machine

/-! SUPPORT. The target of a correction (R112 to R114), its checks in order (R115), and the orders that lift it (R116). -/

namespace Sys2Proof.Machine

/-! ### The newest stroke group (R112) -/

/-- R112: going back from the newest entry, the group runs on through one cell until its Main entry or another cell. -/
theorem groupBack_spec (cell : Nat) (l : List StrikeEntry) :
    (∀ e ∈ groupBack cell l, e.cell = cell) ∧ (∀ e ∈ (groupBack cell l).dropLast, e.pass ≠ .main)
      ∧ ∃ behind, l = groupBack cell l ++ behind ∧ ((∃ e, (groupBack cell l).getLast? = some e ∧ e.pass = .main)
        ∨ ∀ y, behind.head? = some y → y.cell ≠ cell) := by
  induction l with
  | nil => exact ⟨nofun, nofun, [], rfl, .inr nofun⟩
  | cons e l ih =>
    unfold groupBack
    by_cases hc : e.cell = cell
    · rw [if_pos hc]
      by_cases hm : e.pass = .main
      · rw [if_pos hm]
        exact ⟨fun x hx => List.mem_singleton.1 hx ▸ hc, nofun, l, rfl, .inl ⟨e, rfl, hm⟩⟩
      · rw [if_neg hm]
        obtain ⟨hcell, hpass, behind, hl, hend⟩ := ih
        refine ⟨List.forall_mem_cons.2 ⟨hc, hcell⟩, ?_, behind, congrArg (e :: ·) hl,
          hend.imp_left fun ⟨x, hx, hxm⟩ => ⟨x, by rw [List.getLast?_cons, hx]; rfl, hxm⟩⟩
        cases hg : groupBack cell l with
        | nil => exact nofun
        | cons x g => exact List.forall_mem_cons.2 ⟨hm, hg ▸ hpass⟩
    · rw [if_neg hc]
      exact ⟨nofun, nofun, e :: l, rfl, .inr fun y hy => Option.some.inj hy ▸ hc⟩

/-- R112: the newest stroke group of a record. -/
theorem newestGroup_spec (r : LineRecord) :
    newestGroup r <:+ r.entries ∧ (∀ e ∈ newestGroup r, ∀ e' ∈ newestGroup r, e.cell = e'.cell)
      ∧ (∀ e ∈ (newestGroup r).drop 1, e.pass ≠ .main)
      ∧ (r.entries ≠ [] → ∃ e, (newestGroup r).head? = some e ∧ (e.pass = .main
        ∨ ∀ y, (r.entries.take (r.entries.length - (newestGroup r).length)).getLast? = some y → y.cell ≠ e.cell)) := by
  unfold newestGroup
  cases hr : r.entries.reverse with
  | nil => exact ⟨List.nil_suffix, nofun, nofun, fun h => absurd (List.reverse_eq_nil_iff.1 hr) h⟩
  | cons n l =>
    dsimp only
    obtain ⟨hcell, hpass, behind, hl, hend⟩ := groupBack_spec n.cell (n :: l)
    have hne : groupBack n.cell (n :: l) ≠ [] := by
      unfold groupBack
      rw [if_pos rfl]
      split <;> exact List.cons_ne_nil _ _
    generalize groupBack n.cell (n :: l) = group at hcell hpass hl hend hne ⊢
    have hentries : r.entries = behind.reverse ++ group.reverse := by
      rw [← List.reverse_append, ← hl, ← hr, List.reverse_reverse]
    refine ⟨⟨behind.reverse, hentries.symm⟩, fun e he e' he' => ?_, fun e he => hpass e ?_, fun _ => ?_⟩
    · rw [hcell e (List.mem_reverse.1 he), hcell e' (List.mem_reverse.1 he')]
    · rw [List.drop_one, List.tail_reverse] at he
      exact List.mem_reverse.1 he
    · have hlast := List.getLast?_eq_some_getLast hne
      have hbefore : r.entries.take (r.entries.length - group.reverse.length) = behind.reverse := by
        rw [hentries, List.length_append, Nat.add_sub_cancel, List.take_left']
        rfl
      refine ⟨_, List.head?_reverse.trans hlast, ?_⟩
      rw [hbefore, List.getLast?_reverse, hcell _ (List.getLast_mem hne)]
      exact hend.imp_left fun ⟨x, hx, hxm⟩ => Option.some.inj (hlast.symm.trans hx) ▸ hxm

/-! ### The anchor of Lift Word (R112) -/

/-- The rightmost of an entry and the best before it, the newer one at equal position. -/
def furtherRight (best : Option StrikeEntry) (e : StrikeEntry) : Option StrikeEntry :=
  match best with
  | none => some e
  | some b => if b.position ≤ e.position then some e else best

/-- The rightmost entry of a list, the newest of them at equal position. -/
def isRightmost (l : List StrikeEntry) : Option StrikeEntry → Prop
  | none => l = []
  | some b => b ∈ l ∧ (∀ y ∈ l, y.position ≤ b.position) ∧ (l.filter (·.position == b.position)).getLast? = some b

theorem furtherRight_rightmost {l : List StrikeEntry} {best : Option StrikeEntry} (h : isRightmost l best)
    (e : StrikeEntry) : isRightmost (l ++ [e]) (furtherRight best e) := by
  have hnew : isRightmost (l ++ [e]) (some e) ↔ ∀ y ∈ l, y.position ≤ e.position := by
    refine ⟨fun ⟨_, h, _⟩ y hy => h y (List.mem_append_left _ hy), fun h => ⟨by simp, fun y hy => ?_, ?_⟩⟩
    · rcases List.mem_append.1 hy with hy | hy
      · exact h y hy
      · exact (List.mem_singleton.1 hy).symm ▸ le_refl _
    · rw [List.filter_append, List.getLast?_append]; simp
  cases best with
  | none => exact hnew.2 (by rw [show l = [] from h]; exact nofun)
  | some b =>
    obtain ⟨hb, hmost, hlast⟩ := h
    by_cases hle : b.position ≤ e.position
    · rw [furtherRight, if_pos hle]
      exact hnew.2 fun y hy => (hmost y hy).trans hle
    · rw [furtherRight, if_neg hle]
      refine ⟨List.mem_append_left _ hb, fun y hy => ?_, ?_⟩
      · rcases List.mem_append.1 hy with hy | hy
        · exact hmost y hy
        · rw [List.mem_singleton.1 hy]; omega
      · have hout : [e].filter (·.position == b.position) = [] := by
          refine List.filter_eq_nil_iff.2 fun y hy => ?_
          rw [List.mem_singleton.1 hy, beq_iff_eq]; omega
        rw [List.filter_append, hout, List.append_nil, hlast]

theorem rightmost_of_fold (l : List StrikeEntry) : isRightmost l (l.foldl furtherRight none) := by
  have hfrom : ∀ (l passed : List StrikeEntry) (best : Option StrikeEntry), isRightmost passed best →
      isRightmost (passed ++ l) (l.foldl furtherRight best) := by
    intro l
    induction l with
    | nil => exact fun passed best h => by rw [List.append_nil]; exact h
    | cons e l ih =>
      intro passed best h
      rw [List.append_cons]
      exact ih _ _ (furtherRight_rightmost h e)
  exact hfrom l [] none rfl

section
variable {r : LineRecord}

/-- R112: the anchor with a reference is the rightmost visible entry left of it. -/
theorem anchorOf_rightmost (x : Nat) : isRightmost (r.visible.filter (·.position < x)) (anchorOf r (some x)) := by
  have hfold : anchorOf r (some x) = (r.visible.filter (·.position < x)).foldl furtherRight none := by
    refine congrArg (fun f => List.foldl f none (r.visible.filter (·.position < x))) ?_
    funext best e
    cases best <;> rfl
  rw [hfold]; exact rightmost_of_fold _

/-- What the anchor is: the newest visible entry, or the rightmost one left of the reference. -/
theorem anchorOf_some {reference : Option Nat} {e : StrikeEntry} (h : anchorOf r reference = some e) :
    e ∈ r.entries ∧ e.pass ≠ .underscore
      ∧ (reference = none → (r.entries.filter (·.pass != .underscore)).getLast? = some e)
      ∧ (∀ x, reference = some x → e.position < x
        ∧ (∀ y ∈ r.entries, y.pass ≠ .underscore → y.position < x → y.position ≤ e.position)
        ∧ (r.entries.filter fun y => y.pass != .underscore && y.position == e.position).getLast? = some e) := by
  cases reference with
  | none =>
    obtain ⟨he, hp⟩ := (mem_visible r).1 (List.mem_of_getLast? h)
    exact ⟨he, hp, fun _ => h, nofun⟩
  | some x =>
    have hbest := anchorOf_rightmost (r := r) x
    rw [h] at hbest
    obtain ⟨hmem, hmost, hlast⟩ := hbest
    obtain ⟨hvisible, hlt⟩ := List.mem_filter.1 hmem
    have hlt : e.position < x := of_decide_eq_true hlt
    obtain ⟨he, hp⟩ := (mem_visible r).1 hvisible
    refine ⟨he, hp, nofun, fun x' hx => ?_⟩
    obtain rfl := Option.some.inj hx
    refine ⟨hlt, fun y hy hyp hyx => hmost y (List.mem_filter.2 ⟨(mem_visible r).2 ⟨hy, hyp⟩, decide_eq_true hyx⟩), ?_⟩
    rw [← hlast, LineRecord.visible, List.filter_filter, List.filter_filter]
    refine congrArg List.getLast? (List.filter_congr fun y _ => ?_)
    by_cases hy : y.position = e.position
    · rw [hy, decide_eq_true hlt, beq_self_eq_true, Bool.and_true, Bool.true_and, Bool.true_and]
    · rw [beq_eq_false_iff_ne.2 hy, Bool.and_false, Bool.false_and, Bool.false_and]

/-- With no anchor there is a reference, and no visible entry lies left of it. -/
theorem anchorOf_none {reference : Option Nat} (h : anchorOf r reference = none) {y : StrikeEntry} (hy : y ∈ r.entries)
    (hp : y.pass ≠ .underscore) : ∃ x, reference = some x ∧ x ≤ y.position := by
  have hvisible := (mem_visible r).2 ⟨hy, hp⟩
  cases reference with
  | none =>
    have hnil : r.visible = [] := List.getLast?_eq_none_iff.1 h
    exact absurd hvisible (hnil ▸ List.not_mem_nil)
  | some x =>
    have hbest := anchorOf_rightmost (r := r) x
    rw [h] at hbest
    refine ⟨x, rfl, not_lt.1 fun hlt => ?_⟩
    have hmem : y ∈ r.visible.filter (·.position < x) := List.mem_filter.2 ⟨hvisible, decide_eq_true hlt⟩
    rw [show r.visible.filter (·.position < x) = [] from hbest] at hmem
    exact List.not_mem_nil hmem

end

/-! ### The target of each command (R112, R113) -/

section
variable {c : Correction} {s : State}

theorem findTarget_last (h : c.command = .last) :
    findTarget c s = s.memory.current.map fun r => ⟨r, newestGroup r, none⟩ := by rw [findTarget, h]

theorem findTarget_line (h : c.command = .line) :
    findTarget c s = s.memory.current.map fun r => ⟨r, r.entries, none⟩ := by rw [findTarget, h]

theorem findTarget_word (h : c.command = .word) : findTarget c s =
    s.memory.current.bind fun r => (anchorOf r c.reference).bind fun e => wordTarget r (r.wordOf e) := by
  rw [findTarget, h]
  cases s.memory.current with
  | none => rfl
  | some r =>
    dsimp only [Option.bind_some]
    cases anchorOf r c.reference <;> rfl

theorem findTarget_back (h : c.command = .back) : findTarget c s =
    (s.memory.back c.offset).bind fun r => wordTarget r (r.wordAt c.position) := by
  rw [findTarget, h]
  cases s.memory.back c.offset <;> rfl

/-- R113: a record that Retract may lift. -/
def retractable (s : State) (r : LineRecord) : Bool := r.source == .link && withinReach s.engine.platen r

theorem retractable_iff {r : LineRecord} : retractable s r = true ↔ r.source = .link ∧ withinReach s.engine.platen r = true := by
  rw [retractable, Bool.and_eq_true, beq_iff_eq]

theorem findTarget_retract (h : c.command = .retract) : findTarget c s =
    (s.memory.records.reverse.find? (retractable s)).map fun r => ⟨r, r.entries, none⟩ := by rw [findTarget, h]; rfl

theorem wordTarget_some {r : LineRecord} {w : Option PaperWord} {g : Target} (h : wordTarget r w = some g) :
    ∃ x, w = some x ∧ g.record = r ∧ g.word = some x ∧ g.entries = g.record.entries.filter (x.entries.contains ·) := by
  obtain ⟨x, hx, rfl⟩ := Option.map_eq_some_iff.1 h
  exact ⟨x, hx, rfl, rfl, rfl⟩

theorem findTarget_last_some {g : Target} (hf : findTarget c s = some g) (h : c.command = .last) :
    s.memory.current = some g.record ∧ g.entries = newestGroup g.record := by
  rw [findTarget_last h] at hf
  obtain ⟨r, hr, rfl⟩ := Option.map_eq_some_iff.1 hf
  exact ⟨hr, rfl⟩

theorem findTarget_line_some {g : Target} (hf : findTarget c s = some g) (h : c.command = .line) :
    s.memory.current = some g.record ∧ g.entries = g.record.entries := by
  rw [findTarget_line h] at hf
  obtain ⟨r, hr, rfl⟩ := Option.map_eq_some_iff.1 hf
  exact ⟨hr, rfl⟩

/-- R112: Lift Word lifts the word of its anchor. -/
theorem findTarget_word_some {g : Target} (hf : findTarget c s = some g) (h : c.command = .word) :
    s.memory.current = some g.record ∧ ∃ e w, anchorOf g.record c.reference = some e
      ∧ g.record.wordOf e = some w ∧ g.word = some w ∧ g.entries = g.record.entries.filter (w.entries.contains ·) := by
  rw [findTarget_word h] at hf
  obtain ⟨r, hr, ha⟩ := Option.bind_eq_some_iff.1 hf
  obtain ⟨e, he, hw⟩ := Option.bind_eq_some_iff.1 ha
  obtain ⟨w, hword, rfl, hgw, hge⟩ := wordTarget_some hw
  exact ⟨hr, e, w, he, hword, hgw, hge⟩

/-- R113: Lift Back lifts the word at its position. -/
theorem findTarget_back_some {g : Target} (hf : findTarget c s = some g) (h : c.command = .back) :
    s.memory.back c.offset = some g.record ∧ ∃ w, g.record.wordAt c.position = some w
      ∧ g.word = some w ∧ g.entries = g.record.entries.filter (w.entries.contains ·) := by
  rw [findTarget_back h] at hf
  obtain ⟨r, hr, ha⟩ := Option.bind_eq_some_iff.1 hf
  obtain ⟨w, hword, rfl, hgw, hge⟩ := wordTarget_some ha
  exact ⟨hr, w, hword, hgw, hge⟩

/-- R113: Retract lifts the newest record of the link within reach. -/
theorem findTarget_retract_some {g : Target} (hf : findTarget c s = some g) (h : c.command = .retract) :
    g.record.source = .link ∧ withinReach s.engine.platen g.record = true ∧ g.entries = g.record.entries
      ∧ ∃ older newer, s.memory.records = older ++ g.record :: newer
        ∧ ∀ r ∈ newer, ¬ (r.source = .link ∧ withinReach s.engine.platen r = true) := by
  rw [findTarget_retract h] at hf
  obtain ⟨r, hr, rfl⟩ := Option.map_eq_some_iff.1 hf
  obtain ⟨hp, newer, older, hsplit, hnot⟩ := List.find?_eq_some_iff_append.1 hr
  obtain ⟨hlink, hreach⟩ := retractable_iff.1 hp
  refine ⟨hlink, hreach, rfl, older.reverse, newer.reverse, ?_, fun x hx hxr => ?_⟩
  · have h2 := congrArg List.reverse hsplit
    rw [List.reverse_reverse] at h2
    rw [h2]; simp
  · have hx2 := hnot x (List.mem_reverse.1 hx)
    rw [retractable_iff.2 hxr] at hx2
    exact absurd hx2 (by decide)

theorem wordOf_some {r : LineRecord} {e : StrikeEntry} {w : PaperWord} (h : r.wordOf e = some w) :
    w ∈ r.words ∧ e ∈ w.entries :=
  ⟨List.mem_of_find?_eq_some h, List.contains_iff_mem.1 (List.find?_some (p := fun w : PaperWord => w.entries.contains e) h)⟩

theorem wordOf_visible {r : LineRecord} {e : StrikeEntry} (he : e ∈ r.entries) (hp : e.pass ≠ .underscore) :
    r.wordOf e ≠ none := by
  obtain ⟨w, hw, hew⟩ := visible_in_words he hp
  exact fun h => List.find?_eq_none.1 h w hw (List.contains_iff_mem.2 hew)

theorem wordAt_some {r : LineRecord} {x : Nat} {w : PaperWord} (h : r.wordAt x = some w) :
    w ∈ r.words ∧ w.left ≤ x ∧ x < w.right := by
  have hp := List.find?_some (p := fun w : PaperWord => w.left ≤ x && x < w.right) h
  simp only [Bool.and_eq_true, decide_eq_true_eq] at hp
  exact ⟨List.mem_of_find?_eq_some h, hp⟩

theorem wordAt_none {r : LineRecord} {x : Nat} (h : r.wordAt x = none) :
    ∀ w ∈ r.words, ¬ (w.left ≤ x ∧ x < w.right) := fun w hw hx =>
  List.find?_eq_none.1 h w hw (by simp only [Bool.and_eq_true, decide_eq_true_eq]; exact hx)

theorem wordTarget_none {r : LineRecord} {w : Option PaperWord} (h : wordTarget r w = none) : w = none :=
  Option.map_eq_none_iff.1 h

end

end Sys2Proof.Machine

/-! SUPPORT. The checks of a correction in order (R115) and the orders that lift its target (R116). -/

namespace Sys2Proof.Machine

/-! ### The checks in order (R115) -/

section
variable (c : LiftCommand) (g : Target) (behind : List Job) (s : State)

/-- R115: there is a target, within reach, and complete. -/
def targetFound : Prop :=
  g.entries ≠ [] ∧ (c = .retract ∨ withinReach s.engine.platen g.record = true) ∧ targetIncomplete c g = false

def lineHandable : Prop := c = .back → lineCanBeHanded s behind = true

def wheelMatches : Prop := ∀ e ∈ g.entries, s.engine.petalMap.map (·.wheelId) = some e.wheelId

def allLiftable : Prop := ∀ e ∈ g.entries, e.liftable = true

def tapeSuffices : Prop := g.entries.length ≤ s.engine.tape

open Classical in
/-- R115: the reason is that of the first check that fails. -/
theorem liftCheck_eq : liftCheck c g behind s =
    if ¬ targetFound c g s then some .noTarget
    else if ¬ lineHandable c behind s then some .lineHeld
    else if ¬ wheelMatches g s then some .wrongWheel
    else if ¬ allLiftable g then some .unliftable
    else if ¬ tapeSuffices g s then some .tapeOut
    else none := by
  have hempty : g.entries.isEmpty = true ↔ ¬ g.entries ≠ [] := by rw [List.isEmpty_iff, not_not]
  have hreach : (c != .retract && !withinReach s.engine.platen g.record) = true
      ↔ ¬ (c = .retract ∨ withinReach s.engine.platen g.record = true) := by simp
  have hincomplete : targetIncomplete c g = true ↔ ¬ targetIncomplete c g = false := by simp
  have hhanded : (c == .back && !lineCanBeHanded s behind) = true ↔ ¬ lineHandable c behind s := by simp [lineHandable]
  have hwheel : (!g.entries.all fun e => (s.engine.petalMap.map (·.wheelId)) == some e.wheelId) = true
      ↔ ¬ wheelMatches g s := by simp [wheelMatches]
  have hliftable : (!g.entries.all (·.liftable)) = true ↔ ¬ allLiftable g := by simp [allLiftable]
  have htape : s.engine.tape < g.entries.length ↔ ¬ tapeSuffices g s := by rw [tapeSuffices, not_le]
  unfold liftCheck
  simp only [hempty, hreach, hincomplete, hhanded, hwheel, hliftable, htape, targetFound, not_and_or, ite_or]

/-- R115: each refusal, and the way through, by the checks that hold and the first that fails. -/
theorem liftCheck_iff :
    (liftCheck c g behind s = some .noTarget ↔ ¬ targetFound c g s)
      ∧ (liftCheck c g behind s = some .lineHeld ↔ targetFound c g s ∧ ¬ lineHandable c behind s)
      ∧ (liftCheck c g behind s = some .wrongWheel
        ↔ targetFound c g s ∧ lineHandable c behind s ∧ ¬ wheelMatches g s)
      ∧ (liftCheck c g behind s = some .unliftable
        ↔ targetFound c g s ∧ lineHandable c behind s ∧ wheelMatches g s ∧ ¬ allLiftable g)
      ∧ (liftCheck c g behind s = some .tapeOut
        ↔ targetFound c g s ∧ lineHandable c behind s ∧ wheelMatches g s ∧ allLiftable g ∧ ¬ tapeSuffices g s)
      ∧ (liftCheck c g behind s = none
        ↔ targetFound c g s ∧ lineHandable c behind s ∧ wheelMatches g s ∧ allLiftable g ∧ tapeSuffices g s) := by
  rw [liftCheck_eq]
  by_cases hf : targetFound c g s
  · by_cases hh : lineHandable c behind s
    · by_cases hw : wheelMatches g s
      · by_cases hl : allLiftable g
        · by_cases ht : tapeSuffices g s
          · simp [hf, hh, hw, hl, ht]
          · simp [hf, hh, hw, hl, ht]
        · simp [hf, hh, hw, hl]
      · simp [hf, hh, hw]
    · simp [hf, hh]
  · simp [hf]

end

/-- R115: what passes the checks has targets. -/
theorem entries_of_liftCheck_none {c : LiftCommand} {g : Target} {behind : List Job} {s : State}
    (h : liftCheck c g behind s = none) : g.entries ≠ [] := by
  obtain ⟨-, -, -, -, -, hpasses⟩ := liftCheck_iff c g behind s
  obtain ⟨⟨hne, -⟩, -⟩ := hpasses.1 h
  exact hne

/-! ### The Feeds of a distance (R116) -/

/-- How far an order feeds. -/
def feedLength : Order → Int
  | .feed n => n
  | _ => 0

/-- What an order lifts. -/
def liftedEntry : Order → Option StrikeEntry
  | .lift _ e => some e
  | _ => none

theorem feedsOf_short {d : Int} (h : d.natAbs ≤ 20) : feedsOf d = [.feed d] := if_pos h

/-- A long distance is whole Feeds of 20 in its direction, and what is left of it. -/
theorem feedsOf_long {d : Int} (h : ¬ d.natAbs ≤ 20) : ∃ rest : Int,
    feedsOf d = List.replicate (d.natAbs / 20) (.feed (if 0 < d then 20 else -20))
      ++ (if d.natAbs % 20 = 0 then [] else [.feed rest])
      ∧ rest.natAbs < 20 ∧ (d.natAbs / 20 : Nat) * (if 0 < d then 20 else -20) + rest = d
      ∧ (d.natAbs % 20 = 0 → rest = 0) := by
  unfold feedsOf
  rw [if_neg h]
  rcases lt_or_ge d 0 with hd | hd
  · refine ⟨-((d.natAbs % 20 : Nat) : Int), ?_, by omega, by rw [if_neg (by omega)]; omega, by omega⟩
    rw [if_neg (not_lt.2 hd.le)]
    simp only [if_neg (not_le.2 hd)]
    rfl
  · refine ⟨(d.natAbs % 20 : Nat), ?_, by omega, by rw [if_pos (by omega)]; omega, by omega⟩
    rw [if_pos (show 0 < d by omega)]
    simp only [if_pos hd]
    rfl

theorem feedsOf_ne_nil (d : Int) : feedsOf d ≠ [] := by
  by_cases h : d.natAbs ≤ 20
  · rw [feedsOf_short h]; exact List.cons_ne_nil _ _
  · obtain ⟨rest, hl, -⟩ := feedsOf_long h
    rw [hl]
    refine List.append_ne_nil_of_left_ne_nil (fun hz => ?_) _
    rw [List.replicate_eq_nil_iff] at hz
    omega

theorem feedsOf_feed (d : Int) : ∀ o ∈ feedsOf d, ∃ n, o = .feed n ∧ n.natAbs ≤ 20 := by
  intro o ho
  by_cases h : d.natAbs ≤ 20
  · rw [feedsOf_short h] at ho
    exact ⟨d, List.mem_singleton.1 ho, h⟩
  · obtain ⟨rest, hl, hrest, -⟩ := feedsOf_long h
    rw [hl] at ho
    rcases List.mem_append.1 ho with ho | ho
    · exact ⟨_, List.eq_of_mem_replicate ho, by split <;> decide⟩
    · split at ho
      · exact absurd ho List.not_mem_nil
      · exact ⟨rest, List.mem_singleton.1 ho, hrest.le⟩

theorem feedsOf_sum (d : Int) : ((feedsOf d).map feedLength).sum = d := by
  by_cases h : d.natAbs ≤ 20
  · rw [feedsOf_short h]; exact List.sum_singleton
  · obtain ⟨rest, hl, -, hsum, hzero⟩ := feedsOf_long h
    have hlast : ((if d.natAbs % 20 = 0 then [] else [Order.feed rest]).map feedLength).sum = rest := by
      by_cases h0 : d.natAbs % 20 = 0
      · rw [if_pos h0, hzero h0]; rfl
      · rw [if_neg h0]; exact List.sum_singleton
    rw [hl, List.map_append, List.sum_append, hlast, List.map_replicate, List.sum_replicate, nsmul_eq_mul]
    exact hsum

theorem feedsOf_dropLast (d : Int) : ∀ o ∈ (feedsOf d).dropLast, o = .feed (if 0 < d then 20 else -20) := by
  intro o ho
  by_cases h : d.natAbs ≤ 20
  · rw [feedsOf_short h] at ho
    exact absurd ho List.not_mem_nil
  · obtain ⟨rest, hl, -⟩ := feedsOf_long h
    rw [hl] at ho
    by_cases h0 : d.natAbs % 20 = 0
    · rw [if_pos h0, List.append_nil] at ho
      exact List.eq_of_mem_replicate (List.mem_of_mem_dropLast ho)
    · rw [if_neg h0, List.dropLast_concat] at ho
      exact List.eq_of_mem_replicate ho

/-! ### The orders of a correction (R116) -/

/-- Orders that feed by this distance in Feeds of at most 20 and lift these entries of a record. -/
structure feedsAndLifts (record : Nat) (orders : List Order) (distance : Int) (lifts : List StrikeEntry) : Prop where
  small : ∀ n, Order.feed n ∈ orders → n.natAbs ≤ 20
  sum : (orders.map feedLength).sum = distance
  kinds : ∀ o ∈ orders, (∃ n, o = .feed n) ∨ ∃ e, o = .lift record e
  lifted : orders.filterMap liftedEntry = lifts

section
variable {record : Nat} {a b : List Order} {d d' : Int} {l l' : List StrikeEntry}

theorem feedsAndLifts.append (h : feedsAndLifts record a d l) (h' : feedsAndLifts record b d' l') :
    feedsAndLifts record (a ++ b) (d + d') (l ++ l') where
  small n hn := (List.mem_append.1 hn).elim (h.small n) (h'.small n)
  sum := by rw [List.map_append, List.sum_append, h.sum, h'.sum]
  kinds o ho := (List.mem_append.1 ho).elim (h.kinds o) (h'.kinds o)
  lifted := by rw [List.filterMap_append, h.lifted, h'.lifted]

theorem feedsAndLifts_feeds (record : Nat) (d : Int) : feedsAndLifts record (feedsOf d) d [] where
  small n hn := by
    obtain ⟨m, hm, hsmall⟩ := feedsOf_feed d _ hn
    injection hm with hm
    exact hm ▸ hsmall
  sum := feedsOf_sum d
  kinds o ho := by
    obtain ⟨n, hn, -⟩ := feedsOf_feed d o ho
    exact .inl ⟨n, hn⟩
  lifted := List.filterMap_eq_nil_iff.2 fun o ho => by
    obtain ⟨n, rfl, -⟩ := feedsOf_feed d o ho
    rfl

theorem feedsAndLifts_lift (record : Nat) (e : StrikeEntry) : feedsAndLifts record [.lift record e] 0 [e] where
  small _ hn := nomatch List.mem_singleton.1 hn
  sum := rfl
  kinds _ ho := .inr ⟨e, List.mem_singleton.1 ho⟩
  lifted := rfl

theorem feedsAndLifts_nil (record : Nat) : feedsAndLifts record [] 0 [] := ⟨nofun, rfl, nofun, rfl⟩

end

theorem liftOrders_cons (r : LineRecord) (h : Int) (e : StrikeEntry) (l : List StrikeEntry) :
    liftOrders r h (e :: l) = ((if liftHeight r e = h then [] else feedsOf (liftHeight r e - h))
      ++ ([.lift r.name e] ++ (liftOrders r (liftHeight r e) l).1), (liftOrders r (liftHeight r e) l).2) := rfl

theorem liftOrders_lifts (r : LineRecord) (h : Int) (l : List StrikeEntry) :
    feedsAndLifts r.name (liftOrders r h l).1 ((liftOrders r h l).2 - h) l := by
  induction l generalizing h with
  | nil => exact (sub_self h).symm ▸ feedsAndLifts_nil r.name
  | cons e l ih =>
    rw [liftOrders_cons]
    have hfeed : feedsAndLifts r.name (if liftHeight r e = h then [] else feedsOf (liftHeight r e - h))
        (liftHeight r e - h) [] := by
      split
      · rename_i heq
        rw [heq, sub_self]; exact feedsAndLifts_nil _
      · exact feedsAndLifts_feeds _ _
    have hall := hfeed.append ((feedsAndLifts_lift r.name e).append (ih (liftHeight r e)))
    rw [show liftHeight r e - h + (0 + ((liftOrders r (liftHeight r e) l).2 - liftHeight r e))
      = (liftOrders r (liftHeight r e) l).2 - h by omega] at hall
    exact hall

section
variable (c : LiftCommand) {g : Target} (platen : Int)

/-- The height that the orders of a correction end at. -/
def homeHeight (g : Target) : Int := if c = .back then g.record.vertical else platen

/-- The targets in the order they are lifted in begin with one. -/
theorem liftedTargets_cons (h : g.entries ≠ []) : ∃ e l, (sortByPosition g.entries).reverse = e :: l := by
  obtain ⟨e, he⟩ := List.exists_mem_of_ne_nil _ h
  exact List.exists_cons_of_ne_nil (List.ne_nil_of_mem (List.mem_reverse.2 (mem_sortByPosition.2 he)))

/-- R116: to the height of the first target, through the targets, and home. -/
theorem correctionOrders_cons {e : StrikeEntry} {l : List StrikeEntry} (h : (sortByPosition g.entries).reverse = e :: l) :
    correctionOrders c g platen = feedsOf (liftHeight g.record e - platen)
      ++ (liftOrders g.record (liftHeight g.record e) (e :: l)).1
      ++ feedsOf (homeHeight c platen g - (liftOrders g.record (liftHeight g.record e) (e :: l)).2) := by
  unfold correctionOrders; rw [h]; rfl

theorem correctionOrders_eq (h : g.entries ≠ []) : ∃ (first last : Int) (middle : List Order),
    correctionOrders c g platen = feedsOf (first - platen) ++ middle ++ feedsOf (homeHeight c platen g - last)
      ∧ feedsAndLifts g.record.name middle (last - first) (sortByPosition g.entries).reverse := by
  obtain ⟨e, l, ht⟩ := liftedTargets_cons h
  refine ⟨_, _, _, correctionOrders_cons c platen ht, ?_⟩
  rw [ht]; exact liftOrders_lifts g.record (liftHeight g.record e) (e :: l)

/-- R116: from the platen to the targets, right to left, and home. -/
theorem correctionOrders_lifts (h : g.entries ≠ []) : feedsAndLifts g.record.name (correctionOrders c g platen)
    (homeHeight c platen g - platen) (sortByPosition g.entries).reverse := by
  obtain ⟨first, last, middle, ho, hm⟩ := correctionOrders_eq c platen h
  have hall := ((feedsAndLifts_feeds g.record.name (first - platen)).append hm).append
    (feedsAndLifts_feeds g.record.name (homeHeight c platen g - last))
  rw [← ho, List.nil_append, List.append_nil,
    show first - platen + (last - first) + (homeHeight c platen g - last) = homeHeight c platen g - platen by omega] at hall
  exact hall

theorem correctionOrders_ends (h : g.entries ≠ []) : (∃ n, (correctionOrders c g platen).head? = some (.feed n))
    ∧ ∃ n, (correctionOrders c g platen).getLast? = some (.feed n) := by
  obtain ⟨first, last, middle, ho, -⟩ := correctionOrders_eq c platen h
  rw [ho]
  constructor
  · obtain ⟨n, hn, -⟩ := feedsOf_feed (first - platen) _ (List.head_mem (feedsOf_ne_nil _))
    refine ⟨n, ?_⟩
    rw [List.append_assoc, List.head?_append_of_ne_nil _ (feedsOf_ne_nil _), List.head?_eq_some_head (feedsOf_ne_nil _), hn]
  · obtain ⟨n, hn, -⟩ := feedsOf_feed (homeHeight c platen g - last) _ (List.getLast_mem (feedsOf_ne_nil _))
    refine ⟨n, ?_⟩
    rw [List.getLast?_append_of_ne_nil _ (feedsOf_ne_nil _), List.getLast?_eq_some_getLast (feedsOf_ne_nil _), hn]

/-- R116: from right to left, at equal position the newest first. -/
theorem liftedRightToLeft (l : List StrikeEntry) :
    (sortByPosition l).reverse.Pairwise (fun a b => b.position ≤ a.position)
      ∧ ∀ x, (sortByPosition l).reverse.filter (·.position == x) = (l.filter (·.position == x)).reverse := by
  refine ⟨List.pairwise_reverse.2 (sortByPosition_sorted l), fun x => ?_⟩
  rw [List.filter_reverse, sortByPosition_filter]

end

end Sys2Proof.Machine

/-! SUPPORT. The start of the job at the head of the Print Queue (R67, R69, R88, R115, R120, R121, R123). -/

namespace Sys2Proof.Machine

/-! ### JOB_START -/

section
variable {s : State} {j : Job} {rest : List Job} {o : Order} {n : Nat}

/-- R67: in Ready with the map Loaded the engine goes on with the job that waits. -/
theorem jobStart_goesOn (hs : s.engine.state = .ready) (hm : s.engine.petalMap.isSome = true)
    (hq : s.engine.queue = j :: rest) : exec .jobStart s = .next (endStep (goOn s)) := by
  have hready : startJob s = goOn s := if_pos (by rw [hs, hm, hq]; rfl)
  show Host.Outcome.next (endStep (startJob s)) = _
  rw [hready]

/-- Without its conditions the start does nothing (log entry 3). -/
theorem jobStart_idle (h : s.engine.state ≠ .ready ∨ s.engine.petalMap = none ∨ s.engine.queue = []) :
    exec .jobStart s = .next (endStep s) := by
  have hidle : startJob s = s := by
    refine if_neg ?_
    rcases h with h | h | h <;> simp [h]
  show Host.Outcome.next (endStep (startJob s)) = _
  rw [hidle]

/-- R67: the state with the head job started, as it is then. -/
def startedWith (i : Job) (rest : List Job) (s : State) : State :=
  { s with engine := { s.engine with queue := i :: rest, state := .working }, restTimer := none }

theorem startWith_cons (hq : s.engine.queue = j :: rest) (g : Job → Job) :
    startWith g s = startedWith { g j with started := true } rest s := by
  unfold startWith; rw [setHead_cons hq]; rfl

theorem startedWith_frame (i : Job) (rest : List Job) (s : State) :
    changesOnly [.engine, .restTimer] s (startedWith i rest s) := engineRest_frame s _ _

/-- An order that is in flight once it has begun. -/
theorem runQueue_inFlight (hq : s.engine.queue = j :: rest) (hs : j.started = true) (ho : j.orders[j.next]? = some o)
    (hr : 0 < s.engine.ribbon) {t : State} (hb : beginOrder o s = ⟨t, false⟩) : runQueue (n + 1) s = t := by
  rw [runQueue_started hq hs, ho]
  dsimp only
  rw [if_neg hr.ne', hb]; rfl

/-- The run goes on with the head job once it has started. -/
theorem goOn_starts (hq : s.engine.queue = j :: rest) (hj : j.started = false)
    (h : j.correction.isSome = true ∨ 0 < s.engine.ribbon) : ∃ n, goOn s = runQueue (n + 63) (startHead j rest s) := by
  obtain ⟨n, hn⟩ := goOn_fuel s
  exact ⟨n, hn.trans (runQueue_starts hq hj h)⟩

/-- R67: a job that is no Correction job starts with its orders. -/
theorem goOn_ordinary (hq : s.engine.queue = j :: rest) (hr : 0 < s.engine.ribbon) (hj : j.started = false)
    (hc : j.correction = none) (hp : j.relocate = true → s.lift.point = none) :
    ∃ n, goOn s = runQueue (n + 63) (startedWith { j with started := true } rest s) := by
  obtain ⟨n, hn⟩ := goOn_starts hq hj (.inr hr)
  exact ⟨n, hn.trans (congrArg _ (startHead_plain hq hc hp))⟩

/-- R69: a started job's order begins and is in flight. -/
theorem goOn_ordinary_begins (hq : s.engine.queue = j :: rest) (hr : 0 < s.engine.ribbon) (hj : j.started = false)
    (hc : j.correction = none) (hp : j.relocate = true → s.lift.point = none) (ho : j.orders[j.next]? = some o)
    (ht : o.takesTime s = true) : goOn s = { s with
      engine := orderBegun o { s.engine with state := .working, queue := { j with started := true } :: rest }
      restTimer := none } := by
  obtain ⟨n, hn⟩ := goOn_ordinary hq hr hj hc hp
  exact hn.trans (runQueue_begins (s := startedWith { j with started := true } rest s) (j := { j with started := true })
    rfl rfl ho hr ht)

/-- What a job that begins its order at once leaves. -/
theorem jobStart_begins (hs : s.engine.state = .ready) (hm : s.engine.petalMap.isSome = true)
    (hq : s.engine.queue = j :: rest) (hr : 0 < s.engine.ribbon) (hj : j.started = false)
    (hc : j.correction = none) (hp : j.relocate = true → s.lift.point = none) (ho : j.orders[j.next]? = some o)
    (ht : o.takesTime s = true) : ∃ t, exec .jobStart s = .next t ∧ t.engine =
        orderBegun o { s.engine with state := .working, queue := { j with started := true } :: rest }
      ∧ t.restTimer = none ∧ eventFrame [.engine, .restTimer] s t := by
  refine ⟨_, jobStart_goesOn hs hm hq, ?_⟩
  rw [goOn_ordinary_begins hq hr hj hc hp ho ht]
  exact engineRestStep_outcome s _ none

/-! ### Orders that complete as they begin (R69, R74, R76) -/

theorem beginOrder_moveHere (s : State) : beginOrder (.move s.engine.carrier) s = ⟨s, true⟩ := if_pos rfl

theorem beginOrder_move {x : Nat} (h : s.engine.carrier ≠ x) : beginOrder (.move x) s =
    ⟨{ s with engine := { s.engine with carrierMove := some { target := x, limit := 61 } } }, false⟩ := by
  show (if s.engine.carrier = x then _ else _) = _
  rw [if_neg h]
  unfold startCarrier; rw [if_neg h]; rfl

theorem beginOrder_feed {d : Int} (h : d ≠ 0) (s : State) : beginOrder (.feed d) s =
    ⟨{ s with engine := { s.engine with platenMove := some (.feed d) } }, false⟩ := if_neg h

/-- R74: a Feed of nothing closes the open record. -/
theorem fed_zero (hlow : -64 ≤ s.engine.platen) (hhigh : s.engine.platen ≤ 8191)
    (hlines : s.engine.platen ≤ s.engine.pageLines) : pageEnds 0 s = false ∧ fed 0 s = { s with memory := s.memory.fed } := by
  have hto : s.engine.fedTo 0 = s.engine.platen := by
    unfold Engine.fedTo; rw [add_zero, min_eq_right hhigh, max_eq_right hlow]
  have hends : pageEnds 0 s = false := by
    rw [Bool.eq_false_iff]; intro h
    obtain ⟨hraised, -, -⟩ := pageEnds_iff.1 h
    exact absurd hlines (not_le.2 (hto ▸ hraised))
  refine ⟨hends, ?_⟩
  unfold fed
  rw [hends, hto, max_eq_left hlines, Bool.or_false]

theorem beginOrder_feedNothing (hq : s.engine.queue = j :: rest) (hlow : -64 ≤ s.engine.platen)
    (hhigh : s.engine.platen ≤ 8191) (hlines : s.engine.platen ≤ s.engine.pageLines) :
    beginOrder (.feed 0) s = ⟨{ s with memory := s.memory.fed }, true⟩ := by
  obtain ⟨hends, hfed⟩ := fed_zero hlow hhigh hlines
  show (⟨completeFeed 0 s, true⟩ : Begun) = _
  rw [completeFeed_within hq hends, hfed]

/-- An order that completes as it begins moves nothing; at most the open record closes. -/
theorem beginOrder_passes (hq : s.engine.queue = j :: rest) (h : o = .move s.engine.carrier ∨ (o = .feed 0
      ∧ -64 ≤ s.engine.platen ∧ s.engine.platen ≤ 8191 ∧ s.engine.platen ≤ s.engine.pageLines)) :
    beginOrder o s = ⟨{ s with memory := if o = .feed 0 then s.memory.fed else s.memory }, true⟩ := by
  rcases h with rfl | ⟨rfl, hlow, hhigh, hlines⟩
  · rw [if_neg nofun]; exact beginOrder_moveHere s
  · rw [if_pos rfl]; exact beginOrder_feedNothing hq hlow hhigh hlines

theorem CorrectionMemory.fed_ite (m : CorrectionMemory) (o : Order) : (if o = .feed 0 then m.fed else m) =
    if o = .feed 0 ∧ m.openRecord.isSome = true then { m with openRecord := none, resumeRecord := m.openRecord } else m := by
  by_cases h : o = .feed 0
  · cases hm : m.openRecord with
    | none => rw [if_pos h, if_neg (by simp), fed_none hm]
    | some name => rw [if_pos h, if_pos ⟨h, rfl⟩, fed_some hm]
  · rw [if_neg h, if_neg (fun hc => h hc.1)]

/-- R69, R74: the order behind one that completes as it begins. -/
theorem goOn_ordinary_passes {o' : Order} (hq : s.engine.queue = j :: rest) (hr : 0 < s.engine.ribbon)
    (hj : j.started = false) (hc : j.correction = none) (hp : j.relocate = true → s.lift.point = none)
    (ho : j.orders[j.next]? = some o) (ho' : j.orders[j.next + 1]? = some o') (ht : o'.takesTime s = true)
    (h : o = .move s.engine.carrier ∨ (o = .feed 0
      ∧ -64 ≤ s.engine.platen ∧ s.engine.platen ≤ 8191 ∧ s.engine.platen ≤ s.engine.pageLines)) :
    goOn s = { s with
      engine := orderBegun o' { s.engine with
        state := .working, queue := { j with started := true, next := j.next + 1 } :: rest }
      memory := if o = .feed 0 then s.memory.fed else s.memory
      restTimer := none } := by
  obtain ⟨n, hn⟩ := goOn_ordinary hq hr hj hc hp
  have hb := beginOrder_passes (s := startedWith { j with started := true } rest s) (j := { j with started := true }) rfl h
  have hpass := runQueue_passes (n := n + 62) (s := startedWith { j with started := true } rest s)
    (j := { j with started := true }) rfl rfl ho hr hb
  refine hn.trans (hpass.trans ((congrArg _ (setHead_cons (j := { j with started := true }) (rest := rest) rfl)).trans ?_))
  exact runQueue_begins (n := n + 61) (j := { j with started := true, next := j.next + 1 }) rfl rfl ho' hr ht

/-! ### A Correction job (R112 to R116, R120, R121) -/

/-- R115: a lone Correction job that is refused leaves the engine Ready. -/
theorem refuseLift_alone {source : Port} {command : LiftCommand} {reason : LiftReason} (hq : s.engine.queue = [j])
    (hw : s.lift.owed = false) : refuseLift source command reason s =
      { (({ s with engine := { s.engine with queue := [] } } : State).notice source
          (Notice.liftRefused command.code reason.code)) with
        tones := if source = .console then s.tones.request .refuse else s.tones } := by
  unfold refuseLift; dsimp only
  rw [popHead_cons hq]
  cases source with
  | console =>
    rw [if_pos rfl, if_pos rfl]
    exact appendOwed_none hw
  | link =>
    rw [if_neg nofun, if_neg nofun]
    exact appendOwed_none hw

end

end Sys2Proof.Machine

/-! SUPPORT. How a Correction job starts (R112 to R116, R120, R121). -/

namespace Sys2Proof.Machine

/-! ### The first order of a correction (R116) -/

/-- The first Feed of a distance. -/
def firstFeed (d : Int) : Int := if d.natAbs ≤ 20 then d else if 0 < d then 20 else -20

theorem feedsOf_first (d : Int) : ∃ more, feedsOf d = .feed (firstFeed d) :: more := by
  unfold firstFeed
  by_cases h : d.natAbs ≤ 20
  · rw [if_pos h]; exact ⟨[], feedsOf_short h⟩
  · obtain ⟨rest, hl, -⟩ := feedsOf_long h
    obtain ⟨m, hm⟩ := Nat.exists_eq_succ_of_ne_zero (show d.natAbs / 20 ≠ 0 by omega)
    rw [hm, List.replicate_succ, List.cons_append] at hl
    rw [if_neg h]
    exact ⟨_, hl⟩

theorem firstFeed_eq_zero {d : Int} : firstFeed d = 0 ↔ d = 0 := by
  unfold firstFeed
  split
  · rfl
  · split <;> omega

theorem correctionOrders_first (c : LiftCommand) {g : Target} (platen : Int) (h : g.entries ≠ []) :
    ∃ (d : Int) (r : Nat) (e : StrikeEntry) (more : List Order),
      correctionOrders c g platen = feedsOf d ++ .lift r e :: more := by
  obtain ⟨e, l, ht⟩ := liftedTargets_cons h
  have ho := correctionOrders_cons c platen ht
  rw [liftOrders_cons, if_pos rfl, List.nil_append, List.append_assoc] at ho
  exact ⟨_, _, _, _, ho⟩

section
variable {s : State} {j : Job} {rest : List Job}

/-- What the beginning of a Lift leaves of the engine. -/
theorem beginOrder_lift (r : Nat) (x : StrikeEntry) (s : State) : ∃ e : Engine,
    beginOrder (.lift r x) s = ⟨{ s with engine := e }, false⟩ ∧ e.queue = s.engine.queue ∧ e.state = s.engine.state := by
  refine ⟨_, rfl, ?_⟩
  rw [fireOrRaise_lift]
  unfold startCarrier
  split <;> (unfold startWheel; split <;> exact ⟨rfl, rfl⟩)

/-- What the run leaves of a correction that has started: its first Feed is in flight, or it has begun its first Lift
where the platen stands. -/
structure correctionRuns (j : Job) (rest : List Job) (s t : State) : Prop where
  frame : changesOnly [.console, .link, .engine, .memory] s t
  working : t.engine.state = s.engine.state
  queue : t.engine.queue = j :: rest
    ∨ (j.orders.head? = some (.feed 0) ∧ t.engine.queue = { j with next := 1 } :: rest)

theorem runQueue_correction {n r : Nat} {d : Int} {e : StrikeEntry} {more : List Order}
    (hq : s.engine.queue = j :: rest) (hs : j.started = true) (hn : j.next = 0)
    (ho : j.orders = feedsOf d ++ .lift r e :: more) (hr : 0 < s.engine.ribbon) :
    correctionRuns j rest s (runQueue (n + 2) s) := by
  by_cases hd : d = 0
  · subst hd
    have hfirst : j.orders[j.next]? = some (.feed 0) := by rw [ho, hn]; rfl
    have hsecond : j.orders[1]? = some (.lift r e) := by rw [ho]; rfl
    have hb : beginOrder (.feed 0) s = ⟨completeFeed 0 s, true⟩ := rfl
    have hfed : changesOnly [.console, .link] (fed 0 s) (completeFeed 0 s) := completeFeed_fed hq
    have hengine : (completeFeed 0 s).engine = (fed 0 s).engine := hfed.same .engine (by decide)
    have hstep : setHead (fun x => { x with next := x.next + 1 }) (completeFeed 0 s) = { completeFeed 0 s with
        engine := { (completeFeed 0 s).engine with queue := { j with next := 1 } :: rest } } := by
      rw [setHead_cons (j := j) (rest := rest) (by rw [hengine]; exact hq), hn]
    obtain ⟨e', hlift, hqueue, hstate⟩ := beginOrder_lift r e { completeFeed 0 s with
        engine := { (completeFeed 0 s).engine with queue := { j with next := 1 } :: rest } }
    have hrun : runQueue (n + 2) s = { completeFeed 0 s with engine := e' } := by
      rw [runQueue_passes (n := n + 1) hq hs hfirst hr hb, hstep]
      exact runQueue_inFlight (j := { j with next := 1 }) rfl hs hsecond (by
        show 0 < (completeFeed 0 s).engine.ribbon
        rw [hengine]; exact hr) hlift
    rw [hrun]
    refine ⟨?_, ?_, .inr ⟨by rw [ho]; rfl, hqueue⟩⟩
    · exact (((fed_frame 0 s).mono (by decide)).trans (hfed.mono (by decide))).trans ((engine_frame _ e').mono (by decide))
    · exact hstate.trans (by rw [hengine]; rfl)
  · obtain ⟨feeds, hfeeds⟩ := feedsOf_first d
    have hfirst : j.orders[j.next]? = some (.feed (firstFeed d)) := by rw [ho, hn, hfeeds]; rfl
    rw [runQueue_inFlight (n := n + 1) hq hs hfirst hr (beginOrder_feed (mt firstFeed_eq_zero.1 hd) s)]
    exact ⟨(engine_frame _ _).mono (by decide), rfl, .inl hq⟩

/-! ### The Relocate Point and Away (R120, R121) -/

/-- R120: the resolution sets the Relocate Point. -/
def pointIsSet (s : State) : Bool := !s.lift.away && (s.lift.point.isNone || s.lift.strikeSeen)

theorem setRelocatePoint_lift (s : State) : (setRelocatePoint s).lift = { s.lift with
    point := if pointIsSet s then some (s.composer.position, s.engine.platen) else s.lift.point
    strikeSeen := s.lift.strikeSeen && !pointIsSet s } := by
  show (if pointIsSet s = true then _ else s : State).lift = _
  cases pointIsSet s with
  | true => rw [if_pos rfl, if_pos rfl, Bool.not_true, Bool.and_false]
  | false => rw [if_neg nofun, if_neg nofun, Bool.not_false, Bool.and_true]

theorem leastPosition_cons (e x : StrikeEntry) (l : List StrikeEntry) :
    leastPosition (e :: x :: l) = min e.position (leastPosition (x :: l)) := rfl

theorem leastPosition_le {l : List StrikeEntry} : ∀ e ∈ l, leastPosition l ≤ e.position := by
  induction l with
  | nil => exact nofun
  | cons a l ih =>
    cases l with
    | nil => exact fun e he => by rw [List.mem_singleton.1 he]; exact le_refl _
    | cons x l =>
      rw [leastPosition_cons]
      refine List.forall_mem_cons.2 ⟨min_le_left _ _, fun e he => (min_le_right _ _).trans (ih e he)⟩

theorem leastPosition_mem {l : List StrikeEntry} (h : l ≠ []) : ∃ e ∈ l, leastPosition l = e.position := by
  induction l with
  | nil => exact absurd rfl h
  | cons a l ih =>
    cases l with
    | nil => exact ⟨a, List.mem_singleton_self a, rfl⟩
    | cons x l =>
      rw [leastPosition_cons]
      rcases min_choice a.position (leastPosition (x :: l)) with hmin | hmin
      · exact ⟨a, List.mem_cons_self, hmin⟩
      · obtain ⟨e, he, hle⟩ := ih (List.cons_ne_nil _ _)
        exact ⟨e, List.mem_cons_of_mem _ he, hmin.trans hle⟩

theorem discardLine_nextSerial (s : State) : (discardLine s).composer.nextSerial = s.composer.nextSerial := by
  have hfreed : ∀ p : Port, (freeLine p (releaseJoined (dropLineSpelling s.line.serial s))).composer.nextSerial
      = s.composer.nextSerial := fun p => by
    rw [freeLine_composer, (releaseJoined_frame _).same .composer (by decide)]; rfl
  unfold discardLine
  cases s.line.holder with
  | none => rfl
  | some p =>
    dsimp only
    split
    · exact hfreed p
    · exact hfreed p

/-- R121: Away begins at the target record, with the compose position at its leftmost target. -/
theorem beginAway_outcome (g : Target) (s : State) :
    (beginAway g s).lift = { s.lift with away := true, target := some g.record.name }
      ∧ (beginAway g s).line = awayLine g.record.serial
      ∧ (beginAway g s).composer.nextSerial = s.composer.nextSerial
      ∧ (beginAway g s).composer.position = leastPosition g.entries := by
  refine ⟨?_, rfl, discardLine_nextSerial s, rfl⟩
  show { (discardLine s).lift with away := true, target := some g.record.name } = _
  rw [(discardLine_frame s).same .lift (by decide)]

end

end Sys2Proof.Machine

/-! SUPPORT. The start of a Correction job, of a lone Eject and of a Relocate job (R67, R76, R115, R120 to R123). -/

namespace Sys2Proof.Machine

section
variable {s : State} {j : Job} {rest : List Job} {c : Correction} {g : Target}

/-! ### A Correction job -/

theorem resolveCorrection_refused {reason : LiftReason} (h : (findTarget c s = none ∧ reason = .noTarget)
    ∨ ∃ g, findTarget c s = some g ∧ liftCheck c.command g rest s = some reason) :
    resolveCorrection j c rest s = refuseLift j.source c.command reason s := by
  unfold resolveCorrection
  rcases h with ⟨hf, rfl⟩ | ⟨g, hf, hl⟩
  · rw [hf]
  · rw [hf]; dsimp only; rw [hl]

/-- R115: a lone Correction job is refused, and the engine is Ready. -/
theorem jobStart_refused {reason : LiftReason} (hs : s.engine.state = .ready) (hm : s.engine.petalMap.isSome = true)
    (hq : s.engine.queue = [j]) (hj : j.started = false) (hc : j.correction = some c) (hw : s.lift.owed = false)
    (h : (findTarget c s = none ∧ reason = .noTarget)
      ∨ ∃ g, findTarget c s = some g ∧ liftCheck c.command g [] s = some reason) :
    exec .jobStart s = .next (endStep (enterReady (refuseLift j.source c.command reason s))) := by
  obtain ⟨n, hn⟩ := goOn_starts hq hj (.inl (by rw [hc]; rfl))
  have hhead : startHead j [] s = refuseLift j.source c.command reason s := by
    unfold startHead; rw [hc]; exact resolveCorrection_refused h
  have hempty : (refuseLift j.source c.command reason s).engine.queue = [] := by
    rw [refuseLift_alone hq hw]; cases j.source <;> rfl
  rw [jobStart_goesOn hs hm hq, hn, hhead, runQueue_empty (n := n + 62) hempty]

/-- R116: a Correction job with what its resolution gives it. -/
def resolvedJob (j : Job) (c : Correction) (g : Target) (platen : Int) : Job :=
  { j with
    started := true, serial := some g.record.serial, orders := correctionOrders c.command g platen
    correction := some { c with target := some g.record.name } }

/-- R120, R121: the state in which a Correction job is resolved. -/
def resolvedState (j : Job) (rest : List Job) (c : Correction) (g : Target) (s : State) : State :=
  let started := startedWith (resolvedJob j c g s.engine.platen) rest (setRelocatePoint s)
  if c.command = .back then beginAway g started else started

theorem resolveCorrection_accepted (hq : s.engine.queue = j :: rest) (hf : findTarget c s = some g)
    (hl : liftCheck c.command g rest s = none) : resolveCorrection j c rest s = resolvedState j rest c g s := by
  have hqueue : (setRelocatePoint s).engine.queue = j :: rest := by
    rw [(setRelocatePoint_frame s).same .engine (by decide)]; exact hq
  unfold resolveCorrection
  rw [hf]; dsimp only
  rw [hl]; dsimp only
  rw [startWith_cons hqueue]; rfl

/-- What the resolution leaves of the engine, whatever it lifts. -/
theorem resolvedState_engine : (resolvedState j rest c g s).engine =
      { s.engine with queue := resolvedJob j c g s.engine.platen :: rest, state := .working }
    ∧ (resolvedState j rest c g s).restTimer = none ∧ (resolvedState j rest c g s).memory = s.memory := by
  have hpoint := setRelocatePoint_frame s
  have hplain : (startedWith (resolvedJob j c g s.engine.platen) rest (setRelocatePoint s)).engine =
      { s.engine with queue := resolvedJob j c g s.engine.platen :: rest, state := .working } := by
    unfold startedWith; dsimp only; rw [hpoint.same .engine (by decide)]
  have hmemory : (setRelocatePoint s).memory = s.memory := hpoint.same .memory (by decide)
  unfold resolvedState; dsimp only
  split
  · have haway := beginAway_frame g (startedWith (resolvedJob j c g s.engine.platen) rest (setRelocatePoint s))
    exact ⟨(haway.same .engine (by decide)).trans hplain, haway.same .restTimer (by decide),
      (haway.same .memory (by decide)).trans hmemory⟩
  · exact ⟨hplain, rfl, hmemory⟩

/-- R120: what the resolution leaves of the Relocate Point. -/
theorem resolvedState_point :
    (resolvedState j rest c g s).lift.point
        = (if pointIsSet s then some (s.composer.position, s.engine.platen) else s.lift.point)
      ∧ (resolvedState j rest c g s).lift.strikeSeen = (s.lift.strikeSeen && !pointIsSet s) := by
  have hpoint := setRelocatePoint_lift s
  unfold resolvedState; dsimp only
  split
  · rw [(beginAway_outcome g _).1]
    show (setRelocatePoint s).lift.point = _ ∧ (setRelocatePoint s).lift.strikeSeen = _
    rw [hpoint]; exact ⟨rfl, rfl⟩
  · show (setRelocatePoint s).lift.point = _ ∧ (setRelocatePoint s).lift.strikeSeen = _
    rw [hpoint]; exact ⟨rfl, rfl⟩

/-- A lift that is no Lift Back leaves the line to the composer. -/
theorem resolvedState_here (h : c.command ≠ .back) : (resolvedState j rest c g s).lift.away = s.lift.away
    ∧ (resolvedState j rest c g s).composer = s.composer ∧ (resolvedState j rest c g s).line = s.line := by
  have hpoint := setRelocatePoint_frame s
  unfold resolvedState; dsimp only
  rw [if_neg h]
  refine ⟨?_, hpoint.same .composer (by decide), hpoint.same .line (by decide)⟩
  show (setRelocatePoint s).lift.away = _
  rw [setRelocatePoint_lift]

/-- R121: a Lift Back starts Away. -/
theorem resolvedState_away (h : c.command = .back) : (resolvedState j rest c g s).lift.away = true
    ∧ (resolvedState j rest c g s).lift.target = some g.record.name
    ∧ (resolvedState j rest c g s).line = awayLine g.record.serial
    ∧ (resolvedState j rest c g s).composer.nextSerial = s.composer.nextSerial
    ∧ (resolvedState j rest c g s).composer.position = leastPosition g.entries := by
  have hpoint := setRelocatePoint_frame s
  unfold resolvedState; dsimp only
  rw [if_pos h]
  obtain ⟨hlift, hline, hserial, hposition⟩ :=
    beginAway_outcome g (startedWith (resolvedJob j c g s.engine.platen) rest (setRelocatePoint s))
  refine ⟨by rw [hlift], by rw [hlift], hline, hserial.trans ?_, hposition⟩
  show (setRelocatePoint s).composer.nextSerial = _
  rw [hpoint.same .composer (by decide)]

/-- What the run makes of a state with a resolved job: SupplyOut with no ribbon, else its first order begins. -/
structure resolvedRuns (i : Job) (rest : List Job) (s t : State) : Prop where
  frame : changesOnly [.console, .link, .engine, .memory, .restTimer] s t
  restTimer : t.restTimer = none
  supplyOut : s.engine.ribbon = 0 → t.engine = { s.engine with state := .supplyOut } ∧ t.memory = s.memory
  begins : 0 < s.engine.ribbon → t.engine.state = s.engine.state ∧ (t.engine.queue = i :: rest
    ∨ (i.orders.head? = some (.feed 0) ∧ t.engine.queue = { i with next := 1 } :: rest))

theorem runQueue_resolved {n r : Nat} {d : Int} {e : StrikeEntry} {more : List Order} (hq : s.engine.queue = j :: rest)
    (hs : j.started = true) (hn : j.next = 0) (ho : j.orders = feedsOf d ++ .lift r e :: more)
    (ht : s.restTimer = none) : resolvedRuns j rest s (runQueue (n + 2) s) := by
  by_cases hr : s.engine.ribbon = 0
  · obtain ⟨feeds, hfeeds⟩ := feedsOf_first d
    have hfirst : j.orders[j.next]? = some (.feed (firstFeed d)) := by rw [ho, hn, hfeeds]; rfl
    rw [runQueue_supplyOut (n := n + 1) hq hs hfirst hr]
    exact ⟨(engineRest_frame s _ none).mono (by decide), rfl, fun _ => ⟨rfl, rfl⟩, fun h => absurd hr h.ne'⟩
  · obtain ⟨hframe, hworking, hqueue⟩ := runQueue_correction (n := n) hq hs hn ho (Nat.pos_of_ne_zero hr)
    exact ⟨hframe.mono (by decide), (hframe.same .restTimer (by decide)).trans ht, fun h => absurd h hr,
      fun _ => ⟨hworking, hqueue⟩⟩

/-- R115, R116: a Correction job that passes its checks is resolved, and the engine goes on with its orders. -/
theorem jobStart_resolved (hs : s.engine.state = .ready) (hm : s.engine.petalMap.isSome = true)
    (hq : s.engine.queue = j :: rest) (hj : j.started = false) (hn : j.next = 0) (hc : j.correction = some c)
    (hf : findTarget c s = some g) (hl : liftCheck c.command g rest s = none) : ∃ t, exec .jobStart s = .next (endStep t)
      ∧ resolvedRuns (resolvedJob j c g s.engine.platen) rest (resolvedState j rest c g s) t := by
  obtain ⟨n, hrun⟩ := goOn_starts hq hj (.inl (by rw [hc]; rfl))
  have hhead : startHead j rest s = resolvedState j rest c g s := by
    unfold startHead; rw [hc]; exact resolveCorrection_accepted hq hf hl
  have hne := entries_of_liftCheck_none hl
  obtain ⟨d, r, e, more, ho⟩ := correctionOrders_first c.command s.engine.platen hne
  obtain ⟨hengine, hrest, -⟩ := resolvedState_engine (s := s) (j := j) (rest := rest) (c := c) (g := g)
  refine ⟨goOn s, jobStart_goesOn hs hm hq, ?_⟩
  rw [hrun, hhead]
  exact runQueue_resolved (n := n + 61) (by rw [hengine]) rfl hn ho hrest

/-! ### A lone Eject at the end of the page (R76) -/

/-- R76, R108: a new top of page has been made and the job has left. -/
def ejectedAlone (s : State) : State :=
  let t := completeEject s
  { t with engine := { t.engine with queue := [] } }

theorem goOn_eject (hq : s.engine.queue = [j]) (hr : 0 < s.engine.ribbon) (hj : j.started = false)
    (hc : j.correction = none) (hrel : j.relocate = false) (hk : j.kind = .motion) (ho : j.orders = [.eject])
    (hn : j.next = 0) (hlen : s.format.pageLength ≤ s.engine.platen) (hw : s.lift.owed = false) :
    goOn s = enterReady (lineDone j.source 0 0 0 (ejectedAlone (startedWith { j with started := true } [] s))) := by
  obtain ⟨n, hrun⟩ := goOn_ordinary hq hr hj hc (by rw [hrel]; exact nofun)
  have hfirst : j.orders[j.next]? = some .eject := by rw [ho, hn]; rfl
  have hnone : j.orders[j.next + 1]? = none := by rw [ho, hn]; rfl
  have hbegin : ∀ t : State, t.format = s.format → t.engine.platen = s.engine.platen →
      beginOrder .eject t = ⟨completeEject t, true⟩ := fun t hf hp => if_pos (by rw [hf, hp]; exact hlen)
  generalize hu : startedWith { j with started := true } [] s = u at hrun ⊢
  have hengine : (completeEject u).engine = { u.engine with platen := 0, pageLines := 0, pageEnd := false } :=
    (emptyMemory_frame _).same .engine (by decide)
  have hpass := runQueue_passes (n := n + 62) (s := u) (j := { j with started := true }) (rest := [])
    (by rw [← hu]; rfl) rfl hfirst (by rw [← hu]; exact hr) (hbegin u (by rw [← hu]; rfl) (by rw [← hu]; rfl))
  have hstep := setHead_cons (g := fun x => { x with next := x.next + 1 }) (s := completeEject u)
    (j := { j with started := true }) (rest := []) (by rw [hengine, ← hu]; rfl)
  rw [hrun, hpass, hstep, runQueue_ended (n := n + 61) (j := { j with started := true, next := j.next + 1 }) (rest := [])
    rfl rfl hnone]
  have hdone := completeHead_motion (j := { j with started := true, next := j.next + 1 }) (rest := [])
    (s := { completeEject u with engine := { (completeEject u).engine with
      queue := [{ j with started := true, next := j.next + 1 }] } }) rfl
    (by
      show (completeEject u).lift.owed = false
      unfold completeEject; rw [emptyMemory_lift, ← hu]; exact hw) hk hrel
  rw [hdone, runQueue_empty (n := n + 60) (by rw [lineDone_engine])]
  rfl

/-! ### A Relocate job (R123) -/

/-- R123: the orders of a Relocate job lead to the Relocate Point. -/
def relocateHead (j : Job) (x : Nat) (d : Int) (next : Nat) : Job :=
  { j with started := true, orders := .move x :: feedsOf d, next := next }

theorem goOn_relocate {x : Nat} {y : Int} (hq : s.engine.queue = j :: rest) (hr : 0 < s.engine.ribbon)
    (hj : j.started = false) (hc : j.correction = none) (hrel : j.relocate = true) (hn : j.next = 0)
    (hp : s.lift.point = some (x, y)) : ∃ n, goOn s =
      runQueue (n + 63) (startedWith (relocateHead j x (y - s.engine.platen) 0) rest s) := by
  obtain ⟨n, hrun⟩ := goOn_starts hq hj (.inr hr)
  refine ⟨n, hrun.trans (congrArg _ ?_)⟩
  have hjob : relocateHead j x (y - s.engine.platen) 0
      = { j with orders := .move x :: feedsOf (y - s.engine.platen), started := true } := by
    unfold relocateHead; rw [← hn]
  unfold startHead
  rw [hc]; dsimp only
  rw [if_pos hrel, hp, hjob]
  exact startWith_cons hq _

theorem goOn_relocate_moves {x : Nat} {y : Int} (hq : s.engine.queue = j :: rest) (hr : 0 < s.engine.ribbon)
    (hj : j.started = false) (hc : j.correction = none) (hrel : j.relocate = true) (hn : j.next = 0)
    (hp : s.lift.point = some (x, y)) (hx : s.engine.carrier ≠ x) : goOn s = { s with
      engine := { s.engine with
        state := .working, queue := relocateHead j x (y - s.engine.platen) 0 :: rest
        carrierMove := some { target := x, limit := 61 } }
      restTimer := none } := by
  obtain ⟨n, hrun⟩ := goOn_relocate hq hr hj hc hrel hn hp
  have hbegin := beginOrder_move (s := startedWith (relocateHead j x (y - s.engine.platen) 0) rest s) hx
  exact hrun.trans (runQueue_inFlight (n := n + 62) (s := startedWith (relocateHead j x (y - s.engine.platen) 0) rest s)
    (j := relocateHead j x (y - s.engine.platen) 0) (rest := rest) rfl rfl rfl hr hbegin)

theorem goOn_relocate_feeds {x : Nat} {y : Int} (hq : s.engine.queue = j :: rest) (hr : 0 < s.engine.ribbon)
    (hj : j.started = false) (hc : j.correction = none) (hrel : j.relocate = true) (hn : j.next = 0)
    (hp : s.lift.point = some (x, y)) (hx : s.engine.carrier = x) (hd : y - s.engine.platen ≠ 0) : goOn s = { s with
      engine := { s.engine with
        state := .working, queue := relocateHead j x (y - s.engine.platen) 1 :: rest
        platenMove := some (.feed (firstFeed (y - s.engine.platen))) }
      restTimer := none } := by
  obtain ⟨n, hrun⟩ := goOn_relocate hq hr hj hc hrel hn hp
  obtain ⟨feeds, hfeeds⟩ := feedsOf_first (y - s.engine.platen)
  have hfeed : (relocateHead j x (y - s.engine.platen) 1).orders[1]? = some (.feed (firstFeed (y - s.engine.platen))) := by
    show (Order.move x :: feedsOf (y - s.engine.platen))[1]? = _
    rw [hfeeds]; rfl
  have hhere : beginOrder (.move x) (startedWith (relocateHead j x (y - s.engine.platen) 0) rest s)
      = ⟨startedWith (relocateHead j x (y - s.engine.platen) 0) rest s, true⟩ := if_pos hx
  have hpass := runQueue_passes (n := n + 62) (s := startedWith (relocateHead j x (y - s.engine.platen) 0) rest s)
    (o := .move x) (j := relocateHead j x (y - s.engine.platen) 0) (rest := rest) rfl rfl rfl hr hhere
  refine hrun.trans (hpass.trans ((congrArg _ (setHead_cons (j := relocateHead j x (y - s.engine.platen) 0)
    (rest := rest) rfl)).trans ?_))
  exact runQueue_inFlight (n := n + 61) (s := startedWith (relocateHead j x (y - s.engine.platen) 1) rest s)
    (j := relocateHead j x (y - s.engine.platen) 1) (rest := rest) rfl rfl hfeed hr (beginOrder_feed (mt firstFeed_eq_zero.1 hd) _)

end

end Sys2Proof.Machine

/-! SUPPORT. The targets of the commands, put together (R112, R113), and the settlement of Job Start. -/

namespace Sys2Proof.Machine

/-! ### What the commands find (R112, R113) -/

section
variable {c : Correction} {s : State}

/-- R112: Lift Word lifts the word of the anchor. -/
theorem findTarget_word_anchor {g : Target} (hf : findTarget c s = some g) (h : c.command = .word) :
    s.memory.current = some g.record ∧ ∃ w ∈ g.record.words, g.word = some w
      ∧ g.entries = g.record.entries.filter (w.entries.contains ·)
      ∧ ∃ e ∈ w.entries, e.pass ≠ .underscore
        ∧ (c.reference = none → (g.record.entries.filter (·.pass != .underscore)).getLast? = some e)
        ∧ (∀ x, c.reference = some x → e.position < x
          ∧ (∀ y ∈ g.record.entries, y.pass ≠ .underscore → y.position < x → y.position ≤ e.position)
          ∧ (g.record.entries.filter fun y => y.pass != .underscore && y.position == e.position).getLast? = some e) := by
  obtain ⟨hcurrent, e, w, hanchor, hword, hgw, hge⟩ := findTarget_word_some hf h
  obtain ⟨hw, hew⟩ := wordOf_some hword
  obtain ⟨-, hp, hnewest, hrightmost⟩ := anchorOf_some hanchor
  exact ⟨hcurrent, w, hw, hgw, hge, e, hew, hp, hnewest, hrightmost⟩

/-- R113: Lift Back lifts the word whose extent contains its position. -/
theorem findTarget_back_extent {g : Target} (hf : findTarget c s = some g) (h : c.command = .back) :
    s.memory.back c.offset = some g.record ∧ ∃ w ∈ g.record.words, g.word = some w
      ∧ g.entries = g.record.entries.filter (w.entries.contains ·) ∧ w.left ≤ c.position ∧ c.position < w.right := by
  obtain ⟨hback, w, hword, hgw, hge⟩ := findTarget_back_some hf h
  obtain ⟨hw, hl, hr⟩ := wordAt_some hword
  exact ⟨hback, w, hw, hgw, hge, hl, hr⟩

theorem findTarget_current_none (hf : findTarget c s = none) (h : c.command = .last ∨ c.command = .line) :
    s.memory.current = none := by
  rcases h with h | h
  · exact Option.map_eq_none_iff.1 ((findTarget_last h).symm.trans hf)
  · exact Option.map_eq_none_iff.1 ((findTarget_line h).symm.trans hf)

/-- R112: without an anchor no visible entry lies left of the reference. -/
theorem findTarget_word_none {r : LineRecord} (hf : findTarget c s = none) (hr : s.memory.current = some r)
    (h : c.command = .word) {y : StrikeEntry} (hy : y ∈ r.entries) (hp : y.pass ≠ .underscore) :
    ∃ x, c.reference = some x ∧ x ≤ y.position := by
  rw [findTarget_word h, hr, Option.bind_some] at hf
  cases ha : anchorOf r c.reference with
  | none => exact anchorOf_none ha hy hp
  | some e =>
    rw [ha, Option.bind_some] at hf
    obtain ⟨he, hep, -⟩ := anchorOf_some ha
    exact absurd (wordTarget_none hf) (wordOf_visible he hep)

theorem findTarget_back_none {r : LineRecord} (hf : findTarget c s = none) (hr : s.memory.back c.offset = some r)
    (h : c.command = .back) : ∀ w ∈ r.words, ¬ (w.left ≤ c.position ∧ c.position < w.right) := by
  rw [findTarget_back h, hr, Option.bind_some] at hf
  exact wordAt_none (wordTarget_none hf)

theorem findTarget_retract_none (hf : findTarget c s = none) (h : c.command = .retract) :
    ∀ r ∈ s.memory.records, ¬ (r.source = .link ∧ withinReach s.engine.platen r = true) := by
  rw [findTarget_retract h] at hf
  intro r hr hp
  exact List.find?_eq_none.1 (Option.map_eq_none_iff.1 hf) r (List.mem_reverse.2 hr) (retractable_iff.2 hp)

end

/-! ### What the starts leave of the state -/

section
variable {s : State} {j : Job} {rest : List Job}

/-- R115: what is left of the state when a lone Correction job has been refused. -/
theorem refused_outcome {command : LiftCommand} {reason : LiftReason} (hs : s.engine.state = .ready)
    (hq : s.engine.queue = [j]) (hw : s.lift.owed = false) (hp : s.line.phase ≠ .checking) :
    let t := endStep (enterReady (refuseLift j.source command reason s))
    t.engine = { s.engine with queue := [] } ∧ t.restTimer = restLength s.options
      ∧ t.port j.source = (s.port j.source).notice (Notice.liftRefused command.code reason.code)
      ∧ t.tones = (if j.source = .console then s.tones.request .refuse else s.tones)
      ∧ eventFrame [.engine, .restTimer, .tones, .ofPort j.source] s t := by
  generalize hu : enterReady (refuseLift j.source command reason s) = u
  have hengine : u.engine = { s.engine with queue := [] } := by
    have hready : ({ s.engine with queue := [] } : Engine) = { s.engine with queue := [], state := .ready } := by
      rw [← hs]
    rw [← hu, refuseLift_alone hq hw, hready]
    cases j.source <;> rfl
  have hrest : u.restTimer = restLength s.options := by
    rw [← hu, refuseLift_alone hq hw]
    cases j.source <;> rfl
  have hport : u.port j.source = (s.port j.source).notice (Notice.liftRefused command.code reason.code) := by
    rw [← hu, refuseLift_alone hq hw]
    cases j.source <;> rfl
  have htones : u.tones = if j.source = .console then s.tones.request .refuse else s.tones := by
    rw [← hu, refuseLift_alone hq hw]; rfl
  have hframe : changesOnly [.engine, .restTimer, .tones, .ofPort j.source] s u := by
    rw [← hu, refuseLift_alone hq hw]
    cases j.source with
    | console => intro q hq; cases q <;> first | exact absurd hq (by decide) | rfl
    | link => intro q hq; cases q <;> first | exact absurd hq (by decide) | rfl
  have hline : u.line = s.line := hframe.same .line (by cases j.source <;> decide)
  dsimp only
  refine ⟨(endStep_engine u).trans hengine, (endStep_restTimer u).trans hrest,
    (endStep_port (by rw [hline]; exact hp) _).trans hport, (endStep_tones (by rw [hline]; exact hp)).trans htones, ?_⟩
  cases hsource : j.source <;> rw [hsource] at hframe <;>
    exact eventFrame_of hframe (by decide) (by decide) (by decide) (by decide) (by decide)

/-- R76, R108: what is left of the state when a lone Eject has completed as it began. -/
theorem ejectedAlone_outcome (hs : s.engine.state = .ready) :
    let u := ejectedAlone (startedWith { j with started := true } [] s)
    let t := endStep (enterReady (lineDone j.source 0 0 0 u))
    t.engine = { s.engine with platen := 0, pageLines := 0, pageEnd := false, queue := [] }
      ∧ t.memory = { s.memory with records := [], openRecord := none, resumeRecord := none, returnRecord := none }
      ∧ t.lift = { s.lift with point := none } ∧ t.restTimer = restLength s.options
      ∧ (j.source = .link ∨ s.line.phase ≠ .checking →
        t.port j.source = (s.port j.source).notice (Notice.lineDone 0 0 0)) := by
  dsimp only
  have hframe : changesOnly [.engine, .restTimer, .memory, .spelling, .lift] s
      (ejectedAlone (startedWith { j with started := true } [] s)) :=
    (((startedWith_frame _ _ s).mono (by decide)).trans ((engine_frame _ _).mono (by decide))).trans
      (((emptyMemory_frame _).mono (by decide)).trans ((engine_frame _ _).mono (by decide)))
  have hengine : (ejectedAlone (startedWith { j with started := true } [] s)).engine =
      { s.engine with platen := 0, pageLines := 0, pageEnd := false, queue := [], state := .working } := by
    unfold ejectedAlone completeEject; dsimp only
    rw [(emptyMemory_frame _).same .engine (by decide)]; rfl
  have hmemory : (ejectedAlone (startedWith { j with started := true } [] s)).memory =
      { s.memory with records := [], openRecord := none, resumeRecord := none, returnRecord := none } :=
    emptyMemory_memory _
  have hlift : (ejectedAlone (startedWith { j with started := true } [] s)).lift = { s.lift with point := none } :=
    emptyMemory_lift _
  generalize ejectedAlone (startedWith { j with started := true } [] s) = u at hframe hengine hmemory hlift ⊢
  have hdone := lineDone_frame j.source 0 0 0 u
  obtain ⟨he, hrest, hport⟩ := readyReport_outcome (s := s) (u := lineDone j.source 0 0 0 u) (source := j.source)
    (b := Notice.lineDone 0 0 0) (by rw [lineDone_engine, hengine])
    ((hdone.same .options (by decide)).trans (hframe.same .options (by decide)))
    ((hdone.same .line (by decide)).trans (hframe.same .line (by decide)))
    (by rw [lineDone_port, if_pos rfl, hframe.ports j.source (by cases j.source <;> decide)])
  refine ⟨he.trans ?_, (endStep_memory _).trans ((lineDone_memory _ _ _ _ u).trans hmemory),
    (endStep_lift _).trans ((lineDone_lift _ _ _ _ u).trans hlift), hrest, hport⟩
  rw [lineDone_engine, hengine, ← hs]

end

/-- Settles O50: the job at the head of the queue starts when the engine is Ready; a Correction job is resolved first,
against the words on the paper. -/
theorem jobStartBeginsTheFirstOrder : Obligations.JobStartBeginsTheFirstOrder := by
  unfold Obligations.JobStartBeginsTheFirstOrder
  refine ⟨fun j rest k orders s hs hm hq hr hj hc hrel hn ho hw hcar hp hk => ?strike,
    fun j rest s hs hm hq hj hc hr => ?noRibbon, fun s h => ?idle,
    fun j c reason s hs hm hq hj hc hw hp h => ?refused,
    fun j rest c g s hs hm hq hj hn hc hf hl => ?resolved, fun c g behind s => liftCheck_iff c g behind s,
    fun c g s hf => ?target, fun c s hf => ?noTarget, fun r => ⟨words_apart, fun e => visible_in_words, fun w => word_spec⟩,
    fun c g platen hne => ?orders, fun j rest o s hs hm hq hr hj hc hp ho => ?order,
    fun j s hs hm hq hr hj hc hrel hk ho hn hlen hw hport => ?eject,
    fun j rest x y s hs hm hq hr hj hc hrel hn hp hw hcar => ?relocate,
    fun d => ⟨feedsOf_ne_nil d, feedsOf_feed d, feedsOf_sum d, feedsOf_dropLast d⟩⟩
  case strike =>
    have hfirst : j.orders[j.next]? = some (.strike k) := by rw [ho, hn]; rfl
    have ht : (Order.strike k).takesTime s = true := by
      simp only [Order.takesTime, hw, hcar, hp, hk, Option.isNone_none, decide_true, Bool.and_self]
    exact jobStart_begins hs hm hq hr hj hc (by rw [hrel]; exact nofun) hfirst ht
  case noRibbon =>
    refine ⟨_, jobStart_goesOn hs hm hq, ?_⟩
    rw [goOn_waits hq hj hc hr]
    exact engineRestStep_outcome s _ none
  case idle =>
    exact ⟨_, jobStart_idle h, endStep_engine s,
      eventFrame_of (.refl _ s) (by decide) (by decide) (by decide) (by decide) (by decide)⟩
  case refused =>
    exact ⟨_, jobStart_refused hs hm hq hj hc hw h, refused_outcome hs hq hw hp⟩
  case resolved =>
    obtain ⟨u, hexec, hframe, hrest, hout, hbegins⟩ := jobStart_resolved hs hm hq hj hn hc hf hl
    obtain ⟨hengine, -, hmemory⟩ := resolvedState_engine (s := s) (j := j) (rest := rest) (c := c) (g := g)
    obtain ⟨hpoint, hseen⟩ := resolvedState_point (s := s) (j := j) (rest := rest) (c := c) (g := g)
    have hlift : (endStep u).lift = (resolvedState j rest c g s).lift :=
      (endStep_lift u).trans (hframe.same .lift (by decide))
    have hcomposer : (endStep u).composer = (resolvedState j rest c g s).composer :=
      (endStep_composer u).trans (hframe.same .composer (by decide))
    have hline : u.line = (resolvedState j rest c g s).line := hframe.same .line (by decide)
    have hne := entries_of_liftCheck_none hl
    rw [hengine] at hout hbegins
    refine ⟨_, hexec, (endStep_restTimer u).trans hrest, by rw [hlift]; exact hpoint, by rw [hlift]; exact hseen,
      fun hr => ?_, fun hr => ?_, fun hback => ?_, fun hback => ?_⟩
    · obtain ⟨he, hmem⟩ := hout hr
      exact ⟨(endStep_engine u).trans he, (endStep_memory u).trans (hmem.trans hmemory)⟩
    · rw [endStep_engine]; exact hbegins hr
    · obtain ⟨haway, hsame, hfree⟩ := resolvedState_here (s := s) (j := j) (rest := rest) (g := g) hback
      obtain ⟨words, joined, phase, hend⟩ := endStep_line_words u
      rw [hlift, hcomposer, hend, hline, haway, hsame, hfree]
      exact ⟨rfl, rfl, rfl, rfl⟩
    · obtain ⟨haway, htarget, hawayLine, hserial, hposition⟩ := resolvedState_away (s := s) (j := j) (rest := rest) (g := g) hback
      rw [hlift, hcomposer, endStep_line (by rw [hline, hawayLine]; exact nofun), hline, hposition]
      exact ⟨haway, htarget, hawayLine, hserial, leastPosition_le,
        leastPosition_mem hne⟩
  case target =>
    refine ⟨findTarget_line_some hf, fun h => ?_, findTarget_word_anchor hf, findTarget_back_extent hf, fun h => ?_⟩
    · obtain ⟨hcurrent, hentries⟩ := findTarget_last_some hf h
      rw [hentries]
      exact ⟨hcurrent, newestGroup_spec g.record⟩
    · exact findTarget_retract_some hf h
  case noTarget =>
    exact ⟨findTarget_current_none hf, fun r hr h y hy hp => findTarget_word_none hf hr h hy hp,
      fun r hr h => findTarget_back_none hf hr h, findTarget_retract_none hf⟩
  case orders =>
    have hall := correctionOrders_lifts c platen hne
    obtain ⟨hhead, hlast⟩ := correctionOrders_ends c platen hne
    obtain ⟨hsorted, hstrike⟩ := liftedRightToLeft g.entries
    rw [← hall.lifted] at hsorted hstrike
    exact ⟨hall.small, hall.sum, hhead, hlast, hall.kinds, hsorted, hstrike⟩
  case order =>
    refine ⟨_, jobStart_goesOn hs hm hq, fun ht => ?_, fun o' ho' ht h => ?_⟩
    · rw [goOn_ordinary_begins hq hr hj hc hp ho ht]
      obtain ⟨he, hrest, hframe⟩ := engineRestStep_outcome s
        (orderBegun o { s.engine with state := .working, queue := { j with started := true } :: rest }) none
      exact ⟨hrest, he, hframe⟩
    · rw [goOn_ordinary_passes hq hr hj hc hp ho ho' ht h]
      refine ⟨endStep_restTimer _, endStep_engine _, (endStep_memory _).trans (s.memory.fed_ite o), ?_⟩
      refine eventFrame_of (fun q hq => ?_) (by decide) (by decide) (by decide) (by decide) (by decide)
      cases q <;> first | exact absurd hq (by decide) | rfl
  case eject =>
    refine ⟨_, jobStart_goesOn hs hm hq, ?_⟩
    rw [goOn_eject hq hr hj hc hrel hk ho hn hlen hw]
    obtain ⟨he, hmemory, hlift, hrest, hnotice⟩ := ejectedAlone_outcome (s := s) (j := j) hs
    exact ⟨he, hmemory, hlift, hrest, hnotice hport⟩
  case relocate =>
    refine ⟨_, jobStart_goesOn hs hm hq, fun hx => ?_, fun hx hd => ?_, fun h => ?_⟩
    · rw [goOn_relocate_moves hq hr hj hc hrel hn hp hx]
      exact endStep_engine _
    · rw [goOn_relocate_feeds hq hr hj hc hrel hn hp hx hd]
      exact endStep_engine _
    · by_cases hx : s.engine.carrier = x
      · rw [goOn_relocate_feeds hq hr hj hc hrel hn hp hx (h.resolve_left (not_not.2 hx))]
        exact (engineRestStep_outcome s _ none).2.2
      · rw [goOn_relocate_moves hq hr hj hc hrel hn hp hx]
        exact (engineRestStep_outcome s _ none).2.2

end Sys2Proof.Machine
